-- ==== Sys2Proof/Word.lean ====
section
/-! DEFINITION. The words of the Lyaro 9 and the one sparse table the state is built from (R1, R13, R84, R126). -/
namespace Sys2Proof

/-- A 64-bit register, doubleword or address as computed (R84, R126). -/
abbrev Word := BitVec 64
/-- One 32-bit instruction word (R47). -/
abbrev IWord := BitVec 32
/-- The 12,288 bytes of a row register, byte 0 lowest (R13, R144). -/
abbrev RowBits := BitVec 98304
/-- The 12,288 bits of a predicate (R126). -/
abbrev PredBits := BitVec 12288
/-- A sparse table: keys strictly rising, no entry equal to the table's default value. -/
abbrev Tbl (α : Type) := List (Nat × α)
/-- Bytes by address: a table whose default byte is 0. -/
abbrev Mem := Tbl (BitVec 8)

end Sys2Proof
end

