-- ==== Sys2Proof/Config.lean ====
section
/-! DEFINITION. What one part fixes and the spec leaves open: free values with no body (nothing can evaluate them), the fused values of
this part, and the cryptographic functions of the root of trust. -/
namespace Sys2Proof.Config

/-- The `n`-th value the spec leaves open (R8: unspecified, undefined after an instruction), of any width. -/
opaque freeValue (w n : Nat) : BitVec w
/-- The fuses that hold this part's energy calibration (R378). -/
opaque weightFuse (num : Nat) : Nat
/-- The range of a fused weight, lowest and highest, in picojoules (Table 17.1). -/
def weightRange : Nat → Nat × Nat
  | 0x00 => (900, 1600)
  | 0x01 => (18, 36)
  | 0x02 => (1238, 2062)
  | 0x03 => (1125, 1875)
  | 0x04 => (1095, 1825)
  | 0x05 => (975, 1625)
  | 0x06 => (1140, 1900)
  | 0x07 => (68, 112)
  | 0x08 => (28, 56)
  | 0x09 => (40, 85)
  | 0x0A => (1200000, 2600000)
  | 0x0B => (3, 8)
  | 0x0C => (700, 1400)
  | _ => (0, 0)
/-- The weight of an event class in picojoules: the fused value, which lies within its range (R378). -/
def weight (num : Nat) : Nat :=
  let r := weightRange num
  r.1 + weightFuse num % (r.2 - r.1 + 1)
/-- The part's number in its load-store domain (R263). -/
opaque partNumber : Nat
/-- SHA-512 of a byte string, as 64 bytes (R421, R424). -/
opaque sha512 (m : List (BitVec 8)) : List (BitVec 8)
/-- Ed25519 verification (RFC 8032): public key, message, signature (R421). -/
opaque ed25519Verify (pub msg sig : List (BitVec 8)) : Bool
/-- Ed25519 signature by the device identity key (R423, R424). -/
opaque identitySign (msg : List (BitVec 8)) : List (BitVec 8)
/-- The public half of the device identity key (R423). -/
opaque identityKey : List (BitVec 8)
/-- The SHA-512 digests of the four vendor keys that are fused (R421). -/
opaque vendorKeyDigest (i : Nat) : List (BitVec 8)
/-- The fused minimum security version, as its count of ones (R421, R422). -/
opaque minSecurityVersion : Nat
/-- The part serial number (Table 19.4). -/
opaque serial : Nat

end Sys2Proof.Config
end

