-- ==== Sys2Proof/Syntax.lean ====
section
/-! DEFINITION. Every row of the opcode table, one constructor each (Tables 2.5, 2.6, 2.7 and the table's event rows).
An encoded row carries its operand fields with the widths of its encoding; a row `…Ext` is the same instruction behind an
EXT prefix and carries the combined immediate (R49, Table 2.4). A row that has no encoding is an event of the part's own
agents, of its firmware or of the host; its arguments say which agent it happens at and what an outside party supplied. -/
namespace Sys2Proof

/-- One row of the opcode table: an encoded instruction or an event. -/
inductive Instr where
  | add (d : BitVec 5) (a : BitVec 5) (b : BitVec 5)
  | sub (d : BitVec 5) (a : BitVec 5) (b : BitVec 5)
  | and (d : BitVec 5) (a : BitVec 5) (b : BitVec 5)
  | or (d : BitVec 5) (a : BitVec 5) (b : BitVec 5)
  | xor (d : BitVec 5) (a : BitVec 5) (b : BitVec 5)
  | andn (d : BitVec 5) (a : BitVec 5) (b : BitVec 5)
  | sll (d : BitVec 5) (a : BitVec 5) (b : BitVec 5)
  | srl (d : BitVec 5) (a : BitVec 5) (b : BitVec 5)
  | sra (d : BitVec 5) (a : BitVec 5) (b : BitVec 5)
  | slt (d : BitVec 5) (a : BitVec 5) (b : BitVec 5)
  | sltu (d : BitVec 5) (a : BitVec 5) (b : BitVec 5)
  | min (d : BitVec 5) (a : BitVec 5) (b : BitVec 5)
  | max (d : BitVec 5) (a : BitVec 5) (b : BitVec 5)
  | minu (d : BitVec 5) (a : BitVec 5) (b : BitVec 5)
  | maxu (d : BitVec 5) (a : BitVec 5) (b : BitVec 5)
  | lea (d : BitVec 5) (a : BitVec 5) (b : BitVec 5) (s : BitVec 2)
  | addi (d : BitVec 5) (a : BitVec 5) (i : BitVec 16)
  | addiExt (d : BitVec 5) (a : BitVec 5) (i : BitVec 42)
  | andi (d : BitVec 5) (a : BitVec 5) (i : BitVec 16)
  | andiExt (d : BitVec 5) (a : BitVec 5) (i : BitVec 42)
  | ori (d : BitVec 5) (a : BitVec 5) (i : BitVec 16)
  | oriExt (d : BitVec 5) (a : BitVec 5) (i : BitVec 42)
  | xori (d : BitVec 5) (a : BitVec 5) (i : BitVec 16)
  | xoriExt (d : BitVec 5) (a : BitVec 5) (i : BitVec 42)
  | slti (d : BitVec 5) (a : BitVec 5) (i : BitVec 16)
  | sltiExt (d : BitVec 5) (a : BitVec 5) (i : BitVec 42)
  | sltiu (d : BitVec 5) (a : BitVec 5) (i : BitVec 16)
  | sltiuExt (d : BitVec 5) (a : BitVec 5) (i : BitVec 42)
  | slli (d : BitVec 5) (a : BitVec 5) (s : BitVec 6)
  | srli (d : BitVec 5) (a : BitVec 5) (s : BitVec 6)
  | srai (d : BitVec 5) (a : BitVec 5) (s : BitVec 6)
  | movhi (d : BitVec 5) (i : BitVec 16)
  | movhiExt (d : BitVec 5) (i : BitVec 42)
  | mul (d : BitVec 5) (a : BitVec 5) (b : BitVec 5)
  | mulh (d : BitVec 5) (a : BitVec 5) (b : BitVec 5)
  | mulhu (d : BitVec 5) (a : BitVec 5) (b : BitVec 5)
  | div (d : BitVec 5) (a : BitVec 5) (b : BitVec 5)
  | divu (d : BitVec 5) (a : BitVec 5) (b : BitVec 5)
  | rem (d : BitVec 5) (a : BitVec 5) (b : BitVec 5)
  | remu (d : BitVec 5) (a : BitVec 5) (b : BitVec 5)
  | madd (d : BitVec 5) (a : BitVec 5) (b : BitVec 5)
  | clz (d : BitVec 5) (a : BitVec 5)
  | ctz (d : BitVec 5) (a : BitVec 5)
  | popc (d : BitVec 5) (a : BitVec 5)
  | sext (d : BitVec 5) (a : BitVec 5) (w : BitVec 2)
  | zext (d : BitVec 5) (a : BitVec 5) (w : BitVec 2)
  | bfx (d : BitVec 5) (a : BitVec 5) (p : BitVec 6) (l : BitVec 6)
  | bfxu (d : BitVec 5) (a : BitVec 5) (p : BitVec 6) (l : BitVec 6)
  | bfi (d : BitVec 5) (a : BitVec 5) (p : BitVec 6) (l : BitVec 6)
  | ld (d : BitVec 5) (a : BitVec 5) (s : BitVec 3) (h : BitVec 2) (o : BitVec 11)
  | ldExt (d : BitVec 5) (a : BitVec 5) (s : BitVec 3) (h : BitVec 2) (o : BitVec 37)
  | st (d : BitVec 5) (a : BitVec 5) (s : BitVec 3) (h : BitVec 2) (o : BitVec 11)
  | stExt (d : BitVec 5) (a : BitVec 5) (s : BitVec 3) (h : BitVec 2) (o : BitVec 37)
  | lda (d : BitVec 5) (a : BitVec 5) (z : BitVec 1)
  | sta (a : BitVec 5) (b : BitVec 5) (z : BitVec 1)
  | amo (d : BitVec 5) (a : BitVec 5) (b : BitVec 5) (z : BitVec 1) (o : BitVec 4)
  | cas (d : BitVec 5) (a : BitVec 5) (b : BitVec 5) (z : BitVec 1)
  | pfl (a : BitVec 5) (h : BitVec 2) (o : BitVec 11)
  | pflExt (a : BitVec 5) (h : BitVec 2) (o : BitVec 37)
  | cflush (a : BitVec 5) (o : BitVec 11)
  | cflushExt (a : BitVec 5) (o : BitVec 37)
  | cdiscard (a : BitVec 5) (o : BitVec 11)
  | cdiscardExt (a : BitVec 5) (o : BitVec 37)
  | beq (a : BitVec 5) (b : BitVec 5) (o : BitVec 16)
  | beqExt (a : BitVec 5) (b : BitVec 5) (o : BitVec 42)
  | bne (a : BitVec 5) (b : BitVec 5) (o : BitVec 16)
  | bneExt (a : BitVec 5) (b : BitVec 5) (o : BitVec 42)
  | blt (a : BitVec 5) (b : BitVec 5) (o : BitVec 16)
  | bltExt (a : BitVec 5) (b : BitVec 5) (o : BitVec 42)
  | bge (a : BitVec 5) (b : BitVec 5) (o : BitVec 16)
  | bgeExt (a : BitVec 5) (b : BitVec 5) (o : BitVec 42)
  | bltu (a : BitVec 5) (b : BitVec 5) (o : BitVec 16)
  | bltuExt (a : BitVec 5) (b : BitVec 5) (o : BitVec 42)
  | bgeu (a : BitVec 5) (b : BitVec 5) (o : BitVec 16)
  | bgeuExt (a : BitVec 5) (b : BitVec 5) (o : BitVec 42)
  | j (o : BitVec 26)
  | jExt (o : BitVec 52)
  | jal (o : BitVec 26)
  | jalExt (o : BitVec 52)
  | jalr (d : BitVec 5) (a : BitVec 5) (o : BitVec 14)
  | jalrExt (d : BitVec 5) (a : BitVec 5) (o : BitVec 40)
  | callg (n : BitVec 8)
  | retg
  | loop (a : BitVec 5) (i : BitVec 16)
  | leave
  | csrr (d : BitVec 5) (c : BitVec 12)
  | csrw (d : BitVec 5) (a : BitVec 5) (c : BitVec 12)
  | csrs (d : BitVec 5) (a : BitVec 5) (c : BitVec 12)
  | csrc (d : BitVec 5) (a : BitVec 5) (c : BitVec 12)
  | syscall (c : BitVec 12)
  | tret
  | wfe
  | halt
  | bkpt (c : BitVec 12)
  | reclaim (d : BitVec 5) (a : BitVec 5)
  | kill (d : BitVec 5) (a : BitVec 5)
  | rgninv (d : BitVec 5) (a : BitVec 5)
  | diagst (d : BitVec 5) (a : BitVec 5) (c : BitVec 8)
  | diagld (d : BitVec 5) (a : BitVec 5) (c : BitVec 1)
  | savectx (d : BitVec 5) (a : BitVec 5)
  | loadctx (a : BitVec 5)
  | belay (s : BitVec 3)
  | belayRed (d : BitVec 5) (a : BitVec 5) (s : BitVec 3) (o : BitVec 5)
  | publish (s : BitVec 3)
  | cairn (a : BitVec 5) (b : BitVec 5)
  | trigger
  | launch (d : BitVec 5) (a : BitVec 5) (b : BitVec 5)
  | vf (a : BitVec 5)
  | setvl (d : BitVec 5) (a : BitVec 5) (b : BitVec 5) (k : BitVec 8)
  | setvlC (d : BitVec 5) (a : BitVec 5) (b : BitVec 5) (k : BitVec 8)
  | setvlQ (a : BitVec 5) (b : BitVec 5) (k : BitVec 8)
  | vrd (d : BitVec 5) (a : BitVec 5) (s : BitVec 8)
  | vwr (a : BitVec 5) (b : BitVec 5) (s : BitVec 8)
  | bmask (d : BitVec 5) (a : BitVec 5)
  | act (d : BitVec 3) (n : BitVec 4)
  | actw (d : BitVec 3) (n : BitVec 4)
  | wb (d : BitVec 3)
  | pre (d : BitVec 3)
  | pred (d : BitVec 3)
  | ref (d : BitVec 3)
  | rowcpy (d : BitVec 3) (a : BitVec 3) (n : BitVec 4)
  | rowfill (d : BitVec 3) (n : BitVec 4)
  | vadd (d : BitVec 3) (a : BitVec 3) (b : BitVec 3) (p : BitVec 3) (e : BitVec 3)
  | vaddScalar (d : BitVec 3) (a : BitVec 3) (p : BitVec 3) (e : BitVec 3) (y : BitVec 4)
  | vsub (d : BitVec 3) (a : BitVec 3) (b : BitVec 3) (p : BitVec 3) (e : BitVec 3)
  | vsubScalar (d : BitVec 3) (a : BitVec 3) (p : BitVec 3) (e : BitVec 3) (y : BitVec 4)
  | vmul (d : BitVec 3) (a : BitVec 3) (b : BitVec 3) (p : BitVec 3) (e : BitVec 3)
  | vmulScalar (d : BitVec 3) (a : BitVec 3) (p : BitVec 3) (e : BitVec 3) (y : BitVec 4)
  | vmulh (d : BitVec 3) (a : BitVec 3) (b : BitVec 3) (p : BitVec 3) (e : BitVec 3)
  | vmulhScalar (d : BitVec 3) (a : BitVec 3) (p : BitVec 3) (e : BitVec 3) (y : BitVec 4)
  | vmulhu (d : BitVec 3) (a : BitVec 3) (b : BitVec 3) (p : BitVec 3) (e : BitVec 3)
  | vmulhuScalar (d : BitVec 3) (a : BitVec 3) (p : BitVec 3) (e : BitVec 3) (y : BitVec 4)
  | vmac (d : BitVec 3) (a : BitVec 3) (b : BitVec 3) (p : BitVec 3) (e : BitVec 3)
  | vmacScalar (d : BitVec 3) (a : BitVec 3) (p : BitVec 3) (e : BitVec 3) (y : BitVec 4)
  | vand (d : BitVec 3) (a : BitVec 3) (b : BitVec 3) (p : BitVec 3) (e : BitVec 3)
  | vandScalar (d : BitVec 3) (a : BitVec 3) (p : BitVec 3) (e : BitVec 3) (y : BitVec 4)
  | vor (d : BitVec 3) (a : BitVec 3) (b : BitVec 3) (p : BitVec 3) (e : BitVec 3)
  | vorScalar (d : BitVec 3) (a : BitVec 3) (p : BitVec 3) (e : BitVec 3) (y : BitVec 4)
  | vxor (d : BitVec 3) (a : BitVec 3) (b : BitVec 3) (p : BitVec 3) (e : BitVec 3)
  | vxorScalar (d : BitVec 3) (a : BitVec 3) (p : BitVec 3) (e : BitVec 3) (y : BitVec 4)
  | vsll (d : BitVec 3) (a : BitVec 3) (b : BitVec 3) (p : BitVec 3) (e : BitVec 3)
  | vsllScalar (d : BitVec 3) (a : BitVec 3) (p : BitVec 3) (e : BitVec 3) (y : BitVec 4)
  | vsrl (d : BitVec 3) (a : BitVec 3) (b : BitVec 3) (p : BitVec 3) (e : BitVec 3)
  | vsrlScalar (d : BitVec 3) (a : BitVec 3) (p : BitVec 3) (e : BitVec 3) (y : BitVec 4)
  | vsra (d : BitVec 3) (a : BitVec 3) (b : BitVec 3) (p : BitVec 3) (e : BitVec 3)
  | vsraScalar (d : BitVec 3) (a : BitVec 3) (p : BitVec 3) (e : BitVec 3) (y : BitVec 4)
  | vmin (d : BitVec 3) (a : BitVec 3) (b : BitVec 3) (p : BitVec 3) (e : BitVec 3)
  | vminScalar (d : BitVec 3) (a : BitVec 3) (p : BitVec 3) (e : BitVec 3) (y : BitVec 4)
  | vmax (d : BitVec 3) (a : BitVec 3) (b : BitVec 3) (p : BitVec 3) (e : BitVec 3)
  | vmaxScalar (d : BitVec 3) (a : BitVec 3) (p : BitVec 3) (e : BitVec 3) (y : BitVec 4)
  | vminu (d : BitVec 3) (a : BitVec 3) (b : BitVec 3) (p : BitVec 3) (e : BitVec 3)
  | vminuScalar (d : BitVec 3) (a : BitVec 3) (p : BitVec 3) (e : BitVec 3) (y : BitVec 4)
  | vmaxu (d : BitVec 3) (a : BitVec 3) (b : BitVec 3) (p : BitVec 3) (e : BitVec 3)
  | vmaxuScalar (d : BitVec 3) (a : BitVec 3) (p : BitVec 3) (e : BitVec 3) (y : BitVec 4)
  | vsplat (d : BitVec 3) (p : BitVec 3) (e : BitVec 3) (y : BitVec 4)
  | viota (d : BitVec 3) (p : BitVec 3) (e : BitVec 3)
  | vsel (d : BitVec 3) (a : BitVec 3) (b : BitVec 3) (p : BitVec 3) (e : BitVec 3)
  | vselScalar (d : BitVec 3) (a : BitVec 3) (p : BitVec 3) (e : BitVec 3) (y : BitVec 4)
  | vadds (d : BitVec 3) (a : BitVec 3) (b : BitVec 3) (p : BitVec 3) (e : BitVec 3)
  | vaddsScalar (d : BitVec 3) (a : BitVec 3) (p : BitVec 3) (e : BitVec 3) (y : BitVec 4)
  | vsubs (d : BitVec 3) (a : BitVec 3) (b : BitVec 3) (p : BitVec 3) (e : BitVec 3)
  | vsubsScalar (d : BitVec 3) (a : BitVec 3) (p : BitVec 3) (e : BitVec 3) (y : BitVec 4)
  | vaddsu (d : BitVec 3) (a : BitVec 3) (b : BitVec 3) (p : BitVec 3) (e : BitVec 3)
  | vaddsuScalar (d : BitVec 3) (a : BitVec 3) (p : BitVec 3) (e : BitVec 3) (y : BitVec 4)
  | vsubsu (d : BitVec 3) (a : BitVec 3) (b : BitVec 3) (p : BitVec 3) (e : BitVec 3)
  | vsubsuScalar (d : BitVec 3) (a : BitVec 3) (p : BitVec 3) (e : BitVec 3) (y : BitVec 4)
  | vwmul (d : BitVec 3) (a : BitVec 3) (b : BitVec 3) (p : BitVec 3) (e : BitVec 3)
  | vwmulScalar (d : BitVec 3) (a : BitVec 3) (p : BitVec 3) (e : BitVec 3) (y : BitVec 4)
  | vwmac (d : BitVec 3) (a : BitVec 3) (b : BitVec 3) (p : BitVec 3) (e : BitVec 3)
  | vwmacScalar (d : BitVec 3) (a : BitVec 3) (p : BitVec 3) (e : BitVec 3) (y : BitVec 4)
  | vwmacu (d : BitVec 3) (a : BitVec 3) (b : BitVec 3) (p : BitVec 3) (e : BitVec 3)
  | vwmacuScalar (d : BitVec 3) (a : BitVec 3) (p : BitVec 3) (e : BitVec 3) (y : BitVec 4)
  | vnclip (d : BitVec 3) (a : BitVec 3) (b : BitVec 3) (p : BitVec 3) (e : BitVec 3)
  | vnclipScalar (d : BitVec 3) (a : BitVec 3) (p : BitVec 3) (e : BitVec 3) (y : BitVec 4)
  | vnclipu (d : BitVec 3) (a : BitVec 3) (b : BitVec 3) (p : BitVec 3) (e : BitVec 3)
  | vnclipuScalar (d : BitVec 3) (a : BitVec 3) (p : BitVec 3) (e : BitVec 3) (y : BitVec 4)
  | vssra (d : BitVec 3) (a : BitVec 3) (b : BitVec 3) (p : BitVec 3) (e : BitVec 3)
  | vssraScalar (d : BitVec 3) (a : BitVec 3) (p : BitVec 3) (e : BitVec 3) (y : BitVec 4)
  | vfadd (d : BitVec 3) (a : BitVec 3) (b : BitVec 3) (p : BitVec 3) (e : BitVec 3)
  | vfaddScalar (d : BitVec 3) (a : BitVec 3) (p : BitVec 3) (e : BitVec 3) (y : BitVec 4)
  | vfsub (d : BitVec 3) (a : BitVec 3) (b : BitVec 3) (p : BitVec 3) (e : BitVec 3)
  | vfsubScalar (d : BitVec 3) (a : BitVec 3) (p : BitVec 3) (e : BitVec 3) (y : BitVec 4)
  | vfmul (d : BitVec 3) (a : BitVec 3) (b : BitVec 3) (p : BitVec 3) (e : BitVec 3)
  | vfmulScalar (d : BitVec 3) (a : BitVec 3) (p : BitVec 3) (e : BitVec 3) (y : BitVec 4)
  | vfma (d : BitVec 3) (a : BitVec 3) (b : BitVec 3) (p : BitVec 3) (e : BitVec 3)
  | vfmaScalar (d : BitVec 3) (a : BitVec 3) (p : BitVec 3) (e : BitVec 3) (y : BitVec 4)
  | vfmin (d : BitVec 3) (a : BitVec 3) (b : BitVec 3) (p : BitVec 3) (e : BitVec 3)
  | vfminScalar (d : BitVec 3) (a : BitVec 3) (p : BitVec 3) (e : BitVec 3) (y : BitVec 4)
  | vfmax (d : BitVec 3) (a : BitVec 3) (b : BitVec 3) (p : BitVec 3) (e : BitVec 3)
  | vfmaxScalar (d : BitVec 3) (a : BitVec 3) (p : BitVec 3) (e : BitVec 3) (y : BitVec 4)
  | vfsgnJ (d : BitVec 3) (a : BitVec 3) (b : BitVec 3) (p : BitVec 3) (e : BitVec 3)
  | vfsgnJScalar (d : BitVec 3) (a : BitVec 3) (p : BitVec 3) (e : BitVec 3) (y : BitVec 4)
  | vfsgnN (d : BitVec 3) (a : BitVec 3) (b : BitVec 3) (p : BitVec 3) (e : BitVec 3)
  | vfsgnNScalar (d : BitVec 3) (a : BitVec 3) (p : BitVec 3) (e : BitVec 3) (y : BitVec 4)
  | vfsgnX (d : BitVec 3) (a : BitVec 3) (b : BitVec 3) (p : BitVec 3) (e : BitVec 3)
  | vfsgnXScalar (d : BitVec 3) (a : BitVec 3) (p : BitVec 3) (e : BitVec 3) (y : BitVec 4)
  | vfexp2 (d : BitVec 3) (a : BitVec 3) (p : BitVec 3) (e : BitVec 3)
  | vfrece (d : BitVec 3) (a : BitVec 3) (p : BitVec 3) (e : BitVec 3)
  | vcmp (d : BitVec 3) (a : BitVec 3) (b : BitVec 3) (p : BitVec 3) (e : BitVec 3) (c : BitVec 3)
  | vcmpScalar (d : BitVec 3) (a : BitVec 3) (p : BitVec 3) (e : BitVec 3) (y : BitVec 4) (c : BitVec 3)
  | vfcmp (d : BitVec 3) (a : BitVec 3) (b : BitVec 3) (p : BitVec 3) (e : BitVec 3) (c : BitVec 3)
  | vfcmpScalar (d : BitVec 3) (a : BitVec 3) (p : BitVec 3) (e : BitVec 3) (y : BitVec 4) (c : BitVec 3)
  | pand (d : BitVec 3) (a : BitVec 3) (b : BitVec 3) (p : BitVec 3)
  | por (d : BitVec 3) (a : BitVec 3) (b : BitVec 3) (p : BitVec 3)
  | pxor (d : BitVec 3) (a : BitVec 3) (b : BitVec 3) (p : BitVec 3)
  | pandn (d : BitVec 3) (a : BitVec 3) (b : BitVec 3) (p : BitVec 3)
  | vredsum (a : BitVec 3) (p : BitVec 3) (e : BitVec 3) (y : BitVec 4)
  | vredmin (a : BitVec 3) (p : BitVec 3) (e : BitVec 3) (y : BitVec 4)
  | vredmax (a : BitVec 3) (p : BitVec 3) (e : BitVec 3) (y : BitVec 4)
  | vfredsum (a : BitVec 3) (p : BitVec 3) (e : BitVec 3) (y : BitVec 4)
  | vfredmax (a : BitVec 3) (p : BitVec 3) (e : BitVec 3) (y : BitVec 4)
  | vpopc (a : BitVec 3) (p : BitVec 3) (e : BitVec 3) (y : BitVec 4)
  | vpopcQ (a : BitVec 3) (p : BitVec 3) (e : BitVec 3) (y : BitVec 4)
  | vfirst (a : BitVec 3) (p : BitVec 3) (e : BitVec 3) (y : BitVec 4)
  | vslideup (d : BitVec 3) (a : BitVec 3) (p : BitVec 3) (e : BitVec 3) (f : BitVec 1) (y : BitVec 4)
  | vslidedn (d : BitVec 3) (a : BitVec 3) (p : BitVec 3) (e : BitVec 3) (f : BitVec 1) (y : BitVec 4)
  | vperm (d : BitVec 3) (a : BitVec 3) (b : BitVec 3) (p : BitVec 3) (e : BitVec 3) (x : BitVec 1)
  | vcompress (d : BitVec 3) (a : BitVec 3) (p : BitVec 3) (e : BitVec 3)
  | vshuf (d : BitVec 3) (a : BitVec 3) (p : BitVec 3) (e : BitVec 3) (y : BitVec 4)
  | vbcast (d : BitVec 3) (a : BitVec 3) (p : BitVec 3) (e : BitVec 3) (y : BitVec 4)
  | vcvt (d : BitVec 3) (a : BitVec 3) (p : BitVec 3) (e : BitVec 3) (f : BitVec 5)
  | vpackmx (d : BitVec 3) (a : BitVec 3) (s : BitVec 3) (l : BitVec 3) (e : BitVec 3) (f : BitVec 5)
  | vunpackmx (d : BitVec 3) (a : BitVec 3) (s : BitVec 3) (l : BitVec 3) (f : BitVec 5)
  | vbpisplit (d : BitVec 3) (a : BitVec 3) (s : BitVec 3) (l : BitVec 3) (e : BitVec 3) (f : BitVec 5)
  | vbpijoin (d : BitVec 3) (a : BitVec 3) (s : BitVec 3) (l : BitVec 3) (f : BitVec 5)
  | vld (d : BitVec 3) (p : BitVec 3) (e : BitVec 3) (o : BitVec 1) (x : BitVec 1) (y : BitVec 4) (h : BitVec 2)
  | vst (d : BitVec 3) (p : BitVec 3) (e : BitVec 3) (o : BitVec 1) (x : BitVec 1) (y : BitVec 4) (h : BitVec 2)
  | vldx (d : BitVec 3) (b : BitVec 3) (p : BitVec 3) (e : BitVec 3) (o : BitVec 1) (x : BitVec 1) (y : BitVec 4) (h : BitVec 2)
  | vstx (d : BitVec 3) (b : BitVec 3) (p : BitVec 3) (e : BitVec 3) (o : BitVec 1) (x : BitVec 1) (y : BitVec 4) (h : BitVec 2)
  | vldseg (d : BitVec 3) (n : BitVec 3) (p : BitVec 3) (e : BitVec 3) (o : BitVec 1) (x : BitVec 1) (y : BitVec 4) (h : BitVec 2)
  | vstseg (d : BitVec 3) (n : BitVec 3) (p : BitVec 3) (e : BitVec 3) (o : BitVec 1) (x : BitVec 1) (y : BitVec 4) (h : BitVec 2)
  | vldxPeer (d : BitVec 3) (a : BitVec 3) (b : BitVec 3) (p : BitVec 3) (e : BitVec 3) (o : BitVec 1) (x : BitVec 1) (m : BitVec 3)
  | vstxPeer (d : BitVec 3) (a : BitVec 3) (b : BitVec 3) (p : BitVec 3) (e : BitVec 3) (o : BitVec 1) (x : BitVec 1) (m : BitVec 3)
  | yadd (d : BitVec 4) (a : BitVec 4) (b : BitVec 4)
  | ysub (d : BitVec 4) (a : BitVec 4) (b : BitVec 4)
  | yand (d : BitVec 4) (a : BitVec 4) (b : BitVec 4)
  | yor (d : BitVec 4) (a : BitVec 4) (b : BitVec 4)
  | yxor (d : BitVec 4) (a : BitVec 4) (b : BitVec 4)
  | ysll (d : BitVec 4) (a : BitVec 4) (b : BitVec 4)
  | ysrl (d : BitVec 4) (a : BitVec 4) (b : BitVec 4)
  | ysra (d : BitVec 4) (a : BitVec 4) (b : BitVec 4)
  | ymul (d : BitVec 4) (a : BitVec 4) (b : BitVec 4)
  | vext (d : BitVec 4) (a : BitVec 4) (k : BitVec 3)
  | vins (a : BitVec 4) (b : BitVec 4) (k : BitVec 3)
  | yaddi (d : BitVec 4) (a : BitVec 4) (i : BitVec 14)
  | yaddiExt (d : BitVec 4) (a : BitVec 4) (i : BitVec 40)
  | ymovi (d : BitVec 4) (i : BitVec 14)
  | ymoviExt (d : BitVec 4) (i : BitVec 40)
  | yb (c : BitVec 4) (a : BitVec 4) (b : BitVec 4) (o : BitVec 11)
  | yloop (a : BitVec 4) (o : BitVec 11)
  | tfetch (a : BitVec 4)
  | stop
  | ycsr (d : BitVec 4) (n : BitVec 11)
  | mlds (m : BitVec 2) (a : BitVec 5) (b : BitVec 5) (p : BitVec 1)
  | mstr (m : BitVec 2) (a : BitVec 5) (b : BitVec 5) (c : BitVec 5) (l : BitVec 1) (p : BitVec 1)
  | mzero (m : BitVec 2) (a : BitVec 5)
  | mdrain (m : BitVec 2) (a : BitVec 5) (b : BitVec 5) (c : BitVec 5) (q : BitVec 1) (r : BitVec 1) (u : BitVec 1) (s : BitVec 1)
  | macld (m : BitVec 2) (a : BitVec 5) (b : BitVec 5)
  | macst (m : BitVec 2) (a : BitVec 5) (b : BitVec 5)
  | mtile (m : BitVec 2) (g : BitVec 5)
  | mtileAs (m : BitVec 2) (g : BitVec 5)
  | copy (t : BitVec 3) (a : BitVec 5) (x : BitVec 4)
  | copym (t : BitVec 3) (a : BitVec 5) (b : BitVec 5) (m : BitVec 2) (k : BitVec 1) (p : BitVec 1) (r : BitVec 1) (x : BitVec 4)
  | cancel (t : BitVec 3)
  | wait (t : BitVec 8) (l : BitVec 4) (s : BitVec 4) (r : BitVec 4) (m : BitVec 4)
  | stage (t : BitVec 3) (a : BitVec 5) (b : BitVec 5)
  | consign (t : BitVec 3) (a : BitVec 5)
  | bankTrap (n : Nat)
  | asyncFault (n : Nat)
  | vfBlockStart (g : Nat)
  | setvlEntry (g : Nat)
  | stripCommit (n : Nat)
  | vwrEntry (g : Nat)
  | vrdEntry (g : Nat)
  | rowOpenComplete (g : Nat) (k : Nat)
  | writeBackStart (g : Nat) (k : Nat)
  | writeBackEnd (g : Nat) (k : Nat)
  | prechargeStart (g : Nat) (k : Nat)
  | closingEnd (g : Nat) (k : Nat)
  | slotBusyEnd (g : Nat) (k : Nat)
  | refreshTick (g : Nat) (k : Nat)
  | refreshForcedClose (g : Nat) (k : Nat)
  | openLimit (g : Nat) (k : Nat)
  | foreignRequest (g : Nat) (id : Nat)
  | neighbourRefresh (g : Nat) (k : Nat)
  | permitGrant (tier : Nat)
  | permitArrival (tier : Nat)
  | spineTransferReceive (n : Nat) (src : Nat) (dst : Nat) (ok : Bool) (beat : Nat) (group : Nat)
  | spineRetry (n : Nat)
  | beatPairResend (n : Nat) (beat : Nat) (group : Nat) (fails : Nat) (k : Nat)
  | collectiveStart (n : Nat)
  | loadReturn (id : Nat) (v : Word) (cause : Nat)
  | slicePerform (id : Nat)
  | remoteRequest (agent : Nat) (ctx : Nat) (inn : Nat) (va : Nat) (len : Nat) (kind : Nat) (v : Word)
  | remoteTimeout (id : Nat)
  | orphanResponse (id : Nat)
  | belayMarkerFire (g : Nat)
  | belayCompletion (n : Nat)
  | cairnMarkerFire (g : Nat)
  | cairnPoint (n : Nat)
  | triggerPoint (n : Nat)
  | triggerDependantStart (task : Nat)
  | matrixQueueHandoff (n : Nat)
  | arraySwitchPoint (a : Nat)
  | mtileStep (a : Nat)
  | planeLoadDone (a : Nat)
  | matrixCommandEnd (a : Nat)
  | verdict (a : Nat)
  | allowanceGrant (a : Nat)
  | tileCommit (a : Nat)
  | copyStart (n : Nat)
  | copyBoundary (n : Nat)
  | copyDone (n : Nat)
  | followOnHandover (n : Nat)
  | stageRun
  | stagingFill (ext : Nat) (page : Nat) (ok : Bool)
  | consignmentAccept
  | consignProgramPage (stack : Nat) (ok : Bool)
  | consignVerify (id : Nat) (ok : Bool)
  | consignPublish (id : Nat)
  | extentErase (phys : Nat)
  | installPurseRefill
  | launchRequestArrival
  | admission (reason : Nat) (fr : Nat) (binds : List (List (Word)))
  | bind (i : Nat)
  | quantumEnd (i : Nat)
  | preemption (n : Nat)
  | restore (n : Nat)
  | stripRewind (n : Nat)
  | reclaimWaveArrival (ctx : Nat) (agent : Nat)
  | remoteKillArrival (part : Nat) (ctx : Nat) (inn : Nat)
  | fenceComplete (ctx : Nat)
  | quarantineClear (ctx : Nat) (inn : Nat)
  | budgetStop (task : Nat)
  | purserIntervalEnd (cs : List (Nat × Nat × Nat))
  | stepArrival (a : Nat)
  | rampIntervalEnd
  | thermalThrottle
  | thermalShutdown
  | wfeTimeout (n : Nat)
  | packageReset (imgs : List (List (BitVec 8)))
  | stackReset (st : Nat)
  | hostRead (h0 : Word) (h1 : Word)
  | hostWrite (h0 : Word) (h1 : Word) (data : List (BitVec 8))
  | mailboxLaunch (i : Nat)
  | mailboxKill (i : Nat)
  | mailboxAttest (i : Nat)
  | mailboxReplay (i : Nat)
  | mailboxBadOp (i : Nat)
  | registerWrite (tag : Nat) (off : Nat) (v : Word)
  | illegalInstructionWord (w0 : IWord) (w1 : IWord)
  | contextCreate (ctx : Nat) (ws : List (Word))
  | operatorKillRequest (ctx : Nat) (inn : Nat) (free : Bool)
  | bindRecordWrite (i : Nat) (ws : List (Word))
  | windowEntryWrite (i : Nat) (ws : List (Word))
  | errorLogCopy (g : Nat)
  | ucieLinkTraining (ok : Bool)
  | flitRetry (port : Nat)
  | quarantineAnnouncementArrival (part : Nat) (ctx : Nat) (inn : Nat)
  | operatorSettingChange (which : Nat) (v : Nat)
  deriving DecidableEq, Repr

end Sys2Proof
end

