-- ==== Sys2Proof/WellFormed.lean ====
section
/-! DEFINITION. Which values of an encoded instruction's fields are defined (R48, R54 and the ranges the chapters state). A word
whose fields are not well formed is an illegal instruction. An event carries no encoding and is always well formed. -/
namespace Sys2Proof

/-- `lo ≤ n ≤ hi`. -/
def inRange (n lo hi : Nat) : Bool := decide (lo ≤ n) && decide (n ≤ hi)

/-- The leader CSR numbers of Table 9.2; every other number is reserved (R225). -/
def leaderCsr (n : Nat) : Bool :=
  inRange n 0x000 0x007 || inRange n 0x010 0x014 || inRange n 0x020 0x025 || inRange n 0x030 0x032 ||
  inRange n 0x040 0x045 || inRange n 0x050 0x052 || inRange n 0x060 0x061 || inRange n 0x070 0x070 ||
  inRange n 0x100 0x105 || inRange n 0x110 0x110

/-- The bank CSR numbers of Table 9.5; every other number is reserved (R238). -/
def bankCsr (n : Nat) : Bool := inRange n 0x00 0x08 || inRange n 0x10 0x17 || inRange n 0x20 0x23

/-- An `ef` field that is 000 or names an integer format (R48, R142). -/
def intEf (e : BitVec 3) : Bool := decide (e.toNat < 4)
/-- An `ef` field that is 000 or names a floating-point format. -/
def fpEf (e : BitVec 3) : Bool := decide (e = 0#3) || decide (4 ≤ e.toNat)
/-- An `ef` field that is 000 or names BF16, FP16 or FP32 (R155, R167, R168). -/
def fpSmallEf (e : BitVec 3) : Bool := decide (e = 0#3) || inRange e.toNat 4 6

/-- Every field of the instruction holds a defined value (R54, R55 check 3). -/
def Instr.wf : Instr → Bool
  | .add _ _ _ => true
  | .sub _ _ _ => true
  | .and _ _ _ => true
  | .or _ _ _ => true
  | .xor _ _ _ => true
  | .andn _ _ _ => true
  | .sll _ _ _ => true
  | .srl _ _ _ => true
  | .sra _ _ _ => true
  | .slt _ _ _ => true
  | .sltu _ _ _ => true
  | .min _ _ _ => true
  | .max _ _ _ => true
  | .minu _ _ _ => true
  | .maxu _ _ _ => true
  | .lea _ _ _ _ => true
  | .addi _ _ _ => true
  | .addiExt _ _ _ => true
  | .andi _ _ _ => true
  | .andiExt _ _ _ => true
  | .ori _ _ _ => true
  | .oriExt _ _ _ => true
  | .xori _ _ _ => true
  | .xoriExt _ _ _ => true
  | .slti _ _ _ => true
  | .sltiExt _ _ _ => true
  | .sltiu _ _ _ => true
  | .sltiuExt _ _ _ => true
  | .slli _ _ _ => true
  | .srli _ _ _ => true
  | .srai _ _ _ => true
  | .movhi _ _ => true
  | .movhiExt _ _ => true
  | .mul _ _ _ => true
  | .mulh _ _ _ => true
  | .mulhu _ _ _ => true
  | .div _ _ _ => true
  | .divu _ _ _ => true
  | .rem _ _ _ => true
  | .remu _ _ _ => true
  | .madd _ _ _ => true
  | .clz _ _ => true
  | .ctz _ _ => true
  | .popc _ _ => true
  | .sext _ _ w => decide (w ≠ 3#2)
  | .zext _ _ w => decide (w ≠ 3#2)
  | .bfx _ _ p l => decide (p.toNat + l.toNat + 1 ≤ 64)
  | .bfxu _ _ p l => decide (p.toNat + l.toNat + 1 ≤ 64)
  | .bfi _ _ p l => decide (p.toNat + l.toNat + 1 ≤ 64)
  | .ld _ _ s _ _ => decide (s ≠ 7#3)
  | .ldExt _ _ s _ _ => decide (s ≠ 7#3)
  | .st _ _ s _ _ => decide (s.toNat < 4)
  | .stExt _ _ s _ _ => decide (s.toNat < 4)
  | .lda _ _ _ => true
  | .sta _ _ _ => true
  | .amo _ _ _ z o => decide (o.toNat < 9) || (decide (o = 9#4) && decide (z = 0#1))
  | .cas _ _ _ _ => true
  | .pfl _ h _ => decide (h.toNat < 2)
  | .pflExt _ h _ => decide (h.toNat < 2)
  | .cflush _ _ => true
  | .cflushExt _ _ => true
  | .cdiscard _ _ => true
  | .cdiscardExt _ _ => true
  | .beq _ _ _ => true
  | .beqExt _ _ _ => true
  | .bne _ _ _ => true
  | .bneExt _ _ _ => true
  | .blt _ _ _ => true
  | .bltExt _ _ _ => true
  | .bge _ _ _ => true
  | .bgeExt _ _ _ => true
  | .bltu _ _ _ => true
  | .bltuExt _ _ _ => true
  | .bgeu _ _ _ => true
  | .bgeuExt _ _ _ => true
  | .j _ => true
  | .jExt _ => true
  | .jal _ => true
  | .jalExt _ => true
  | .jalr _ _ _ => true
  | .jalrExt _ _ _ => true
  | .callg _ => true
  | .retg => true
  | .loop _ i => decide (i ≠ 0#16)
  | .leave => true
  | .csrr _ c => leaderCsr c.toNat
  | .csrw _ _ c => leaderCsr c.toNat
  | .csrs _ _ c => leaderCsr c.toNat
  | .csrc _ _ c => leaderCsr c.toNat
  | .syscall _ => true
  | .tret => true
  | .wfe => true
  | .halt => true
  | .bkpt _ => true
  | .reclaim _ _ => true
  | .kill _ _ => true
  | .rgninv _ _ => true
  | .diagst _ _ _ => true
  | .diagld _ _ _ => true
  | .savectx _ _ => true
  | .loadctx _ => true
  | .belay s => decide (s.toNat < 6)
  | .belayRed _ _ s o => decide (s.toNat < 6) && decide (o.toNat < 9)
  | .publish s => decide (s.toNat < 6)
  | .cairn _ _ => true
  | .trigger => true
  | .launch _ _ b => decide (b.toNat < 8)
  | .vf _ => true
  | .setvl _ _ _ _ => true
  | .setvlC _ _ _ _ => true
  | .setvlQ _ _ _ => true
  | .vrd _ _ s => decide (s.toNat < 16) || (decide (128 ≤ s.toNat) && bankCsr (s.toNat - 128))
  | .vwr _ _ s => decide (0 < s.toNat) && decide (s.toNat < 16)
  | .bmask _ _ => true
  | .act _ _ => true
  | .actw _ _ => true
  | .wb _ => true
  | .pre _ => true
  | .pred _ => true
  | .ref _ => true
  | .rowcpy _ _ _ => true
  | .rowfill _ n => decide (n ≠ 15#4)
  | .vadd _ _ _ _ e => intEf e
  | .vaddScalar _ _ _ e _ => intEf e
  | .vsub _ _ _ _ e => intEf e
  | .vsubScalar _ _ _ e _ => intEf e
  | .vmul _ _ _ _ e => intEf e
  | .vmulScalar _ _ _ e _ => intEf e
  | .vmulh _ _ _ _ e => intEf e
  | .vmulhScalar _ _ _ e _ => intEf e
  | .vmulhu _ _ _ _ e => intEf e
  | .vmulhuScalar _ _ _ e _ => intEf e
  | .vmac _ _ _ _ e => intEf e
  | .vmacScalar _ _ _ e _ => intEf e
  | .vand _ _ _ _ _ => true
  | .vandScalar _ _ _ _ _ => true
  | .vor _ _ _ _ _ => true
  | .vorScalar _ _ _ _ _ => true
  | .vxor _ _ _ _ _ => true
  | .vxorScalar _ _ _ _ _ => true
  | .vsll _ _ _ _ e => intEf e
  | .vsllScalar _ _ _ e _ => intEf e
  | .vsrl _ _ _ _ e => intEf e
  | .vsrlScalar _ _ _ e _ => intEf e
  | .vsra _ _ _ _ e => intEf e
  | .vsraScalar _ _ _ e _ => intEf e
  | .vmin _ _ _ _ e => intEf e
  | .vminScalar _ _ _ e _ => intEf e
  | .vmax _ _ _ _ e => intEf e
  | .vmaxScalar _ _ _ e _ => intEf e
  | .vminu _ _ _ _ e => intEf e
  | .vminuScalar _ _ _ e _ => intEf e
  | .vmaxu _ _ _ _ e => intEf e
  | .vmaxuScalar _ _ _ e _ => intEf e
  | .vsplat _ _ _ _ => true
  | .viota _ _ e => intEf e
  | .vsel _ _ _ _ _ => true
  | .vselScalar _ _ _ _ _ => true
  | .vadds _ _ _ _ e => intEf e
  | .vaddsScalar _ _ _ e _ => intEf e
  | .vsubs _ _ _ _ e => intEf e
  | .vsubsScalar _ _ _ e _ => intEf e
  | .vaddsu _ _ _ _ e => intEf e
  | .vaddsuScalar _ _ _ e _ => intEf e
  | .vsubsu _ _ _ _ e => intEf e
  | .vsubsuScalar _ _ _ e _ => intEf e
  | .vwmul _ _ _ _ e => intEf e
  | .vwmulScalar _ _ _ e _ => intEf e
  | .vwmac _ _ _ _ e => intEf e
  | .vwmacScalar _ _ _ e _ => intEf e
  | .vwmacu _ _ _ _ e => intEf e
  | .vwmacuScalar _ _ _ e _ => intEf e
  | .vnclip _ _ _ _ e => intEf e
  | .vnclipScalar _ _ _ e _ => intEf e
  | .vnclipu _ _ _ _ e => intEf e
  | .vnclipuScalar _ _ _ e _ => intEf e
  | .vssra _ _ _ _ e => intEf e
  | .vssraScalar _ _ _ e _ => intEf e
  | .vfadd _ _ _ _ e => fpEf e
  | .vfaddScalar _ _ _ e _ => fpEf e
  | .vfsub _ _ _ _ e => fpEf e
  | .vfsubScalar _ _ _ e _ => fpEf e
  | .vfmul _ _ _ _ e => fpEf e
  | .vfmulScalar _ _ _ e _ => fpEf e
  | .vfma _ _ _ _ e => fpEf e
  | .vfmaScalar _ _ _ e _ => fpEf e
  | .vfmin _ _ _ _ e => fpEf e
  | .vfminScalar _ _ _ e _ => fpEf e
  | .vfmax _ _ _ _ e => fpEf e
  | .vfmaxScalar _ _ _ e _ => fpEf e
  | .vfsgnJ _ _ _ _ e => fpEf e
  | .vfsgnJScalar _ _ _ e _ => fpEf e
  | .vfsgnN _ _ _ _ e => fpEf e
  | .vfsgnNScalar _ _ _ e _ => fpEf e
  | .vfsgnX _ _ _ _ e => fpEf e
  | .vfsgnXScalar _ _ _ e _ => fpEf e
  | .vfexp2 _ _ _ e => fpSmallEf e
  | .vfrece _ _ _ e => fpSmallEf e
  | .vcmp d _ _ _ e c => intEf e && decide (c.toNat < 6) && decide (d ≠ 0#3)
  | .vcmpScalar d _ _ e _ c => intEf e && decide (c.toNat < 6) && decide (d ≠ 0#3)
  | .vfcmp d _ _ _ e c => fpEf e && decide (c.toNat < 7) && decide (d ≠ 0#3)
  | .vfcmpScalar d _ _ e _ c => fpEf e && decide (c.toNat < 7) && decide (d ≠ 0#3)
  | .pand d _ _ _ => decide (d ≠ 0#3)
  | .por d _ _ _ => decide (d ≠ 0#3)
  | .pxor d _ _ _ => decide (d ≠ 0#3)
  | .pandn d _ _ _ => decide (d ≠ 0#3)
  | .vredsum _ _ e _ => intEf e
  | .vredmin _ _ e _ => intEf e
  | .vredmax _ _ e _ => intEf e
  | .vfredsum _ _ e _ => fpEf e
  | .vfredmax _ _ e _ => fpEf e
  | .vpopc _ _ _ _ => true
  | .vpopcQ _ _ _ _ => true
  | .vfirst _ _ _ _ => true
  | .vslideup _ _ _ _ f y => !(decide (f = 1#1) && decide (y = 15#4))
  | .vslidedn _ _ _ _ f y => !(decide (f = 1#1) && decide (y = 15#4))
  | .vperm _ _ _ _ _ _ => true
  | .vcompress _ _ _ _ => true
  | .vshuf _ _ _ _ _ => true
  | .vbcast _ _ _ _ _ => true
  | .vcvt _ _ _ _ f => decide (f.toNat < 12)
  | .vpackmx d _ s _ e f => fpSmallEf e && decide (12 ≤ f.toNat) && decide (f.toNat ≤ 17) && decide (d ≠ s)
  | .vunpackmx _ _ _ _ f => decide (8 ≤ f.toNat) && decide (f.toNat < 12)
  | .vbpisplit d _ s _ e f => fpSmallEf e && decide (19 ≤ f.toNat) && decide (d ≠ s)
  | .vbpijoin _ _ _ _ f => decide (8 ≤ f.toNat) && decide (f.toNat < 12)
  | .vld _ _ _ _ _ _ _ => true
  | .vst _ _ _ _ _ _ _ => true
  | .vldx _ _ _ _ _ _ _ _ => true
  | .vstx _ _ _ _ _ _ _ _ => true
  | .vldseg _ n _ _ _ _ _ _ => decide (n ≠ 0#3)
  | .vstseg _ n _ _ _ _ _ _ => decide (n ≠ 0#3)
  | .vldxPeer _ _ _ _ _ _ _ m => decide (m ≠ 0#3)
  | .vstxPeer _ _ _ _ _ _ _ m => decide (m ≠ 0#3)
  | .yadd _ _ _ => true
  | .ysub _ _ _ => true
  | .yand _ _ _ => true
  | .yor _ _ _ => true
  | .yxor _ _ _ => true
  | .ysll _ _ _ => true
  | .ysrl _ _ _ => true
  | .ysra _ _ _ => true
  | .ymul _ _ _ => true
  | .vext _ _ _ => true
  | .vins _ _ _ => true
  | .yaddi _ _ _ => true
  | .yaddiExt _ _ _ => true
  | .ymovi _ _ => true
  | .ymoviExt _ _ => true
  | .yb c _ _ _ => decide (c.toNat < 6)
  | .yloop _ o => decide (o ≠ 0#11)
  | .tfetch _ => true
  | .stop => true
  | .ycsr _ n => bankCsr n.toNat
  | .mlds _ _ _ _ => true
  | .mstr _ _ _ _ _ _ => true
  | .mzero _ _ => true
  | .mdrain _ _ _ _ _ _ _ _ => true
  | .macld _ _ _ => true
  | .macst _ _ _ => true
  | .mtile _ g => inRange g.toNat 1 26
  | .mtileAs _ g => inRange g.toNat 1 26
  | .copy _ a x => inRange a.toNat 1 26 && decide (x.toNat < 7)
  | .copym _ a b _ k _ r x => inRange a.toNat 1 26 && decide (x.toNat < 7) && (if k = 0#1 then inRange b.toNat 1 29 else inRange b.toNat 1 26 && decide (r = 0#1))
  | .cancel _ => true
  | .wait _ _ _ _ _ => true
  | .stage _ _ _ => true
  | .consign _ a => inRange a.toNat 1 29
  | .bankTrap _ => true
  | .asyncFault _ => true
  | .vfBlockStart _ => true
  | .setvlEntry _ => true
  | .stripCommit _ => true
  | .vwrEntry _ => true
  | .vrdEntry _ => true
  | .rowOpenComplete _ _ => true
  | .writeBackStart _ _ => true
  | .writeBackEnd _ _ => true
  | .prechargeStart _ _ => true
  | .closingEnd _ _ => true
  | .slotBusyEnd _ _ => true
  | .refreshTick _ _ => true
  | .refreshForcedClose _ _ => true
  | .openLimit _ _ => true
  | .foreignRequest _ _ => true
  | .neighbourRefresh _ _ => true
  | .permitGrant _ => true
  | .permitArrival _ => true
  | .spineTransferReceive _ _ _ _ _ _ => true
  | .spineRetry _ => true
  | .beatPairResend _ _ _ _ _ => true
  | .collectiveStart _ => true
  | .loadReturn _ _ _ => true
  | .slicePerform _ => true
  | .remoteRequest _ _ _ _ _ _ _ => true
  | .remoteTimeout _ => true
  | .orphanResponse _ => true
  | .belayMarkerFire _ => true
  | .belayCompletion _ => true
  | .cairnMarkerFire _ => true
  | .cairnPoint _ => true
  | .triggerPoint _ => true
  | .triggerDependantStart _ => true
  | .matrixQueueHandoff _ => true
  | .arraySwitchPoint _ => true
  | .mtileStep _ => true
  | .planeLoadDone _ => true
  | .matrixCommandEnd _ => true
  | .verdict _ => true
  | .allowanceGrant _ => true
  | .tileCommit _ => true
  | .copyStart _ => true
  | .copyBoundary _ => true
  | .copyDone _ => true
  | .followOnHandover _ => true
  | .stageRun => true
  | .stagingFill _ _ _ => true
  | .consignmentAccept => true
  | .consignProgramPage _ _ => true
  | .consignVerify _ _ => true
  | .consignPublish _ => true
  | .extentErase _ => true
  | .installPurseRefill => true
  | .launchRequestArrival => true
  | .admission _ _ _ => true
  | .bind _ => true
  | .quantumEnd _ => true
  | .preemption _ => true
  | .restore _ => true
  | .stripRewind _ => true
  | .reclaimWaveArrival _ _ => true
  | .remoteKillArrival _ _ _ => true
  | .fenceComplete _ => true
  | .quarantineClear _ _ => true
  | .budgetStop _ => true
  | .purserIntervalEnd _ => true
  | .stepArrival _ => true
  | .rampIntervalEnd => true
  | .thermalThrottle => true
  | .thermalShutdown => true
  | .wfeTimeout _ => true
  | .packageReset _ => true
  | .stackReset _ => true
  | .hostRead _ _ => true
  | .hostWrite _ _ _ => true
  | .mailboxLaunch _ => true
  | .mailboxKill _ => true
  | .mailboxAttest _ => true
  | .mailboxReplay _ => true
  | .mailboxBadOp _ => true
  | .registerWrite _ _ _ => true
  | .illegalInstructionWord _ _ => true
  | .contextCreate _ _ => true
  | .operatorKillRequest _ _ _ => true
  | .bindRecordWrite _ _ => true
  | .windowEntryWrite _ _ => true
  | .errorLogCopy _ => true
  | .ucieLinkTraining _ => true
  | .flitRetry _ => true
  | .quarantineAnnouncementArrival _ _ _ => true
  | .operatorSettingChange _ _ => true

/-- The rows that have an encoding; the others are events. -/
def Instr.encoded : Instr → Bool
  | .add _ _ _ => true
  | .sub _ _ _ => true
  | .and _ _ _ => true
  | .or _ _ _ => true
  | .xor _ _ _ => true
  | .andn _ _ _ => true
  | .sll _ _ _ => true
  | .srl _ _ _ => true
  | .sra _ _ _ => true
  | .slt _ _ _ => true
  | .sltu _ _ _ => true
  | .min _ _ _ => true
  | .max _ _ _ => true
  | .minu _ _ _ => true
  | .maxu _ _ _ => true
  | .lea _ _ _ _ => true
  | .addi _ _ _ => true
  | .addiExt _ _ _ => true
  | .andi _ _ _ => true
  | .andiExt _ _ _ => true
  | .ori _ _ _ => true
  | .oriExt _ _ _ => true
  | .xori _ _ _ => true
  | .xoriExt _ _ _ => true
  | .slti _ _ _ => true
  | .sltiExt _ _ _ => true
  | .sltiu _ _ _ => true
  | .sltiuExt _ _ _ => true
  | .slli _ _ _ => true
  | .srli _ _ _ => true
  | .srai _ _ _ => true
  | .movhi _ _ => true
  | .movhiExt _ _ => true
  | .mul _ _ _ => true
  | .mulh _ _ _ => true
  | .mulhu _ _ _ => true
  | .div _ _ _ => true
  | .divu _ _ _ => true
  | .rem _ _ _ => true
  | .remu _ _ _ => true
  | .madd _ _ _ => true
  | .clz _ _ => true
  | .ctz _ _ => true
  | .popc _ _ => true
  | .sext _ _ _ => true
  | .zext _ _ _ => true
  | .bfx _ _ _ _ => true
  | .bfxu _ _ _ _ => true
  | .bfi _ _ _ _ => true
  | .ld _ _ _ _ _ => true
  | .ldExt _ _ _ _ _ => true
  | .st _ _ _ _ _ => true
  | .stExt _ _ _ _ _ => true
  | .lda _ _ _ => true
  | .sta _ _ _ => true
  | .amo _ _ _ _ _ => true
  | .cas _ _ _ _ => true
  | .pfl _ _ _ => true
  | .pflExt _ _ _ => true
  | .cflush _ _ => true
  | .cflushExt _ _ => true
  | .cdiscard _ _ => true
  | .cdiscardExt _ _ => true
  | .beq _ _ _ => true
  | .beqExt _ _ _ => true
  | .bne _ _ _ => true
  | .bneExt _ _ _ => true
  | .blt _ _ _ => true
  | .bltExt _ _ _ => true
  | .bge _ _ _ => true
  | .bgeExt _ _ _ => true
  | .bltu _ _ _ => true
  | .bltuExt _ _ _ => true
  | .bgeu _ _ _ => true
  | .bgeuExt _ _ _ => true
  | .j _ => true
  | .jExt _ => true
  | .jal _ => true
  | .jalExt _ => true
  | .jalr _ _ _ => true
  | .jalrExt _ _ _ => true
  | .callg _ => true
  | .retg => true
  | .loop _ _ => true
  | .leave => true
  | .csrr _ _ => true
  | .csrw _ _ _ => true
  | .csrs _ _ _ => true
  | .csrc _ _ _ => true
  | .syscall _ => true
  | .tret => true
  | .wfe => true
  | .halt => true
  | .bkpt _ => true
  | .reclaim _ _ => true
  | .kill _ _ => true
  | .rgninv _ _ => true
  | .diagst _ _ _ => true
  | .diagld _ _ _ => true
  | .savectx _ _ => true
  | .loadctx _ => true
  | .belay _ => true
  | .belayRed _ _ _ _ => true
  | .publish _ => true
  | .cairn _ _ => true
  | .trigger => true
  | .launch _ _ _ => true
  | .vf _ => true
  | .setvl _ _ _ _ => true
  | .setvlC _ _ _ _ => true
  | .setvlQ _ _ _ => true
  | .vrd _ _ _ => true
  | .vwr _ _ _ => true
  | .bmask _ _ => true
  | .act _ _ => true
  | .actw _ _ => true
  | .wb _ => true
  | .pre _ => true
  | .pred _ => true
  | .ref _ => true
  | .rowcpy _ _ _ => true
  | .rowfill _ _ => true
  | .vadd _ _ _ _ _ => true
  | .vaddScalar _ _ _ _ _ => true
  | .vsub _ _ _ _ _ => true
  | .vsubScalar _ _ _ _ _ => true
  | .vmul _ _ _ _ _ => true
  | .vmulScalar _ _ _ _ _ => true
  | .vmulh _ _ _ _ _ => true
  | .vmulhScalar _ _ _ _ _ => true
  | .vmulhu _ _ _ _ _ => true
  | .vmulhuScalar _ _ _ _ _ => true
  | .vmac _ _ _ _ _ => true
  | .vmacScalar _ _ _ _ _ => true
  | .vand _ _ _ _ _ => true
  | .vandScalar _ _ _ _ _ => true
  | .vor _ _ _ _ _ => true
  | .vorScalar _ _ _ _ _ => true
  | .vxor _ _ _ _ _ => true
  | .vxorScalar _ _ _ _ _ => true
  | .vsll _ _ _ _ _ => true
  | .vsllScalar _ _ _ _ _ => true
  | .vsrl _ _ _ _ _ => true
  | .vsrlScalar _ _ _ _ _ => true
  | .vsra _ _ _ _ _ => true
  | .vsraScalar _ _ _ _ _ => true
  | .vmin _ _ _ _ _ => true
  | .vminScalar _ _ _ _ _ => true
  | .vmax _ _ _ _ _ => true
  | .vmaxScalar _ _ _ _ _ => true
  | .vminu _ _ _ _ _ => true
  | .vminuScalar _ _ _ _ _ => true
  | .vmaxu _ _ _ _ _ => true
  | .vmaxuScalar _ _ _ _ _ => true
  | .vsplat _ _ _ _ => true
  | .viota _ _ _ => true
  | .vsel _ _ _ _ _ => true
  | .vselScalar _ _ _ _ _ => true
  | .vadds _ _ _ _ _ => true
  | .vaddsScalar _ _ _ _ _ => true
  | .vsubs _ _ _ _ _ => true
  | .vsubsScalar _ _ _ _ _ => true
  | .vaddsu _ _ _ _ _ => true
  | .vaddsuScalar _ _ _ _ _ => true
  | .vsubsu _ _ _ _ _ => true
  | .vsubsuScalar _ _ _ _ _ => true
  | .vwmul _ _ _ _ _ => true
  | .vwmulScalar _ _ _ _ _ => true
  | .vwmac _ _ _ _ _ => true
  | .vwmacScalar _ _ _ _ _ => true
  | .vwmacu _ _ _ _ _ => true
  | .vwmacuScalar _ _ _ _ _ => true
  | .vnclip _ _ _ _ _ => true
  | .vnclipScalar _ _ _ _ _ => true
  | .vnclipu _ _ _ _ _ => true
  | .vnclipuScalar _ _ _ _ _ => true
  | .vssra _ _ _ _ _ => true
  | .vssraScalar _ _ _ _ _ => true
  | .vfadd _ _ _ _ _ => true
  | .vfaddScalar _ _ _ _ _ => true
  | .vfsub _ _ _ _ _ => true
  | .vfsubScalar _ _ _ _ _ => true
  | .vfmul _ _ _ _ _ => true
  | .vfmulScalar _ _ _ _ _ => true
  | .vfma _ _ _ _ _ => true
  | .vfmaScalar _ _ _ _ _ => true
  | .vfmin _ _ _ _ _ => true
  | .vfminScalar _ _ _ _ _ => true
  | .vfmax _ _ _ _ _ => true
  | .vfmaxScalar _ _ _ _ _ => true
  | .vfsgnJ _ _ _ _ _ => true
  | .vfsgnJScalar _ _ _ _ _ => true
  | .vfsgnN _ _ _ _ _ => true
  | .vfsgnNScalar _ _ _ _ _ => true
  | .vfsgnX _ _ _ _ _ => true
  | .vfsgnXScalar _ _ _ _ _ => true
  | .vfexp2 _ _ _ _ => true
  | .vfrece _ _ _ _ => true
  | .vcmp _ _ _ _ _ _ => true
  | .vcmpScalar _ _ _ _ _ _ => true
  | .vfcmp _ _ _ _ _ _ => true
  | .vfcmpScalar _ _ _ _ _ _ => true
  | .pand _ _ _ _ => true
  | .por _ _ _ _ => true
  | .pxor _ _ _ _ => true
  | .pandn _ _ _ _ => true
  | .vredsum _ _ _ _ => true
  | .vredmin _ _ _ _ => true
  | .vredmax _ _ _ _ => true
  | .vfredsum _ _ _ _ => true
  | .vfredmax _ _ _ _ => true
  | .vpopc _ _ _ _ => true
  | .vpopcQ _ _ _ _ => true
  | .vfirst _ _ _ _ => true
  | .vslideup _ _ _ _ _ _ => true
  | .vslidedn _ _ _ _ _ _ => true
  | .vperm _ _ _ _ _ _ => true
  | .vcompress _ _ _ _ => true
  | .vshuf _ _ _ _ _ => true
  | .vbcast _ _ _ _ _ => true
  | .vcvt _ _ _ _ _ => true
  | .vpackmx _ _ _ _ _ _ => true
  | .vunpackmx _ _ _ _ _ => true
  | .vbpisplit _ _ _ _ _ _ => true
  | .vbpijoin _ _ _ _ _ => true
  | .vld _ _ _ _ _ _ _ => true
  | .vst _ _ _ _ _ _ _ => true
  | .vldx _ _ _ _ _ _ _ _ => true
  | .vstx _ _ _ _ _ _ _ _ => true
  | .vldseg _ _ _ _ _ _ _ _ => true
  | .vstseg _ _ _ _ _ _ _ _ => true
  | .vldxPeer _ _ _ _ _ _ _ _ => true
  | .vstxPeer _ _ _ _ _ _ _ _ => true
  | .yadd _ _ _ => true
  | .ysub _ _ _ => true
  | .yand _ _ _ => true
  | .yor _ _ _ => true
  | .yxor _ _ _ => true
  | .ysll _ _ _ => true
  | .ysrl _ _ _ => true
  | .ysra _ _ _ => true
  | .ymul _ _ _ => true
  | .vext _ _ _ => true
  | .vins _ _ _ => true
  | .yaddi _ _ _ => true
  | .yaddiExt _ _ _ => true
  | .ymovi _ _ => true
  | .ymoviExt _ _ => true
  | .yb _ _ _ _ => true
  | .yloop _ _ => true
  | .tfetch _ => true
  | .stop => true
  | .ycsr _ _ => true
  | .mlds _ _ _ _ => true
  | .mstr _ _ _ _ _ _ => true
  | .mzero _ _ => true
  | .mdrain _ _ _ _ _ _ _ _ => true
  | .macld _ _ _ => true
  | .macst _ _ _ => true
  | .mtile _ _ => true
  | .mtileAs _ _ => true
  | .copy _ _ _ => true
  | .copym _ _ _ _ _ _ _ _ => true
  | .cancel _ => true
  | .wait _ _ _ _ _ => true
  | .stage _ _ _ => true
  | .consign _ _ => true
  | .bankTrap _ => false
  | .asyncFault _ => false
  | .vfBlockStart _ => false
  | .setvlEntry _ => false
  | .stripCommit _ => false
  | .vwrEntry _ => false
  | .vrdEntry _ => false
  | .rowOpenComplete _ _ => false
  | .writeBackStart _ _ => false
  | .writeBackEnd _ _ => false
  | .prechargeStart _ _ => false
  | .closingEnd _ _ => false
  | .slotBusyEnd _ _ => false
  | .refreshTick _ _ => false
  | .refreshForcedClose _ _ => false
  | .openLimit _ _ => false
  | .foreignRequest _ _ => false
  | .neighbourRefresh _ _ => false
  | .permitGrant _ => false
  | .permitArrival _ => false
  | .spineTransferReceive _ _ _ _ _ _ => false
  | .spineRetry _ => false
  | .beatPairResend _ _ _ _ _ => false
  | .collectiveStart _ => false
  | .loadReturn _ _ _ => false
  | .slicePerform _ => false
  | .remoteRequest _ _ _ _ _ _ _ => false
  | .remoteTimeout _ => false
  | .orphanResponse _ => false
  | .belayMarkerFire _ => false
  | .belayCompletion _ => false
  | .cairnMarkerFire _ => false
  | .cairnPoint _ => false
  | .triggerPoint _ => false
  | .triggerDependantStart _ => false
  | .matrixQueueHandoff _ => false
  | .arraySwitchPoint _ => false
  | .mtileStep _ => false
  | .planeLoadDone _ => false
  | .matrixCommandEnd _ => false
  | .verdict _ => false
  | .allowanceGrant _ => false
  | .tileCommit _ => false
  | .copyStart _ => false
  | .copyBoundary _ => false
  | .copyDone _ => false
  | .followOnHandover _ => false
  | .stageRun => false
  | .stagingFill _ _ _ => false
  | .consignmentAccept => false
  | .consignProgramPage _ _ => false
  | .consignVerify _ _ => false
  | .consignPublish _ => false
  | .extentErase _ => false
  | .installPurseRefill => false
  | .launchRequestArrival => false
  | .admission _ _ _ => false
  | .bind _ => false
  | .quantumEnd _ => false
  | .preemption _ => false
  | .restore _ => false
  | .stripRewind _ => false
  | .reclaimWaveArrival _ _ => false
  | .remoteKillArrival _ _ _ => false
  | .fenceComplete _ => false
  | .quarantineClear _ _ => false
  | .budgetStop _ => false
  | .purserIntervalEnd _ => false
  | .stepArrival _ => false
  | .rampIntervalEnd => false
  | .thermalThrottle => false
  | .thermalShutdown => false
  | .wfeTimeout _ => false
  | .packageReset _ => false
  | .stackReset _ => false
  | .hostRead _ _ => false
  | .hostWrite _ _ _ => false
  | .mailboxLaunch _ => false
  | .mailboxKill _ => false
  | .mailboxAttest _ => false
  | .mailboxReplay _ => false
  | .mailboxBadOp _ => false
  | .registerWrite _ _ _ => false
  | .illegalInstructionWord _ _ => false
  | .contextCreate _ _ => false
  | .operatorKillRequest _ _ _ => false
  | .bindRecordWrite _ _ => false
  | .windowEntryWrite _ _ => false
  | .errorLogCopy _ => false
  | .ucieLinkTraining _ => false
  | .flitRetry _ => false
  | .quarantineAnnouncementArrival _ _ _ => false
  | .operatorSettingChange _ _ => false

end Sys2Proof
end

