-- ==== Sys2Proof/Decode.lean ====
section
/-! DEFINITION. The decoder of the 32-bit words and EXT pairs (R47 to R55, Tables 2.3 to 2.7), total on any bytes and rejecting by
name, and after it the encoder, written from the same tables. One function per major opcode.
Some are marked noncomputable: the runtime gives constructors with fields at most 244 tags and the opcode table has more rows
than that. Lean's kernel evaluates them all. -/
namespace Sys2Proof

/-- Why a word is no instruction (R50, R54). -/
inductive DecodeError where
  /-- A reserved major, the all-zero word among them. -/
  | reservedMajor
  /-- A selector value that Tables 2.5 to 2.7 do not list. -/
  | reservedSelector
  /-- A field that the tables require to hold a set value holds another. -/
  | fixedField
  /-- A register, count or code outside its stated range. -/
  | outOfRange
  /-- An EXT prefix before a word that does not accept one, or before another EXT (R50). -/
  | badPrefix
  /-- The bytes end before the instruction does. -/
  | truncated
  deriving DecidableEq, Repr

/-- The field of `len` bits whose lowest bit is bit `lo` (R1). -/
def fld {n : Nat} (w : BitVec n) (lo len : Nat) : BitVec len := w.extractLsb' lo len

/-- The instruction, if the fixed fields hold what the tables require and every operand field is in range (R54). -/
def chk (c : Prop) [Decidable c] (i : Instr) : Except DecodeError Instr :=
  if c then (if i.wf then .ok i else .error .outOfRange) else .error .fixedField

def dec01 (w : IWord) : Except DecodeError Instr :=
  match (fld w 0 11).toNat with
  | 0 => chk (True) (.add (fld w 21 5) (fld w 16 5) (fld w 11 5))
  | 1 => chk (True) (.sub (fld w 21 5) (fld w 16 5) (fld w 11 5))
  | 2 => chk (True) (.and (fld w 21 5) (fld w 16 5) (fld w 11 5))
  | 3 => chk (True) (.or (fld w 21 5) (fld w 16 5) (fld w 11 5))
  | 4 => chk (True) (.xor (fld w 21 5) (fld w 16 5) (fld w 11 5))
  | 5 => chk (True) (.andn (fld w 21 5) (fld w 16 5) (fld w 11 5))
  | 6 => chk (True) (.sll (fld w 21 5) (fld w 16 5) (fld w 11 5))
  | 7 => chk (True) (.srl (fld w 21 5) (fld w 16 5) (fld w 11 5))
  | 8 => chk (True) (.sra (fld w 21 5) (fld w 16 5) (fld w 11 5))
  | 9 => chk (True) (.slt (fld w 21 5) (fld w 16 5) (fld w 11 5))
  | 10 => chk (True) (.sltu (fld w 21 5) (fld w 16 5) (fld w 11 5))
  | 11 => chk (True) (.min (fld w 21 5) (fld w 16 5) (fld w 11 5))
  | 12 => chk (True) (.max (fld w 21 5) (fld w 16 5) (fld w 11 5))
  | 13 => chk (True) (.minu (fld w 21 5) (fld w 16 5) (fld w 11 5))
  | 14 => chk (True) (.maxu (fld w 21 5) (fld w 16 5) (fld w 11 5))
  | 16 => chk (True) (.lea (fld w 21 5) (fld w 16 5) (fld w 11 5) (fld w 0 2))
  | 17 => chk (True) (.lea (fld w 21 5) (fld w 16 5) (fld w 11 5) (fld w 0 2))
  | 18 => chk (True) (.lea (fld w 21 5) (fld w 16 5) (fld w 11 5) (fld w 0 2))
  | 19 => chk (True) (.lea (fld w 21 5) (fld w 16 5) (fld w 11 5) (fld w 0 2))
  | _ => .error .reservedSelector

def dec02 (w : IWord) : Except DecodeError Instr :=
  chk (True) (.addi (fld w 21 5) (fld w 16 5) (fld w 0 16))

def dec03 (w : IWord) : Except DecodeError Instr :=
  chk (True) (.andi (fld w 21 5) (fld w 16 5) (fld w 0 16))

def dec04 (w : IWord) : Except DecodeError Instr :=
  chk (True) (.ori (fld w 21 5) (fld w 16 5) (fld w 0 16))

def dec05 (w : IWord) : Except DecodeError Instr :=
  chk (True) (.xori (fld w 21 5) (fld w 16 5) (fld w 0 16))

def dec06 (w : IWord) : Except DecodeError Instr :=
  chk (True) (.slti (fld w 21 5) (fld w 16 5) (fld w 0 16))

def dec07 (w : IWord) : Except DecodeError Instr :=
  chk (True) (.sltiu (fld w 21 5) (fld w 16 5) (fld w 0 16))

def dec08 (w : IWord) : Except DecodeError Instr :=
  match (fld w 8 8).toNat with
  | 0 => chk (fld w 6 2 = 0#2) (.slli (fld w 21 5) (fld w 16 5) (fld w 0 6))
  | 1 => chk (fld w 6 2 = 0#2) (.srli (fld w 21 5) (fld w 16 5) (fld w 0 6))
  | 2 => chk (fld w 6 2 = 0#2) (.srai (fld w 21 5) (fld w 16 5) (fld w 0 6))
  | _ => .error .reservedSelector

def dec09 (w : IWord) : Except DecodeError Instr :=
  chk (fld w 16 5 = 0#5) (.movhi (fld w 21 5) (fld w 0 16))

def dec0A (w : IWord) : Except DecodeError Instr :=
  match (fld w 0 11).toNat with
  | 0 => chk (True) (.mul (fld w 21 5) (fld w 16 5) (fld w 11 5))
  | 1 => chk (True) (.mulh (fld w 21 5) (fld w 16 5) (fld w 11 5))
  | 2 => chk (True) (.mulhu (fld w 21 5) (fld w 16 5) (fld w 11 5))
  | 4 => chk (True) (.div (fld w 21 5) (fld w 16 5) (fld w 11 5))
  | 5 => chk (True) (.divu (fld w 21 5) (fld w 16 5) (fld w 11 5))
  | 6 => chk (True) (.rem (fld w 21 5) (fld w 16 5) (fld w 11 5))
  | 7 => chk (True) (.remu (fld w 21 5) (fld w 16 5) (fld w 11 5))
  | 8 => chk (True) (.madd (fld w 21 5) (fld w 16 5) (fld w 11 5))
  | _ => .error .reservedSelector

def dec0B (w : IWord) : Except DecodeError Instr :=
  match (fld w 13 3).toNat with
  | 0 => chk (fld w 0 13 = 0#13) (.clz (fld w 21 5) (fld w 16 5))
  | 1 => chk (fld w 0 13 = 0#13) (.ctz (fld w 21 5) (fld w 16 5))
  | 2 => chk (fld w 0 13 = 0#13) (.popc (fld w 21 5) (fld w 16 5))
  | 3 => chk (fld w 2 11 = 0#11) (.sext (fld w 21 5) (fld w 16 5) (fld w 0 2))
  | 4 => chk (fld w 2 11 = 0#11) (.zext (fld w 21 5) (fld w 16 5) (fld w 0 2))
  | 5 => chk (fld w 12 1 = 0#1) (.bfx (fld w 21 5) (fld w 16 5) (fld w 6 6) (fld w 0 6))
  | 6 => chk (fld w 12 1 = 0#1) (.bfxu (fld w 21 5) (fld w 16 5) (fld w 6 6) (fld w 0 6))
  | 7 => chk (fld w 12 1 = 0#1) (.bfi (fld w 21 5) (fld w 16 5) (fld w 6 6) (fld w 0 6))
  | _ => .error .reservedSelector

def dec0C (w : IWord) : Except DecodeError Instr :=
  chk (True) (.ld (fld w 21 5) (fld w 16 5) (fld w 13 3) (fld w 11 2) (fld w 0 11))

def dec0D (w : IWord) : Except DecodeError Instr :=
  chk (True) (.st (fld w 21 5) (fld w 16 5) (fld w 13 3) (fld w 11 2) (fld w 0 11))

def dec0E (w : IWord) : Except DecodeError Instr :=
  match (fld w 8 3).toNat with
  | 0 => chk (fld w 11 5 = 0#5 ∧ fld w 7 1 = 1#1 ∧ fld w 0 6 = 0#6) (.lda (fld w 21 5) (fld w 16 5) (fld w 6 1))
  | 1 => chk (fld w 21 5 = 0#5 ∧ fld w 7 1 = 1#1 ∧ fld w 0 6 = 0#6) (.sta (fld w 16 5) (fld w 11 5) (fld w 6 1))
  | 2 => chk (fld w 7 1 = 1#1 ∧ fld w 0 2 = 0#2) (.amo (fld w 21 5) (fld w 16 5) (fld w 11 5) (fld w 6 1) (fld w 2 4))
  | 3 => chk (fld w 7 1 = 1#1 ∧ fld w 0 6 = 0#6) (.cas (fld w 21 5) (fld w 16 5) (fld w 11 5) (fld w 6 1))
  | _ => .error .reservedSelector

def dec0F (w : IWord) : Except DecodeError Instr :=
  match (fld w 21 5).toNat with
  | 0 => chk (fld w 13 3 = 0#3) (.pfl (fld w 16 5) (fld w 11 2) (fld w 0 11))
  | 1 => chk (fld w 11 5 = 0#5) (.cflush (fld w 16 5) (fld w 0 11))
  | 2 => chk (fld w 11 5 = 0#5) (.cdiscard (fld w 16 5) (fld w 0 11))
  | _ => .error .reservedSelector

def dec10 (w : IWord) : Except DecodeError Instr :=
  chk (True) (.beq (fld w 21 5) (fld w 16 5) (fld w 0 16))

def dec11 (w : IWord) : Except DecodeError Instr :=
  chk (True) (.bne (fld w 21 5) (fld w 16 5) (fld w 0 16))

def dec12 (w : IWord) : Except DecodeError Instr :=
  chk (True) (.blt (fld w 21 5) (fld w 16 5) (fld w 0 16))

def dec13 (w : IWord) : Except DecodeError Instr :=
  chk (True) (.bge (fld w 21 5) (fld w 16 5) (fld w 0 16))

def dec14 (w : IWord) : Except DecodeError Instr :=
  chk (True) (.bltu (fld w 21 5) (fld w 16 5) (fld w 0 16))

def dec15 (w : IWord) : Except DecodeError Instr :=
  chk (True) (.bgeu (fld w 21 5) (fld w 16 5) (fld w 0 16))

def dec16 (w : IWord) : Except DecodeError Instr :=
  chk (True) (.j (fld w 0 26))

def dec17 (w : IWord) : Except DecodeError Instr :=
  chk (True) (.jal (fld w 0 26))

def dec18 (w : IWord) : Except DecodeError Instr :=
  match (fld w 14 2).toNat with
  | 0 => chk (True) (.jalr (fld w 21 5) (fld w 16 5) (fld w 0 14))
  | 1 => chk (fld w 16 10 = 0#10 ∧ fld w 8 6 = 0#6) (.callg (fld w 0 8))
  | 2 => chk (fld w 16 10 = 0#10 ∧ fld w 0 14 = 0#14) .retg
  | _ => .error .reservedSelector

def dec19 (w : IWord) : Except DecodeError Instr :=
  match (fld w 21 5).toNat with
  | 0 => chk (True) (.loop (fld w 16 5) (fld w 0 16))
  | 1 => chk (fld w 0 21 = 0#21) .leave
  | _ => .error .reservedSelector

def dec1A (w : IWord) : Except DecodeError Instr :=
  match (fld w 12 4).toNat with
  | 0 => chk (fld w 16 5 = 0#5) (.csrr (fld w 21 5) (fld w 0 12))
  | 1 => chk (True) (.csrw (fld w 21 5) (fld w 16 5) (fld w 0 12))
  | 2 => chk (True) (.csrs (fld w 21 5) (fld w 16 5) (fld w 0 12))
  | 3 => chk (True) (.csrc (fld w 21 5) (fld w 16 5) (fld w 0 12))
  | 8 => chk (fld w 16 10 = 0#10) (.syscall (fld w 0 12))
  | 9 => chk (fld w 16 10 = 0#10 ∧ fld w 0 12 = 0#12) .tret
  | 10 => chk (fld w 16 10 = 0#10 ∧ fld w 0 12 = 0#12) .wfe
  | 11 => chk (fld w 16 10 = 0#10 ∧ fld w 0 12 = 0#12) .halt
  | 12 => chk (fld w 16 10 = 0#10) (.bkpt (fld w 0 12))
  | _ => .error .reservedSelector

def dec1B (w : IWord) : Except DecodeError Instr :=
  match (fld w 12 4).toNat with
  | 0 => chk (fld w 0 12 = 0#12) (.reclaim (fld w 21 5) (fld w 16 5))
  | 1 => chk (fld w 0 12 = 0#12) (.kill (fld w 21 5) (fld w 16 5))
  | 2 => chk (fld w 0 12 = 0#12) (.rgninv (fld w 21 5) (fld w 16 5))
  | 3 => chk (fld w 8 4 = 0#4) (.diagst (fld w 21 5) (fld w 16 5) (fld w 0 8))
  | 4 => chk (fld w 1 11 = 0#11) (.diagld (fld w 21 5) (fld w 16 5) (fld w 0 1))
  | 5 => chk (fld w 0 12 = 0#12) (.savectx (fld w 21 5) (fld w 16 5))
  | 6 => chk (fld w 21 5 = 0#5 ∧ fld w 0 12 = 0#12) (.loadctx (fld w 16 5))
  | _ => .error .reservedSelector

def dec1C (w : IWord) : Except DecodeError Instr :=
  match (fld w 8 3).toNat with
  | 0 => chk (fld w 11 15 = 0#15 ∧ fld w 0 5 = 0#5) (.belay (fld w 5 3))
  | 1 => chk (fld w 11 5 = 0#5) (.belayRed (fld w 21 5) (fld w 16 5) (fld w 5 3) (fld w 0 5))
  | 2 => chk (fld w 11 15 = 0#15 ∧ fld w 0 5 = 0#5) (.publish (fld w 5 3))
  | 3 => chk (fld w 21 5 = 0#5 ∧ fld w 0 8 = 0#8) (.cairn (fld w 16 5) (fld w 11 5))
  | 4 => chk (fld w 11 15 = 0#15 ∧ fld w 0 8 = 0#8) .trigger
  | 5 => chk (fld w 0 8 = 0#8) (.launch (fld w 21 5) (fld w 16 5) (fld w 11 5))
  | _ => .error .reservedSelector

def dec1D (w : IWord) : Except DecodeError Instr :=
  match (fld w 8 3).toNat with
  | 0 => chk (fld w 21 5 = 0#5 ∧ fld w 11 5 = 0#5 ∧ fld w 0 8 = 0#8) (.vf (fld w 16 5))
  | 1 => chk (True) (.setvl (fld w 21 5) (fld w 16 5) (fld w 11 5) (fld w 0 8))
  | 2 => chk (True) (.setvlC (fld w 21 5) (fld w 16 5) (fld w 11 5) (fld w 0 8))
  | 3 => chk (fld w 21 5 = 0#5) (.setvlQ (fld w 16 5) (fld w 11 5) (fld w 0 8))
  | 4 => chk (fld w 11 5 = 0#5) (.vrd (fld w 21 5) (fld w 16 5) (fld w 0 8))
  | 5 => chk (fld w 21 5 = 0#5) (.vwr (fld w 16 5) (fld w 11 5) (fld w 0 8))
  | 6 => chk (fld w 11 5 = 0#5 ∧ fld w 0 8 = 0#8) (.bmask (fld w 21 5) (fld w 16 5))
  | _ => .error .reservedSelector

def dec20 (w : IWord) : Except DecodeError Instr :=
  match (fld w 7 4).toNat with
  | 0 => chk (fld w 11 12 = 0#12 ∧ fld w 0 3 = 0#3) (.act (fld w 23 3) (fld w 3 4))
  | 1 => chk (fld w 11 12 = 0#12 ∧ fld w 0 3 = 0#3) (.actw (fld w 23 3) (fld w 3 4))
  | 2 => chk (fld w 11 12 = 0#12 ∧ fld w 0 7 = 0#7) (.wb (fld w 23 3))
  | 3 => chk (fld w 11 12 = 0#12 ∧ fld w 0 7 = 0#7) (.pre (fld w 23 3))
  | 4 => chk (fld w 11 12 = 0#12 ∧ fld w 0 7 = 0#7) (.pred (fld w 23 3))
  | 5 => chk (fld w 11 12 = 0#12 ∧ fld w 0 7 = 0#7) (.ref (fld w 23 3))
  | 6 => chk (fld w 11 9 = 0#9 ∧ fld w 0 3 = 0#3) (.rowcpy (fld w 23 3) (fld w 20 3) (fld w 3 4))
  | 7 => chk (fld w 11 12 = 0#12 ∧ fld w 0 3 = 0#3) (.rowfill (fld w 23 3) (fld w 3 4))
  | _ => .error .reservedSelector

def dec21 (w : IWord) : Except DecodeError Instr :=
  match (fld w 0 6).toNat with
  | 0 =>
    if fld w 10 1 = 0#1 then chk (fld w 6 4 = 0#4) (.vadd (fld w 23 3) (fld w 20 3) (fld w 17 3) (fld w 14 3) (fld w 11 3))
    else chk (fld w 17 3 = 0#3) (.vaddScalar (fld w 23 3) (fld w 20 3) (fld w 14 3) (fld w 11 3) (fld w 6 4))
  | 1 =>
    if fld w 10 1 = 0#1 then chk (fld w 6 4 = 0#4) (.vsub (fld w 23 3) (fld w 20 3) (fld w 17 3) (fld w 14 3) (fld w 11 3))
    else chk (fld w 17 3 = 0#3) (.vsubScalar (fld w 23 3) (fld w 20 3) (fld w 14 3) (fld w 11 3) (fld w 6 4))
  | 2 =>
    if fld w 10 1 = 0#1 then chk (fld w 6 4 = 0#4) (.vmul (fld w 23 3) (fld w 20 3) (fld w 17 3) (fld w 14 3) (fld w 11 3))
    else chk (fld w 17 3 = 0#3) (.vmulScalar (fld w 23 3) (fld w 20 3) (fld w 14 3) (fld w 11 3) (fld w 6 4))
  | 3 =>
    if fld w 10 1 = 0#1 then chk (fld w 6 4 = 0#4) (.vmulh (fld w 23 3) (fld w 20 3) (fld w 17 3) (fld w 14 3) (fld w 11 3))
    else chk (fld w 17 3 = 0#3) (.vmulhScalar (fld w 23 3) (fld w 20 3) (fld w 14 3) (fld w 11 3) (fld w 6 4))
  | 4 =>
    if fld w 10 1 = 0#1 then chk (fld w 6 4 = 0#4) (.vmulhu (fld w 23 3) (fld w 20 3) (fld w 17 3) (fld w 14 3) (fld w 11 3))
    else chk (fld w 17 3 = 0#3) (.vmulhuScalar (fld w 23 3) (fld w 20 3) (fld w 14 3) (fld w 11 3) (fld w 6 4))
  | 5 =>
    if fld w 10 1 = 0#1 then chk (fld w 6 4 = 0#4) (.vmac (fld w 23 3) (fld w 20 3) (fld w 17 3) (fld w 14 3) (fld w 11 3))
    else chk (fld w 17 3 = 0#3) (.vmacScalar (fld w 23 3) (fld w 20 3) (fld w 14 3) (fld w 11 3) (fld w 6 4))
  | 6 =>
    if fld w 10 1 = 0#1 then chk (fld w 6 4 = 0#4) (.vand (fld w 23 3) (fld w 20 3) (fld w 17 3) (fld w 14 3) (fld w 11 3))
    else chk (fld w 17 3 = 0#3) (.vandScalar (fld w 23 3) (fld w 20 3) (fld w 14 3) (fld w 11 3) (fld w 6 4))
  | 7 =>
    if fld w 10 1 = 0#1 then chk (fld w 6 4 = 0#4) (.vor (fld w 23 3) (fld w 20 3) (fld w 17 3) (fld w 14 3) (fld w 11 3))
    else chk (fld w 17 3 = 0#3) (.vorScalar (fld w 23 3) (fld w 20 3) (fld w 14 3) (fld w 11 3) (fld w 6 4))
  | 8 =>
    if fld w 10 1 = 0#1 then chk (fld w 6 4 = 0#4) (.vxor (fld w 23 3) (fld w 20 3) (fld w 17 3) (fld w 14 3) (fld w 11 3))
    else chk (fld w 17 3 = 0#3) (.vxorScalar (fld w 23 3) (fld w 20 3) (fld w 14 3) (fld w 11 3) (fld w 6 4))
  | 9 =>
    if fld w 10 1 = 0#1 then chk (fld w 6 4 = 0#4) (.vsll (fld w 23 3) (fld w 20 3) (fld w 17 3) (fld w 14 3) (fld w 11 3))
    else chk (fld w 17 3 = 0#3) (.vsllScalar (fld w 23 3) (fld w 20 3) (fld w 14 3) (fld w 11 3) (fld w 6 4))
  | 10 =>
    if fld w 10 1 = 0#1 then chk (fld w 6 4 = 0#4) (.vsrl (fld w 23 3) (fld w 20 3) (fld w 17 3) (fld w 14 3) (fld w 11 3))
    else chk (fld w 17 3 = 0#3) (.vsrlScalar (fld w 23 3) (fld w 20 3) (fld w 14 3) (fld w 11 3) (fld w 6 4))
  | 11 =>
    if fld w 10 1 = 0#1 then chk (fld w 6 4 = 0#4) (.vsra (fld w 23 3) (fld w 20 3) (fld w 17 3) (fld w 14 3) (fld w 11 3))
    else chk (fld w 17 3 = 0#3) (.vsraScalar (fld w 23 3) (fld w 20 3) (fld w 14 3) (fld w 11 3) (fld w 6 4))
  | 12 =>
    if fld w 10 1 = 0#1 then chk (fld w 6 4 = 0#4) (.vmin (fld w 23 3) (fld w 20 3) (fld w 17 3) (fld w 14 3) (fld w 11 3))
    else chk (fld w 17 3 = 0#3) (.vminScalar (fld w 23 3) (fld w 20 3) (fld w 14 3) (fld w 11 3) (fld w 6 4))
  | 13 =>
    if fld w 10 1 = 0#1 then chk (fld w 6 4 = 0#4) (.vmax (fld w 23 3) (fld w 20 3) (fld w 17 3) (fld w 14 3) (fld w 11 3))
    else chk (fld w 17 3 = 0#3) (.vmaxScalar (fld w 23 3) (fld w 20 3) (fld w 14 3) (fld w 11 3) (fld w 6 4))
  | 14 =>
    if fld w 10 1 = 0#1 then chk (fld w 6 4 = 0#4) (.vminu (fld w 23 3) (fld w 20 3) (fld w 17 3) (fld w 14 3) (fld w 11 3))
    else chk (fld w 17 3 = 0#3) (.vminuScalar (fld w 23 3) (fld w 20 3) (fld w 14 3) (fld w 11 3) (fld w 6 4))
  | 15 =>
    if fld w 10 1 = 0#1 then chk (fld w 6 4 = 0#4) (.vmaxu (fld w 23 3) (fld w 20 3) (fld w 17 3) (fld w 14 3) (fld w 11 3))
    else chk (fld w 17 3 = 0#3) (.vmaxuScalar (fld w 23 3) (fld w 20 3) (fld w 14 3) (fld w 11 3) (fld w 6 4))
  | 16 => chk (fld w 17 6 = 0#6 ∧ fld w 10 1 = 1#1) (.vsplat (fld w 23 3) (fld w 14 3) (fld w 11 3) (fld w 6 4))
  | 17 => chk (fld w 17 6 = 0#6 ∧ fld w 6 5 = 0#5) (.viota (fld w 23 3) (fld w 14 3) (fld w 11 3))
  | 18 =>
    if fld w 10 1 = 0#1 then chk (fld w 6 4 = 0#4) (.vsel (fld w 23 3) (fld w 20 3) (fld w 17 3) (fld w 14 3) (fld w 11 3))
    else chk (fld w 17 3 = 0#3) (.vselScalar (fld w 23 3) (fld w 20 3) (fld w 14 3) (fld w 11 3) (fld w 6 4))
  | _ => .error .reservedSelector

def dec22 (w : IWord) : Except DecodeError Instr :=
  match (fld w 0 6).toNat with
  | 0 =>
    if fld w 10 1 = 0#1 then chk (fld w 6 4 = 0#4) (.vadds (fld w 23 3) (fld w 20 3) (fld w 17 3) (fld w 14 3) (fld w 11 3))
    else chk (fld w 17 3 = 0#3) (.vaddsScalar (fld w 23 3) (fld w 20 3) (fld w 14 3) (fld w 11 3) (fld w 6 4))
  | 1 =>
    if fld w 10 1 = 0#1 then chk (fld w 6 4 = 0#4) (.vsubs (fld w 23 3) (fld w 20 3) (fld w 17 3) (fld w 14 3) (fld w 11 3))
    else chk (fld w 17 3 = 0#3) (.vsubsScalar (fld w 23 3) (fld w 20 3) (fld w 14 3) (fld w 11 3) (fld w 6 4))
  | 2 =>
    if fld w 10 1 = 0#1 then chk (fld w 6 4 = 0#4) (.vaddsu (fld w 23 3) (fld w 20 3) (fld w 17 3) (fld w 14 3) (fld w 11 3))
    else chk (fld w 17 3 = 0#3) (.vaddsuScalar (fld w 23 3) (fld w 20 3) (fld w 14 3) (fld w 11 3) (fld w 6 4))
  | 3 =>
    if fld w 10 1 = 0#1 then chk (fld w 6 4 = 0#4) (.vsubsu (fld w 23 3) (fld w 20 3) (fld w 17 3) (fld w 14 3) (fld w 11 3))
    else chk (fld w 17 3 = 0#3) (.vsubsuScalar (fld w 23 3) (fld w 20 3) (fld w 14 3) (fld w 11 3) (fld w 6 4))
  | 4 =>
    if fld w 10 1 = 0#1 then chk (fld w 6 4 = 0#4) (.vwmul (fld w 23 3) (fld w 20 3) (fld w 17 3) (fld w 14 3) (fld w 11 3))
    else chk (fld w 17 3 = 0#3) (.vwmulScalar (fld w 23 3) (fld w 20 3) (fld w 14 3) (fld w 11 3) (fld w 6 4))
  | 5 =>
    if fld w 10 1 = 0#1 then chk (fld w 6 4 = 0#4) (.vwmac (fld w 23 3) (fld w 20 3) (fld w 17 3) (fld w 14 3) (fld w 11 3))
    else chk (fld w 17 3 = 0#3) (.vwmacScalar (fld w 23 3) (fld w 20 3) (fld w 14 3) (fld w 11 3) (fld w 6 4))
  | 6 =>
    if fld w 10 1 = 0#1 then chk (fld w 6 4 = 0#4) (.vwmacu (fld w 23 3) (fld w 20 3) (fld w 17 3) (fld w 14 3) (fld w 11 3))
    else chk (fld w 17 3 = 0#3) (.vwmacuScalar (fld w 23 3) (fld w 20 3) (fld w 14 3) (fld w 11 3) (fld w 6 4))
  | 7 =>
    if fld w 10 1 = 0#1 then chk (fld w 6 4 = 0#4) (.vnclip (fld w 23 3) (fld w 20 3) (fld w 17 3) (fld w 14 3) (fld w 11 3))
    else chk (fld w 17 3 = 0#3) (.vnclipScalar (fld w 23 3) (fld w 20 3) (fld w 14 3) (fld w 11 3) (fld w 6 4))
  | 8 =>
    if fld w 10 1 = 0#1 then chk (fld w 6 4 = 0#4) (.vnclipu (fld w 23 3) (fld w 20 3) (fld w 17 3) (fld w 14 3) (fld w 11 3))
    else chk (fld w 17 3 = 0#3) (.vnclipuScalar (fld w 23 3) (fld w 20 3) (fld w 14 3) (fld w 11 3) (fld w 6 4))
  | 9 =>
    if fld w 10 1 = 0#1 then chk (fld w 6 4 = 0#4) (.vssra (fld w 23 3) (fld w 20 3) (fld w 17 3) (fld w 14 3) (fld w 11 3))
    else chk (fld w 17 3 = 0#3) (.vssraScalar (fld w 23 3) (fld w 20 3) (fld w 14 3) (fld w 11 3) (fld w 6 4))
  | _ => .error .reservedSelector

def dec23 (w : IWord) : Except DecodeError Instr :=
  match (fld w 0 6).toNat with
  | 0 =>
    if fld w 10 1 = 0#1 then chk (fld w 6 4 = 0#4) (.vfadd (fld w 23 3) (fld w 20 3) (fld w 17 3) (fld w 14 3) (fld w 11 3))
    else chk (fld w 17 3 = 0#3) (.vfaddScalar (fld w 23 3) (fld w 20 3) (fld w 14 3) (fld w 11 3) (fld w 6 4))
  | 1 =>
    if fld w 10 1 = 0#1 then chk (fld w 6 4 = 0#4) (.vfsub (fld w 23 3) (fld w 20 3) (fld w 17 3) (fld w 14 3) (fld w 11 3))
    else chk (fld w 17 3 = 0#3) (.vfsubScalar (fld w 23 3) (fld w 20 3) (fld w 14 3) (fld w 11 3) (fld w 6 4))
  | 2 =>
    if fld w 10 1 = 0#1 then chk (fld w 6 4 = 0#4) (.vfmul (fld w 23 3) (fld w 20 3) (fld w 17 3) (fld w 14 3) (fld w 11 3))
    else chk (fld w 17 3 = 0#3) (.vfmulScalar (fld w 23 3) (fld w 20 3) (fld w 14 3) (fld w 11 3) (fld w 6 4))
  | 3 =>
    if fld w 10 1 = 0#1 then chk (fld w 6 4 = 0#4) (.vfma (fld w 23 3) (fld w 20 3) (fld w 17 3) (fld w 14 3) (fld w 11 3))
    else chk (fld w 17 3 = 0#3) (.vfmaScalar (fld w 23 3) (fld w 20 3) (fld w 14 3) (fld w 11 3) (fld w 6 4))
  | 4 =>
    if fld w 10 1 = 0#1 then chk (fld w 6 4 = 0#4) (.vfmin (fld w 23 3) (fld w 20 3) (fld w 17 3) (fld w 14 3) (fld w 11 3))
    else chk (fld w 17 3 = 0#3) (.vfminScalar (fld w 23 3) (fld w 20 3) (fld w 14 3) (fld w 11 3) (fld w 6 4))
  | 5 =>
    if fld w 10 1 = 0#1 then chk (fld w 6 4 = 0#4) (.vfmax (fld w 23 3) (fld w 20 3) (fld w 17 3) (fld w 14 3) (fld w 11 3))
    else chk (fld w 17 3 = 0#3) (.vfmaxScalar (fld w 23 3) (fld w 20 3) (fld w 14 3) (fld w 11 3) (fld w 6 4))
  | 6 =>
    if fld w 10 1 = 0#1 then chk (fld w 6 4 = 0#4) (.vfsgnJ (fld w 23 3) (fld w 20 3) (fld w 17 3) (fld w 14 3) (fld w 11 3))
    else chk (fld w 17 3 = 0#3) (.vfsgnJScalar (fld w 23 3) (fld w 20 3) (fld w 14 3) (fld w 11 3) (fld w 6 4))
  | 7 =>
    if fld w 10 1 = 0#1 then chk (fld w 6 4 = 0#4) (.vfsgnN (fld w 23 3) (fld w 20 3) (fld w 17 3) (fld w 14 3) (fld w 11 3))
    else chk (fld w 17 3 = 0#3) (.vfsgnNScalar (fld w 23 3) (fld w 20 3) (fld w 14 3) (fld w 11 3) (fld w 6 4))
  | 8 =>
    if fld w 10 1 = 0#1 then chk (fld w 6 4 = 0#4) (.vfsgnX (fld w 23 3) (fld w 20 3) (fld w 17 3) (fld w 14 3) (fld w 11 3))
    else chk (fld w 17 3 = 0#3) (.vfsgnXScalar (fld w 23 3) (fld w 20 3) (fld w 14 3) (fld w 11 3) (fld w 6 4))
  | 9 => chk (fld w 17 3 = 0#3 ∧ fld w 6 5 = 0#5) (.vfexp2 (fld w 23 3) (fld w 20 3) (fld w 14 3) (fld w 11 3))
  | 10 => chk (fld w 17 3 = 0#3 ∧ fld w 6 5 = 0#5) (.vfrece (fld w 23 3) (fld w 20 3) (fld w 14 3) (fld w 11 3))
  | _ => .error .reservedSelector

def dec24 (w : IWord) : Except DecodeError Instr :=
  match (fld w 0 3).toNat with
  | 0 =>
    if fld w 10 1 = 0#1 then chk (fld w 6 4 = 0#4) (.vcmp (fld w 23 3) (fld w 20 3) (fld w 17 3) (fld w 14 3) (fld w 11 3) (fld w 3 3))
    else chk (fld w 17 3 = 0#3) (.vcmpScalar (fld w 23 3) (fld w 20 3) (fld w 14 3) (fld w 11 3) (fld w 6 4) (fld w 3 3))
  | 1 =>
    if fld w 10 1 = 0#1 then chk (fld w 6 4 = 0#4) (.vfcmp (fld w 23 3) (fld w 20 3) (fld w 17 3) (fld w 14 3) (fld w 11 3) (fld w 3 3))
    else chk (fld w 17 3 = 0#3) (.vfcmpScalar (fld w 23 3) (fld w 20 3) (fld w 14 3) (fld w 11 3) (fld w 6 4) (fld w 3 3))
  | 4 => chk (fld w 3 11 = 0#11) (.pand (fld w 23 3) (fld w 20 3) (fld w 17 3) (fld w 14 3))
  | 5 => chk (fld w 3 11 = 0#11) (.por (fld w 23 3) (fld w 20 3) (fld w 17 3) (fld w 14 3))
  | 6 => chk (fld w 3 11 = 0#11) (.pxor (fld w 23 3) (fld w 20 3) (fld w 17 3) (fld w 14 3))
  | 7 => chk (fld w 3 11 = 0#11) (.pandn (fld w 23 3) (fld w 20 3) (fld w 17 3) (fld w 14 3))
  | _ => .error .reservedSelector

def dec25 (w : IWord) : Except DecodeError Instr :=
  match (fld w 0 6).toNat with
  | 0 => chk (fld w 23 3 = 0#3 ∧ fld w 17 3 = 0#3 ∧ fld w 10 1 = 0#1) (.vredsum (fld w 20 3) (fld w 14 3) (fld w 11 3) (fld w 6 4))
  | 1 => chk (fld w 23 3 = 0#3 ∧ fld w 17 3 = 0#3 ∧ fld w 10 1 = 0#1) (.vredmin (fld w 20 3) (fld w 14 3) (fld w 11 3) (fld w 6 4))
  | 2 => chk (fld w 23 3 = 0#3 ∧ fld w 17 3 = 0#3 ∧ fld w 10 1 = 0#1) (.vredmax (fld w 20 3) (fld w 14 3) (fld w 11 3) (fld w 6 4))
  | 3 => chk (fld w 23 3 = 0#3 ∧ fld w 17 3 = 0#3 ∧ fld w 10 1 = 0#1) (.vfredsum (fld w 20 3) (fld w 14 3) (fld w 11 3) (fld w 6 4))
  | 4 => chk (fld w 23 3 = 0#3 ∧ fld w 17 3 = 0#3 ∧ fld w 10 1 = 0#1) (.vfredmax (fld w 20 3) (fld w 14 3) (fld w 11 3) (fld w 6 4))
  | 5 =>
    if fld w 10 1 = 0#1 then chk (fld w 23 3 = 0#3 ∧ fld w 17 3 = 0#3) (.vpopc (fld w 20 3) (fld w 14 3) (fld w 11 3) (fld w 6 4))
    else chk (fld w 23 3 = 0#3 ∧ fld w 17 3 = 0#3) (.vpopcQ (fld w 20 3) (fld w 14 3) (fld w 11 3) (fld w 6 4))
  | 6 => chk (fld w 23 3 = 0#3 ∧ fld w 17 3 = 0#3 ∧ fld w 10 1 = 0#1) (.vfirst (fld w 20 3) (fld w 14 3) (fld w 11 3) (fld w 6 4))
  | _ => .error .reservedSelector

def dec26 (w : IWord) : Except DecodeError Instr :=
  match (fld w 0 6).toNat with
  | 0 => chk (fld w 17 3 = 0#3) (.vslideup (fld w 23 3) (fld w 20 3) (fld w 14 3) (fld w 11 3) (fld w 10 1) (fld w 6 4))
  | 1 => chk (fld w 17 3 = 0#3) (.vslidedn (fld w 23 3) (fld w 20 3) (fld w 14 3) (fld w 11 3) (fld w 10 1) (fld w 6 4))
  | 2 => chk (fld w 7 4 = 0#4) (.vperm (fld w 23 3) (fld w 20 3) (fld w 17 3) (fld w 14 3) (fld w 11 3) (fld w 6 1))
  | 3 => chk (fld w 17 3 = 0#3 ∧ fld w 6 5 = 0#5) (.vcompress (fld w 23 3) (fld w 20 3) (fld w 14 3) (fld w 11 3))
  | 4 => chk (fld w 17 3 = 0#3 ∧ fld w 10 1 = 0#1) (.vshuf (fld w 23 3) (fld w 20 3) (fld w 14 3) (fld w 11 3) (fld w 6 4))
  | 5 => chk (fld w 17 3 = 0#3 ∧ fld w 10 1 = 0#1) (.vbcast (fld w 23 3) (fld w 20 3) (fld w 14 3) (fld w 11 3) (fld w 6 4))
  | _ => .error .reservedSelector

def dec27 (w : IWord) : Except DecodeError Instr :=
  match (fld w 0 6).toNat with
  | 0 => chk (fld w 17 3 = 0#3) (.vcvt (fld w 23 3) (fld w 20 3) (fld w 14 3) (fld w 11 3) (fld w 6 5))
  | 1 => chk (True) (.vpackmx (fld w 23 3) (fld w 20 3) (fld w 17 3) (fld w 14 3) (fld w 11 3) (fld w 6 5))
  | 2 => chk (fld w 11 3 = 0#3) (.vunpackmx (fld w 23 3) (fld w 20 3) (fld w 17 3) (fld w 14 3) (fld w 6 5))
  | 3 => chk (True) (.vbpisplit (fld w 23 3) (fld w 20 3) (fld w 17 3) (fld w 14 3) (fld w 11 3) (fld w 6 5))
  | 4 => chk (fld w 11 3 = 0#3) (.vbpijoin (fld w 23 3) (fld w 20 3) (fld w 17 3) (fld w 14 3) (fld w 6 5))
  | _ => .error .reservedSelector

def dec28 (w : IWord) : Except DecodeError Instr :=
  match (fld w 0 3).toNat with
  | 0 => chk (fld w 17 6 = 0#6) (.vld (fld w 23 3) (fld w 14 3) (fld w 11 3) (fld w 10 1) (fld w 9 1) (fld w 5 4) (fld w 3 2))
  | 1 => chk (fld w 17 6 = 0#6) (.vst (fld w 23 3) (fld w 14 3) (fld w 11 3) (fld w 10 1) (fld w 9 1) (fld w 5 4) (fld w 3 2))
  | 2 => chk (fld w 20 3 = 0#3) (.vldx (fld w 23 3) (fld w 17 3) (fld w 14 3) (fld w 11 3) (fld w 10 1) (fld w 9 1) (fld w 5 4) (fld w 3 2))
  | 3 => chk (fld w 20 3 = 0#3) (.vstx (fld w 23 3) (fld w 17 3) (fld w 14 3) (fld w 11 3) (fld w 10 1) (fld w 9 1) (fld w 5 4) (fld w 3 2))
  | 4 => chk (fld w 20 3 = 0#3) (.vldseg (fld w 23 3) (fld w 17 3) (fld w 14 3) (fld w 11 3) (fld w 10 1) (fld w 9 1) (fld w 5 4) (fld w 3 2))
  | 5 => chk (fld w 20 3 = 0#3) (.vstseg (fld w 23 3) (fld w 17 3) (fld w 14 3) (fld w 11 3) (fld w 10 1) (fld w 9 1) (fld w 5 4) (fld w 3 2))
  | 6 => chk (fld w 8 1 = 0#1 ∧ fld w 3 2 = 0#2) (.vldxPeer (fld w 23 3) (fld w 20 3) (fld w 17 3) (fld w 14 3) (fld w 11 3) (fld w 10 1) (fld w 9 1) (fld w 5 3))
  | 7 => chk (fld w 8 1 = 0#1 ∧ fld w 3 2 = 0#2) (.vstxPeer (fld w 23 3) (fld w 20 3) (fld w 17 3) (fld w 14 3) (fld w 11 3) (fld w 10 1) (fld w 9 1) (fld w 5 3))
  | _ => .error .reservedSelector

def dec29 (w : IWord) : Except DecodeError Instr :=
  match (fld w 0 11).toNat with
  | 0 => chk (fld w 11 3 = 0#3) (.yadd (fld w 22 4) (fld w 18 4) (fld w 14 4))
  | 1 => chk (fld w 11 3 = 0#3) (.ysub (fld w 22 4) (fld w 18 4) (fld w 14 4))
  | 2 => chk (fld w 11 3 = 0#3) (.yand (fld w 22 4) (fld w 18 4) (fld w 14 4))
  | 3 => chk (fld w 11 3 = 0#3) (.yor (fld w 22 4) (fld w 18 4) (fld w 14 4))
  | 4 => chk (fld w 11 3 = 0#3) (.yxor (fld w 22 4) (fld w 18 4) (fld w 14 4))
  | 5 => chk (fld w 11 3 = 0#3) (.ysll (fld w 22 4) (fld w 18 4) (fld w 14 4))
  | 6 => chk (fld w 11 3 = 0#3) (.ysrl (fld w 22 4) (fld w 18 4) (fld w 14 4))
  | 7 => chk (fld w 11 3 = 0#3) (.ysra (fld w 22 4) (fld w 18 4) (fld w 14 4))
  | 8 => chk (fld w 11 3 = 0#3) (.ymul (fld w 22 4) (fld w 18 4) (fld w 14 4))
  | 16 => chk (fld w 14 4 = 0#4) (.vext (fld w 22 4) (fld w 18 4) (fld w 11 3))
  | 17 => chk (fld w 22 4 = 0#4) (.vins (fld w 18 4) (fld w 14 4) (fld w 11 3))
  | _ => .error .reservedSelector

noncomputable def dec2A (w : IWord) : Except DecodeError Instr :=
  match (fld w 14 4).toNat with
  | 0 => chk (True) (.yaddi (fld w 22 4) (fld w 18 4) (fld w 0 14))
  | 1 => chk (fld w 18 4 = 0#4) (.ymovi (fld w 22 4) (fld w 0 14))
  | _ => .error .reservedSelector

noncomputable def dec2B (w : IWord) : Except DecodeError Instr :=
  match (fld w 11 3).toNat with
  | 0 => chk (True) (.yb (fld w 22 4) (fld w 18 4) (fld w 14 4) (fld w 0 11))
  | 1 => chk (fld w 22 4 = 0#4 ∧ fld w 14 4 = 0#4) (.yloop (fld w 18 4) (fld w 0 11))
  | 2 => chk (fld w 22 4 = 0#4 ∧ fld w 14 4 = 0#4 ∧ fld w 0 11 = 0#11) (.tfetch (fld w 18 4))
  | 3 => chk (fld w 14 12 = 0#12 ∧ fld w 0 11 = 0#11) .stop
  | 4 => chk (fld w 14 8 = 0#8) (.ycsr (fld w 22 4) (fld w 0 11))
  | _ => .error .reservedSelector

noncomputable def dec30 (w : IWord) : Except DecodeError Instr :=
  match (fld w 0 3).toNat with
  | 0 => chk (fld w 4 10 = 0#10) (.mlds (fld w 24 2) (fld w 19 5) (fld w 14 5) (fld w 3 1))
  | 1 => chk (fld w 5 4 = 0#4) (.mstr (fld w 24 2) (fld w 19 5) (fld w 14 5) (fld w 9 5) (fld w 4 1) (fld w 3 1))
  | 2 => chk (fld w 3 16 = 0#16) (.mzero (fld w 24 2) (fld w 19 5))
  | 3 => chk (fld w 7 2 = 0#2) (.mdrain (fld w 24 2) (fld w 19 5) (fld w 14 5) (fld w 9 5) (fld w 6 1) (fld w 5 1) (fld w 4 1) (fld w 3 1))
  | 4 => chk (fld w 3 11 = 0#11) (.macld (fld w 24 2) (fld w 19 5) (fld w 14 5))
  | 5 => chk (fld w 3 11 = 0#11) (.macst (fld w 24 2) (fld w 19 5) (fld w 14 5))
  | _ => .error .reservedSelector

noncomputable def dec31 (w : IWord) : Except DecodeError Instr :=
  match (fld w 0 1).toNat with
  | 0 => chk (fld w 1 18 = 0#18) (.mtile (fld w 24 2) (fld w 19 5))
  | 1 => chk (fld w 1 18 = 0#18) (.mtileAs (fld w 24 2) (fld w 19 5))
  | _ => .error .reservedSelector

noncomputable def dec32 (w : IWord) : Except DecodeError Instr :=
  match (fld w 0 3).toNat with
  | 0 => chk (fld w 7 11 = 0#11) (.copy (fld w 23 3) (fld w 18 5) (fld w 3 4))
  | 1 => chk (fld w 7 1 = 0#1) (.copym (fld w 23 3) (fld w 18 5) (fld w 13 5) (fld w 11 2) (fld w 10 1) (fld w 9 1) (fld w 8 1) (fld w 3 4))
  | 2 => chk (fld w 3 20 = 0#20) (.cancel (fld w 23 3))
  | _ => .error .reservedSelector

noncomputable def dec33 (w : IWord) : Except DecodeError Instr :=
  chk (fld w 0 2 = 0#2) (.wait (fld w 18 8) (fld w 14 4) (fld w 10 4) (fld w 6 4) (fld w 2 4))

noncomputable def dec34 (w : IWord) : Except DecodeError Instr :=
  match (fld w 0 1).toNat with
  | 0 => chk (fld w 1 12 = 0#12) (.stage (fld w 23 3) (fld w 18 5) (fld w 13 5))
  | 1 => chk (fld w 1 17 = 0#17) (.consign (fld w 23 3) (fld w 18 5))
  | _ => .error .reservedSelector

/-- The instruction a single word stands for, whatever its stream (Tables 2.5 to 2.7). The prefix itself (major 0x3F) is no
instruction of its own. -/
noncomputable def decodeWord (w : IWord) : Except DecodeError Instr :=
  match (fld w 26 6).toNat with
  | 0x01 => dec01 w
  | 0x02 => dec02 w
  | 0x03 => dec03 w
  | 0x04 => dec04 w
  | 0x05 => dec05 w
  | 0x06 => dec06 w
  | 0x07 => dec07 w
  | 0x08 => dec08 w
  | 0x09 => dec09 w
  | 0x0A => dec0A w
  | 0x0B => dec0B w
  | 0x0C => dec0C w
  | 0x0D => dec0D w
  | 0x0E => dec0E w
  | 0x0F => dec0F w
  | 0x10 => dec10 w
  | 0x11 => dec11 w
  | 0x12 => dec12 w
  | 0x13 => dec13 w
  | 0x14 => dec14 w
  | 0x15 => dec15 w
  | 0x16 => dec16 w
  | 0x17 => dec17 w
  | 0x18 => dec18 w
  | 0x19 => dec19 w
  | 0x1A => dec1A w
  | 0x1B => dec1B w
  | 0x1C => dec1C w
  | 0x1D => dec1D w
  | 0x20 => dec20 w
  | 0x21 => dec21 w
  | 0x22 => dec22 w
  | 0x23 => dec23 w
  | 0x24 => dec24 w
  | 0x25 => dec25 w
  | 0x26 => dec26 w
  | 0x27 => dec27 w
  | 0x28 => dec28 w
  | 0x29 => dec29 w
  | 0x2A => dec2A w
  | 0x2B => dec2B w
  | 0x30 => dec30 w
  | 0x31 => dec31 w
  | 0x32 => dec32 w
  | 0x33 => dec33 w
  | 0x34 => dec34 w
  | _ => .error .reservedMajor

/-- The instruction behind an EXT prefix whose bits [25:0] are `e`: the combined immediate is `e ‖ f` (R49). Only the rows of
Table 2.4 have one. -/
noncomputable def widen (e : BitVec 26) (i : Instr) : Option Instr :=
  match i with
  | .addi d a i => some (.addiExt d a (e ++ i))
  | .andi d a i => some (.andiExt d a (e ++ i))
  | .ori d a i => some (.oriExt d a (e ++ i))
  | .xori d a i => some (.xoriExt d a (e ++ i))
  | .slti d a i => some (.sltiExt d a (e ++ i))
  | .sltiu d a i => some (.sltiuExt d a (e ++ i))
  | .movhi d i => some (.movhiExt d (e ++ i))
  | .ld d a s h o => some (.ldExt d a s h (e ++ o))
  | .st d a s h o => some (.stExt d a s h (e ++ o))
  | .pfl a h o => some (.pflExt a h (e ++ o))
  | .cflush a o => some (.cflushExt a (e ++ o))
  | .cdiscard a o => some (.cdiscardExt a (e ++ o))
  | .beq a b o => some (.beqExt a b (e ++ o))
  | .bne a b o => some (.bneExt a b (e ++ o))
  | .blt a b o => some (.bltExt a b (e ++ o))
  | .bge a b o => some (.bgeExt a b (e ++ o))
  | .bltu a b o => some (.bltuExt a b (e ++ o))
  | .bgeu a b o => some (.bgeuExt a b (e ++ o))
  | .j o => some (.jExt (e ++ o))
  | .jal o => some (.jalExt (e ++ o))
  | .jalr d a o => some (.jalrExt d a (e ++ o))
  | .yaddi d a i => some (.yaddiExt d a (e ++ i))
  | .ymovi d i => some (.ymoviExt d (e ++ i))
  | _ => none

/-- The instruction at the head of a stream of words, and the words after it (R49, R50). -/
noncomputable def decode (ws : List IWord) : Except DecodeError (Instr × List IWord) :=
  match ws with
  | [] => .error .truncated
  | w :: rest =>
    if fld w 26 6 = 0x3F#6 then
      match rest with
      | [] => .error .badPrefix
      | w1 :: rest1 =>
        if fld w1 26 6 = 0x3F#6 then .error .badPrefix
        else match decodeWord w1 with
          | .error e => .error e
          | .ok b => match widen (fld w 0 26) b with
            | none => .error .badPrefix
            | some i => .ok (i, rest1)
    else match decodeWord w with
      | .error e => .error e
      | .ok i => .ok (i, rest)

/-- The words that bytes in address order hold, little-endian (R1, R47). Bytes short of a word are no word. -/
def wordsOfBytes : List (BitVec 8) → List IWord
  | b0 :: b1 :: b2 :: b3 :: rest => (b3 ++ b2 ++ b1 ++ b0) :: wordsOfBytes rest
  | _ => []

/-- The decoder on bytes in address order. -/
noncomputable def decodeBytes (bs : List (BitVec 8)) : Except DecodeError (Instr × List IWord) := decode (wordsOfBytes bs)

/-- The four bytes of a word in address order. -/
def bytesOfWord (w : IWord) : List (BitVec 8) := [fld w 0 8, fld w 8 8, fld w 16 8, fld w 24 8]

/-- The instruction read from an instruction whose bits are `w`, numbered as the opcode table numbers them: the first word is
bits 31:0, the second bits 63:32, every bit above `nbits` zero. -/
noncomputable def decodeTableWord (nbits w : Nat) : Option Instr :=
  let v := w % 2 ^ (min nbits 64)
  match decodeBytes (bytesOfWord (BitVec.ofNat 32 v) ++ bytesOfWord (BitVec.ofNat 32 (v / 2 ^ 32))) with
  | .ok (i, _) => some i
  | .error _ => none

/-- A word from its concatenated fields, highest first. -/
def word {n : Nat} (x : BitVec n) : IWord := x.setWidth 32

/-! The words of the rows at the end of Table 2.6 and of Table 2.7, one function each. -/
def encYor (d : BitVec 4) (a : BitVec 4) (b : BitVec 4) : List IWord := [word (0x29#6 ++ d ++ a ++ b ++ 0x3#14)]
def encYxor (d : BitVec 4) (a : BitVec 4) (b : BitVec 4) : List IWord := [word (0x29#6 ++ d ++ a ++ b ++ 0x4#14)]
def encYsll (d : BitVec 4) (a : BitVec 4) (b : BitVec 4) : List IWord := [word (0x29#6 ++ d ++ a ++ b ++ 0x5#14)]
def encYsrl (d : BitVec 4) (a : BitVec 4) (b : BitVec 4) : List IWord := [word (0x29#6 ++ d ++ a ++ b ++ 0x6#14)]
def encYsra (d : BitVec 4) (a : BitVec 4) (b : BitVec 4) : List IWord := [word (0x29#6 ++ d ++ a ++ b ++ 0x7#14)]
def encYmul (d : BitVec 4) (a : BitVec 4) (b : BitVec 4) : List IWord := [word (0x29#6 ++ d ++ a ++ b ++ 0x8#14)]
def encVext (d : BitVec 4) (a : BitVec 4) (k : BitVec 3) : List IWord := [word (0x29#6 ++ d ++ a ++ 0x0#4 ++ k ++ 0x10#11)]
def encVins (a : BitVec 4) (b : BitVec 4) (k : BitVec 3) : List IWord := [word (0x29#6 ++ 0x0#4 ++ a ++ b ++ k ++ 0x11#11)]
def encYaddi (d : BitVec 4) (a : BitVec 4) (i : BitVec 14) : List IWord := [word (0x2A#6 ++ d ++ a ++ 0x0#4 ++ i)]
def encYaddiExt (d : BitVec 4) (a : BitVec 4) (i : BitVec 40) : List IWord := [word (0x3F#6 ++ fld i 14 26), word (0x2A#6 ++ d ++ a ++ 0x0#4 ++ fld i 0 14)]
def encYmovi (d : BitVec 4) (i : BitVec 14) : List IWord := [word (0x2A#6 ++ d ++ 0x1#8 ++ i)]
def encYmoviExt (d : BitVec 4) (i : BitVec 40) : List IWord := [word (0x3F#6 ++ fld i 14 26), word (0x2A#6 ++ d ++ 0x1#8 ++ fld i 0 14)]
def encYb (c : BitVec 4) (a : BitVec 4) (b : BitVec 4) (o : BitVec 11) : List IWord := [word (0x2B#6 ++ c ++ a ++ b ++ 0x0#3 ++ o)]
def encYloop (a : BitVec 4) (o : BitVec 11) : List IWord := [word (0x2B#6 ++ 0x0#4 ++ a ++ 0x1#7 ++ o)]
def encTfetch (a : BitVec 4) : List IWord := [word (0x2B#6 ++ 0x0#4 ++ a ++ 0x1000#18)]
def encYcsr (d : BitVec 4) (n : BitVec 11) : List IWord := [word (0x2B#6 ++ d ++ 0x4#11 ++ n)]
def encMlds (m : BitVec 2) (a : BitVec 5) (b : BitVec 5) (p : BitVec 1) : List IWord := [word (0x30#6 ++ m ++ a ++ b ++ 0x0#10 ++ p ++ 0x0#3)]
def encMstr (m : BitVec 2) (a : BitVec 5) (b : BitVec 5) (c : BitVec 5) (l : BitVec 1) (p : BitVec 1) : List IWord := [word (0x30#6 ++ m ++ a ++ b ++ c ++ 0x0#4 ++ l ++ p ++ 0x1#3)]
def encMzero (m : BitVec 2) (a : BitVec 5) : List IWord := [word (0x30#6 ++ m ++ a ++ 0x2#19)]
def encMdrain (m : BitVec 2) (a : BitVec 5) (b : BitVec 5) (c : BitVec 5) (q : BitVec 1) (r : BitVec 1) (u : BitVec 1) (s : BitVec 1) : List IWord := [word (0x30#6 ++ m ++ a ++ b ++ c ++ 0x0#2 ++ q ++ r ++ u ++ s ++ 0x3#3)]
def encMacld (m : BitVec 2) (a : BitVec 5) (b : BitVec 5) : List IWord := [word (0x30#6 ++ m ++ a ++ b ++ 0x4#14)]
def encMacst (m : BitVec 2) (a : BitVec 5) (b : BitVec 5) : List IWord := [word (0x30#6 ++ m ++ a ++ b ++ 0x5#14)]
def encMtile (m : BitVec 2) (g : BitVec 5) : List IWord := [word (0x31#6 ++ m ++ g ++ 0x0#19)]
def encMtileAs (m : BitVec 2) (g : BitVec 5) : List IWord := [word (0x31#6 ++ m ++ g ++ 0x1#19)]
def encCopy (t : BitVec 3) (a : BitVec 5) (x : BitVec 4) : List IWord := [word (0x32#6 ++ t ++ a ++ 0x0#11 ++ x ++ 0x0#3)]
def encCopym (t : BitVec 3) (a : BitVec 5) (b : BitVec 5) (m : BitVec 2) (k : BitVec 1) (p : BitVec 1) (r : BitVec 1) (x : BitVec 4) : List IWord := [word (0x32#6 ++ t ++ a ++ b ++ m ++ k ++ p ++ r ++ 0x0#1 ++ x ++ 0x1#3)]
def encCancel (t : BitVec 3) : List IWord := [word (0x32#6 ++ t ++ 0x2#23)]
def encWait (t : BitVec 8) (l : BitVec 4) (s : BitVec 4) (r : BitVec 4) (m : BitVec 4) : List IWord := [word (0x33#6 ++ t ++ l ++ s ++ r ++ m ++ 0x0#2)]
def encStage (t : BitVec 3) (a : BitVec 5) (b : BitVec 5) : List IWord := [word (0x34#6 ++ t ++ a ++ b ++ 0x0#13)]
def encConsign (t : BitVec 3) (a : BitVec 5) : List IWord := [word (0x34#6 ++ t ++ a ++ 0x1#18)]

/-- The words of an instruction, in fetch order (Tables 2.3 to 2.7). An event has none. -/
def encode : Instr → List IWord
  | .add d a b => [word (0x01#6 ++ d ++ a ++ b ++ 0x0#11)]
  | .sub d a b => [word (0x01#6 ++ d ++ a ++ b ++ 0x1#11)]
  | .and d a b => [word (0x01#6 ++ d ++ a ++ b ++ 0x2#11)]
  | .or d a b => [word (0x01#6 ++ d ++ a ++ b ++ 0x3#11)]
  | .xor d a b => [word (0x01#6 ++ d ++ a ++ b ++ 0x4#11)]
  | .andn d a b => [word (0x01#6 ++ d ++ a ++ b ++ 0x5#11)]
  | .sll d a b => [word (0x01#6 ++ d ++ a ++ b ++ 0x6#11)]
  | .srl d a b => [word (0x01#6 ++ d ++ a ++ b ++ 0x7#11)]
  | .sra d a b => [word (0x01#6 ++ d ++ a ++ b ++ 0x8#11)]
  | .slt d a b => [word (0x01#6 ++ d ++ a ++ b ++ 0x9#11)]
  | .sltu d a b => [word (0x01#6 ++ d ++ a ++ b ++ 0xA#11)]
  | .min d a b => [word (0x01#6 ++ d ++ a ++ b ++ 0xB#11)]
  | .max d a b => [word (0x01#6 ++ d ++ a ++ b ++ 0xC#11)]
  | .minu d a b => [word (0x01#6 ++ d ++ a ++ b ++ 0xD#11)]
  | .maxu d a b => [word (0x01#6 ++ d ++ a ++ b ++ 0xE#11)]
  | .lea d a b s => [word (0x01#6 ++ d ++ a ++ b ++ 0x4#9 ++ s)]
  | .addi d a i => [word (0x02#6 ++ d ++ a ++ i)]
  | .addiExt d a i => [word (0x3F#6 ++ fld i 16 26), word (0x02#6 ++ d ++ a ++ fld i 0 16)]
  | .andi d a i => [word (0x03#6 ++ d ++ a ++ i)]
  | .andiExt d a i => [word (0x3F#6 ++ fld i 16 26), word (0x03#6 ++ d ++ a ++ fld i 0 16)]
  | .ori d a i => [word (0x04#6 ++ d ++ a ++ i)]
  | .oriExt d a i => [word (0x3F#6 ++ fld i 16 26), word (0x04#6 ++ d ++ a ++ fld i 0 16)]
  | .xori d a i => [word (0x05#6 ++ d ++ a ++ i)]
  | .xoriExt d a i => [word (0x3F#6 ++ fld i 16 26), word (0x05#6 ++ d ++ a ++ fld i 0 16)]
  | .slti d a i => [word (0x06#6 ++ d ++ a ++ i)]
  | .sltiExt d a i => [word (0x3F#6 ++ fld i 16 26), word (0x06#6 ++ d ++ a ++ fld i 0 16)]
  | .sltiu d a i => [word (0x07#6 ++ d ++ a ++ i)]
  | .sltiuExt d a i => [word (0x3F#6 ++ fld i 16 26), word (0x07#6 ++ d ++ a ++ fld i 0 16)]
  | .slli d a s => [word (0x08#6 ++ d ++ a ++ 0x0#10 ++ s)]
  | .srli d a s => [word (0x08#6 ++ d ++ a ++ 0x4#10 ++ s)]
  | .srai d a s => [word (0x08#6 ++ d ++ a ++ 0x8#10 ++ s)]
  | .movhi d i => [word (0x09#6 ++ d ++ 0x0#5 ++ i)]
  | .movhiExt d i => [word (0x3F#6 ++ fld i 16 26), word (0x09#6 ++ d ++ 0x0#5 ++ fld i 0 16)]
  | .mul d a b => [word (0x0A#6 ++ d ++ a ++ b ++ 0x0#11)]
  | .mulh d a b => [word (0x0A#6 ++ d ++ a ++ b ++ 0x1#11)]
  | .mulhu d a b => [word (0x0A#6 ++ d ++ a ++ b ++ 0x2#11)]
  | .div d a b => [word (0x0A#6 ++ d ++ a ++ b ++ 0x4#11)]
  | .divu d a b => [word (0x0A#6 ++ d ++ a ++ b ++ 0x5#11)]
  | .rem d a b => [word (0x0A#6 ++ d ++ a ++ b ++ 0x6#11)]
  | .remu d a b => [word (0x0A#6 ++ d ++ a ++ b ++ 0x7#11)]
  | .madd d a b => [word (0x0A#6 ++ d ++ a ++ b ++ 0x8#11)]
  | .clz d a => [word (0x0B#6 ++ d ++ a ++ 0x0#16)]
  | .ctz d a => [word (0x0B#6 ++ d ++ a ++ 0x2000#16)]
  | .popc d a => [word (0x0B#6 ++ d ++ a ++ 0x4000#16)]
  | .sext d a w => [word (0x0B#6 ++ d ++ a ++ 0x1800#14 ++ w)]
  | .zext d a w => [word (0x0B#6 ++ d ++ a ++ 0x2000#14 ++ w)]
  | .bfx d a p l => [word (0x0B#6 ++ d ++ a ++ 0xA#4 ++ p ++ l)]
  | .bfxu d a p l => [word (0x0B#6 ++ d ++ a ++ 0xC#4 ++ p ++ l)]
  | .bfi d a p l => [word (0x0B#6 ++ d ++ a ++ 0xE#4 ++ p ++ l)]
  | .ld d a s h o => [word (0x0C#6 ++ d ++ a ++ s ++ h ++ o)]
  | .ldExt d a s h o => [word (0x3F#6 ++ fld o 11 26), word (0x0C#6 ++ d ++ a ++ s ++ h ++ fld o 0 11)]
  | .st d a s h o => [word (0x0D#6 ++ d ++ a ++ s ++ h ++ o)]
  | .stExt d a s h o => [word (0x3F#6 ++ fld o 11 26), word (0x0D#6 ++ d ++ a ++ s ++ h ++ fld o 0 11)]
  | .lda d a z => [word (0x0E#6 ++ d ++ a ++ 0x1#9 ++ z ++ 0x0#6)]
  | .sta a b z => [word (0x0E#6 ++ 0x0#5 ++ a ++ b ++ 0x3#4 ++ z ++ 0x0#6)]
  | .amo d a b z o => [word (0x0E#6 ++ d ++ a ++ b ++ 0x5#4 ++ z ++ o ++ 0x0#2)]
  | .cas d a b z => [word (0x0E#6 ++ d ++ a ++ b ++ 0x7#4 ++ z ++ 0x0#6)]
  | .pfl a h o => [word (0x0F#6 ++ 0x0#5 ++ a ++ 0x0#3 ++ h ++ o)]
  | .pflExt a h o => [word (0x3F#6 ++ fld o 11 26), word (0x0F#6 ++ 0x0#5 ++ a ++ 0x0#3 ++ h ++ fld o 0 11)]
  | .cflush a o => [word (0x0F#6 ++ 0x1#5 ++ a ++ 0x0#5 ++ o)]
  | .cflushExt a o => [word (0x3F#6 ++ fld o 11 26), word (0x0F#6 ++ 0x1#5 ++ a ++ 0x0#5 ++ fld o 0 11)]
  | .cdiscard a o => [word (0x0F#6 ++ 0x2#5 ++ a ++ 0x0#5 ++ o)]
  | .cdiscardExt a o => [word (0x3F#6 ++ fld o 11 26), word (0x0F#6 ++ 0x2#5 ++ a ++ 0x0#5 ++ fld o 0 11)]
  | .beq a b o => [word (0x10#6 ++ a ++ b ++ o)]
  | .beqExt a b o => [word (0x3F#6 ++ fld o 16 26), word (0x10#6 ++ a ++ b ++ fld o 0 16)]
  | .bne a b o => [word (0x11#6 ++ a ++ b ++ o)]
  | .bneExt a b o => [word (0x3F#6 ++ fld o 16 26), word (0x11#6 ++ a ++ b ++ fld o 0 16)]
  | .blt a b o => [word (0x12#6 ++ a ++ b ++ o)]
  | .bltExt a b o => [word (0x3F#6 ++ fld o 16 26), word (0x12#6 ++ a ++ b ++ fld o 0 16)]
  | .bge a b o => [word (0x13#6 ++ a ++ b ++ o)]
  | .bgeExt a b o => [word (0x3F#6 ++ fld o 16 26), word (0x13#6 ++ a ++ b ++ fld o 0 16)]
  | .bltu a b o => [word (0x14#6 ++ a ++ b ++ o)]
  | .bltuExt a b o => [word (0x3F#6 ++ fld o 16 26), word (0x14#6 ++ a ++ b ++ fld o 0 16)]
  | .bgeu a b o => [word (0x15#6 ++ a ++ b ++ o)]
  | .bgeuExt a b o => [word (0x3F#6 ++ fld o 16 26), word (0x15#6 ++ a ++ b ++ fld o 0 16)]
  | .j o => [word (0x16#6 ++ o)]
  | .jExt o => [word (0x3F#6 ++ fld o 26 26), word (0x16#6 ++ fld o 0 26)]
  | .jal o => [word (0x17#6 ++ o)]
  | .jalExt o => [word (0x3F#6 ++ fld o 26 26), word (0x17#6 ++ fld o 0 26)]
  | .jalr d a o => [word (0x18#6 ++ d ++ a ++ 0x0#2 ++ o)]
  | .jalrExt d a o => [word (0x3F#6 ++ fld o 14 26), word (0x18#6 ++ d ++ a ++ 0x0#2 ++ fld o 0 14)]
  | .callg n => [word (0x18#6 ++ 0x40#18 ++ n)]
  | .retg => [word (0x18#6 ++ 0x8000#26)]
  | .loop a i => [word (0x19#6 ++ 0x0#5 ++ a ++ i)]
  | .leave => [word (0x19#6 ++ 0x200000#26)]
  | .csrr d c => [word (0x1A#6 ++ d ++ 0x0#9 ++ c)]
  | .csrw d a c => [word (0x1A#6 ++ d ++ a ++ 0x1#4 ++ c)]
  | .csrs d a c => [word (0x1A#6 ++ d ++ a ++ 0x2#4 ++ c)]
  | .csrc d a c => [word (0x1A#6 ++ d ++ a ++ 0x3#4 ++ c)]
  | .syscall c => [word (0x1A#6 ++ 0x8#14 ++ c)]
  | .tret => [word (0x1A#6 ++ 0x9000#26)]
  | .wfe => [word (0x1A#6 ++ 0xA000#26)]
  | .halt => [word (0x1A#6 ++ 0xB000#26)]
  | .bkpt c => [word (0x1A#6 ++ 0xC#14 ++ c)]
  | .reclaim d a => [word (0x1B#6 ++ d ++ a ++ 0x0#16)]
  | .kill d a => [word (0x1B#6 ++ d ++ a ++ 0x1000#16)]
  | .rgninv d a => [word (0x1B#6 ++ d ++ a ++ 0x2000#16)]
  | .diagst d a c => [word (0x1B#6 ++ d ++ a ++ 0x30#8 ++ c)]
  | .diagld d a c => [word (0x1B#6 ++ d ++ a ++ 0x2000#15 ++ c)]
  | .savectx d a => [word (0x1B#6 ++ d ++ a ++ 0x5000#16)]
  | .loadctx a => [word (0x1B#6 ++ 0x0#5 ++ a ++ 0x6000#16)]
  | .belay s => [word (0x1C#6 ++ 0x0#18 ++ s ++ 0x0#5)]
  | .belayRed d a s o => [word (0x1C#6 ++ d ++ a ++ 0x1#8 ++ s ++ o)]
  | .publish s => [word (0x1C#6 ++ 0x2#18 ++ s ++ 0x0#5)]
  | .cairn a b => [word (0x1C#6 ++ 0x0#5 ++ a ++ b ++ 0x300#11)]
  | .trigger => [word (0x1C#6 ++ 0x400#26)]
  | .launch d a b => [word (0x1C#6 ++ d ++ a ++ b ++ 0x500#11)]
  | .vf a => [word (0x1D#6 ++ 0x0#5 ++ a ++ 0x0#16)]
  | .setvl d a b k => [word (0x1D#6 ++ d ++ a ++ b ++ 0x1#3 ++ k)]
  | .setvlC d a b k => [word (0x1D#6 ++ d ++ a ++ b ++ 0x2#3 ++ k)]
  | .setvlQ a b k => [word (0x1D#6 ++ 0x0#5 ++ a ++ b ++ 0x3#3 ++ k)]
  | .vrd d a s => [word (0x1D#6 ++ d ++ a ++ 0x4#8 ++ s)]
  | .vwr a b s => [word (0x1D#6 ++ 0x0#5 ++ a ++ b ++ 0x5#3 ++ s)]
  | .bmask d a => [word (0x1D#6 ++ d ++ a ++ 0x600#16)]
  | .act d n => [word (0x20#6 ++ d ++ 0x0#16 ++ n ++ 0x0#3)]
  | .actw d n => [word (0x20#6 ++ d ++ 0x1#16 ++ n ++ 0x0#3)]
  | .wb d => [word (0x20#6 ++ d ++ 0x100#23)]
  | .pre d => [word (0x20#6 ++ d ++ 0x180#23)]
  | .pred d => [word (0x20#6 ++ d ++ 0x200#23)]
  | .ref d => [word (0x20#6 ++ d ++ 0x280#23)]
  | .rowcpy d a n => [word (0x20#6 ++ d ++ a ++ 0x6#13 ++ n ++ 0x0#3)]
  | .rowfill d n => [word (0x20#6 ++ d ++ 0x7#16 ++ n ++ 0x0#3)]
  | .vadd d a b p e => [word (0x21#6 ++ d ++ a ++ b ++ p ++ e ++ 0x0#11)]
  | .vaddScalar d a p e y => [word (0x21#6 ++ d ++ a ++ 0x0#3 ++ p ++ e ++ 0x1#1 ++ y ++ 0x0#6)]
  | .vsub d a b p e => [word (0x21#6 ++ d ++ a ++ b ++ p ++ e ++ 0x1#11)]
  | .vsubScalar d a p e y => [word (0x21#6 ++ d ++ a ++ 0x0#3 ++ p ++ e ++ 0x1#1 ++ y ++ 0x1#6)]
  | .vmul d a b p e => [word (0x21#6 ++ d ++ a ++ b ++ p ++ e ++ 0x2#11)]
  | .vmulScalar d a p e y => [word (0x21#6 ++ d ++ a ++ 0x0#3 ++ p ++ e ++ 0x1#1 ++ y ++ 0x2#6)]
  | .vmulh d a b p e => [word (0x21#6 ++ d ++ a ++ b ++ p ++ e ++ 0x3#11)]
  | .vmulhScalar d a p e y => [word (0x21#6 ++ d ++ a ++ 0x0#3 ++ p ++ e ++ 0x1#1 ++ y ++ 0x3#6)]
  | .vmulhu d a b p e => [word (0x21#6 ++ d ++ a ++ b ++ p ++ e ++ 0x4#11)]
  | .vmulhuScalar d a p e y => [word (0x21#6 ++ d ++ a ++ 0x0#3 ++ p ++ e ++ 0x1#1 ++ y ++ 0x4#6)]
  | .vmac d a b p e => [word (0x21#6 ++ d ++ a ++ b ++ p ++ e ++ 0x5#11)]
  | .vmacScalar d a p e y => [word (0x21#6 ++ d ++ a ++ 0x0#3 ++ p ++ e ++ 0x1#1 ++ y ++ 0x5#6)]
  | .vand d a b p e => [word (0x21#6 ++ d ++ a ++ b ++ p ++ e ++ 0x6#11)]
  | .vandScalar d a p e y => [word (0x21#6 ++ d ++ a ++ 0x0#3 ++ p ++ e ++ 0x1#1 ++ y ++ 0x6#6)]
  | .vor d a b p e => [word (0x21#6 ++ d ++ a ++ b ++ p ++ e ++ 0x7#11)]
  | .vorScalar d a p e y => [word (0x21#6 ++ d ++ a ++ 0x0#3 ++ p ++ e ++ 0x1#1 ++ y ++ 0x7#6)]
  | .vxor d a b p e => [word (0x21#6 ++ d ++ a ++ b ++ p ++ e ++ 0x8#11)]
  | .vxorScalar d a p e y => [word (0x21#6 ++ d ++ a ++ 0x0#3 ++ p ++ e ++ 0x1#1 ++ y ++ 0x8#6)]
  | .vsll d a b p e => [word (0x21#6 ++ d ++ a ++ b ++ p ++ e ++ 0x9#11)]
  | .vsllScalar d a p e y => [word (0x21#6 ++ d ++ a ++ 0x0#3 ++ p ++ e ++ 0x1#1 ++ y ++ 0x9#6)]
  | .vsrl d a b p e => [word (0x21#6 ++ d ++ a ++ b ++ p ++ e ++ 0xA#11)]
  | .vsrlScalar d a p e y => [word (0x21#6 ++ d ++ a ++ 0x0#3 ++ p ++ e ++ 0x1#1 ++ y ++ 0xA#6)]
  | .vsra d a b p e => [word (0x21#6 ++ d ++ a ++ b ++ p ++ e ++ 0xB#11)]
  | .vsraScalar d a p e y => [word (0x21#6 ++ d ++ a ++ 0x0#3 ++ p ++ e ++ 0x1#1 ++ y ++ 0xB#6)]
  | .vmin d a b p e => [word (0x21#6 ++ d ++ a ++ b ++ p ++ e ++ 0xC#11)]
  | .vminScalar d a p e y => [word (0x21#6 ++ d ++ a ++ 0x0#3 ++ p ++ e ++ 0x1#1 ++ y ++ 0xC#6)]
  | .vmax d a b p e => [word (0x21#6 ++ d ++ a ++ b ++ p ++ e ++ 0xD#11)]
  | .vmaxScalar d a p e y => [word (0x21#6 ++ d ++ a ++ 0x0#3 ++ p ++ e ++ 0x1#1 ++ y ++ 0xD#6)]
  | .vminu d a b p e => [word (0x21#6 ++ d ++ a ++ b ++ p ++ e ++ 0xE#11)]
  | .vminuScalar d a p e y => [word (0x21#6 ++ d ++ a ++ 0x0#3 ++ p ++ e ++ 0x1#1 ++ y ++ 0xE#6)]
  | .vmaxu d a b p e => [word (0x21#6 ++ d ++ a ++ b ++ p ++ e ++ 0xF#11)]
  | .vmaxuScalar d a p e y => [word (0x21#6 ++ d ++ a ++ 0x0#3 ++ p ++ e ++ 0x1#1 ++ y ++ 0xF#6)]
  | .vsplat d p e y => [word (0x21#6 ++ d ++ 0x0#6 ++ p ++ e ++ 0x1#1 ++ y ++ 0x10#6)]
  | .viota d p e => [word (0x21#6 ++ d ++ 0x0#6 ++ p ++ e ++ 0x11#11)]
  | .vsel d a b p e => [word (0x21#6 ++ d ++ a ++ b ++ p ++ e ++ 0x12#11)]
  | .vselScalar d a p e y => [word (0x21#6 ++ d ++ a ++ 0x0#3 ++ p ++ e ++ 0x1#1 ++ y ++ 0x12#6)]
  | .vadds d a b p e => [word (0x22#6 ++ d ++ a ++ b ++ p ++ e ++ 0x0#11)]
  | .vaddsScalar d a p e y => [word (0x22#6 ++ d ++ a ++ 0x0#3 ++ p ++ e ++ 0x1#1 ++ y ++ 0x0#6)]
  | .vsubs d a b p e => [word (0x22#6 ++ d ++ a ++ b ++ p ++ e ++ 0x1#11)]
  | .vsubsScalar d a p e y => [word (0x22#6 ++ d ++ a ++ 0x0#3 ++ p ++ e ++ 0x1#1 ++ y ++ 0x1#6)]
  | .vaddsu d a b p e => [word (0x22#6 ++ d ++ a ++ b ++ p ++ e ++ 0x2#11)]
  | .vaddsuScalar d a p e y => [word (0x22#6 ++ d ++ a ++ 0x0#3 ++ p ++ e ++ 0x1#1 ++ y ++ 0x2#6)]
  | .vsubsu d a b p e => [word (0x22#6 ++ d ++ a ++ b ++ p ++ e ++ 0x3#11)]
  | .vsubsuScalar d a p e y => [word (0x22#6 ++ d ++ a ++ 0x0#3 ++ p ++ e ++ 0x1#1 ++ y ++ 0x3#6)]
  | .vwmul d a b p e => [word (0x22#6 ++ d ++ a ++ b ++ p ++ e ++ 0x4#11)]
  | .vwmulScalar d a p e y => [word (0x22#6 ++ d ++ a ++ 0x0#3 ++ p ++ e ++ 0x1#1 ++ y ++ 0x4#6)]
  | .vwmac d a b p e => [word (0x22#6 ++ d ++ a ++ b ++ p ++ e ++ 0x5#11)]
  | .vwmacScalar d a p e y => [word (0x22#6 ++ d ++ a ++ 0x0#3 ++ p ++ e ++ 0x1#1 ++ y ++ 0x5#6)]
  | .vwmacu d a b p e => [word (0x22#6 ++ d ++ a ++ b ++ p ++ e ++ 0x6#11)]
  | .vwmacuScalar d a p e y => [word (0x22#6 ++ d ++ a ++ 0x0#3 ++ p ++ e ++ 0x1#1 ++ y ++ 0x6#6)]
  | .vnclip d a b p e => [word (0x22#6 ++ d ++ a ++ b ++ p ++ e ++ 0x7#11)]
  | .vnclipScalar d a p e y => [word (0x22#6 ++ d ++ a ++ 0x0#3 ++ p ++ e ++ 0x1#1 ++ y ++ 0x7#6)]
  | .vnclipu d a b p e => [word (0x22#6 ++ d ++ a ++ b ++ p ++ e ++ 0x8#11)]
  | .vnclipuScalar d a p e y => [word (0x22#6 ++ d ++ a ++ 0x0#3 ++ p ++ e ++ 0x1#1 ++ y ++ 0x8#6)]
  | .vssra d a b p e => [word (0x22#6 ++ d ++ a ++ b ++ p ++ e ++ 0x9#11)]
  | .vssraScalar d a p e y => [word (0x22#6 ++ d ++ a ++ 0x0#3 ++ p ++ e ++ 0x1#1 ++ y ++ 0x9#6)]
  | .vfadd d a b p e => [word (0x23#6 ++ d ++ a ++ b ++ p ++ e ++ 0x0#11)]
  | .vfaddScalar d a p e y => [word (0x23#6 ++ d ++ a ++ 0x0#3 ++ p ++ e ++ 0x1#1 ++ y ++ 0x0#6)]
  | .vfsub d a b p e => [word (0x23#6 ++ d ++ a ++ b ++ p ++ e ++ 0x1#11)]
  | .vfsubScalar d a p e y => [word (0x23#6 ++ d ++ a ++ 0x0#3 ++ p ++ e ++ 0x1#1 ++ y ++ 0x1#6)]
  | .vfmul d a b p e => [word (0x23#6 ++ d ++ a ++ b ++ p ++ e ++ 0x2#11)]
  | .vfmulScalar d a p e y => [word (0x23#6 ++ d ++ a ++ 0x0#3 ++ p ++ e ++ 0x1#1 ++ y ++ 0x2#6)]
  | .vfma d a b p e => [word (0x23#6 ++ d ++ a ++ b ++ p ++ e ++ 0x3#11)]
  | .vfmaScalar d a p e y => [word (0x23#6 ++ d ++ a ++ 0x0#3 ++ p ++ e ++ 0x1#1 ++ y ++ 0x3#6)]
  | .vfmin d a b p e => [word (0x23#6 ++ d ++ a ++ b ++ p ++ e ++ 0x4#11)]
  | .vfminScalar d a p e y => [word (0x23#6 ++ d ++ a ++ 0x0#3 ++ p ++ e ++ 0x1#1 ++ y ++ 0x4#6)]
  | .vfmax d a b p e => [word (0x23#6 ++ d ++ a ++ b ++ p ++ e ++ 0x5#11)]
  | .vfmaxScalar d a p e y => [word (0x23#6 ++ d ++ a ++ 0x0#3 ++ p ++ e ++ 0x1#1 ++ y ++ 0x5#6)]
  | .vfsgnJ d a b p e => [word (0x23#6 ++ d ++ a ++ b ++ p ++ e ++ 0x6#11)]
  | .vfsgnJScalar d a p e y => [word (0x23#6 ++ d ++ a ++ 0x0#3 ++ p ++ e ++ 0x1#1 ++ y ++ 0x6#6)]
  | .vfsgnN d a b p e => [word (0x23#6 ++ d ++ a ++ b ++ p ++ e ++ 0x7#11)]
  | .vfsgnNScalar d a p e y => [word (0x23#6 ++ d ++ a ++ 0x0#3 ++ p ++ e ++ 0x1#1 ++ y ++ 0x7#6)]
  | .vfsgnX d a b p e => [word (0x23#6 ++ d ++ a ++ b ++ p ++ e ++ 0x8#11)]
  | .vfsgnXScalar d a p e y => [word (0x23#6 ++ d ++ a ++ 0x0#3 ++ p ++ e ++ 0x1#1 ++ y ++ 0x8#6)]
  | .vfexp2 d a p e => [word (0x23#6 ++ d ++ a ++ 0x0#3 ++ p ++ e ++ 0x9#11)]
  | .vfrece d a p e => [word (0x23#6 ++ d ++ a ++ 0x0#3 ++ p ++ e ++ 0xA#11)]
  | .vcmp d a b p e c => [word (0x24#6 ++ d ++ a ++ b ++ p ++ e ++ 0x0#5 ++ c ++ 0x0#3)]
  | .vcmpScalar d a p e y c => [word (0x24#6 ++ d ++ a ++ 0x0#3 ++ p ++ e ++ 0x1#1 ++ y ++ c ++ 0x0#3)]
  | .vfcmp d a b p e c => [word (0x24#6 ++ d ++ a ++ b ++ p ++ e ++ 0x0#5 ++ c ++ 0x1#3)]
  | .vfcmpScalar d a p e y c => [word (0x24#6 ++ d ++ a ++ 0x0#3 ++ p ++ e ++ 0x1#1 ++ y ++ c ++ 0x1#3)]
  | .pand d a b p => [word (0x24#6 ++ d ++ a ++ b ++ p ++ 0x4#14)]
  | .por d a b p => [word (0x24#6 ++ d ++ a ++ b ++ p ++ 0x5#14)]
  | .pxor d a b p => [word (0x24#6 ++ d ++ a ++ b ++ p ++ 0x6#14)]
  | .pandn d a b p => [word (0x24#6 ++ d ++ a ++ b ++ p ++ 0x7#14)]
  | .vredsum a p e y => [word (0x25#6 ++ 0x0#3 ++ a ++ 0x0#3 ++ p ++ e ++ 0x0#1 ++ y ++ 0x0#6)]
  | .vredmin a p e y => [word (0x25#6 ++ 0x0#3 ++ a ++ 0x0#3 ++ p ++ e ++ 0x0#1 ++ y ++ 0x1#6)]
  | .vredmax a p e y => [word (0x25#6 ++ 0x0#3 ++ a ++ 0x0#3 ++ p ++ e ++ 0x0#1 ++ y ++ 0x2#6)]
  | .vfredsum a p e y => [word (0x25#6 ++ 0x0#3 ++ a ++ 0x0#3 ++ p ++ e ++ 0x0#1 ++ y ++ 0x3#6)]
  | .vfredmax a p e y => [word (0x25#6 ++ 0x0#3 ++ a ++ 0x0#3 ++ p ++ e ++ 0x0#1 ++ y ++ 0x4#6)]
  | .vpopc a p e y => [word (0x25#6 ++ 0x0#3 ++ a ++ 0x0#3 ++ p ++ e ++ 0x0#1 ++ y ++ 0x5#6)]
  | .vpopcQ a p e y => [word (0x25#6 ++ 0x0#3 ++ a ++ 0x0#3 ++ p ++ e ++ 0x1#1 ++ y ++ 0x5#6)]
  | .vfirst a p e y => [word (0x25#6 ++ 0x0#3 ++ a ++ 0x0#3 ++ p ++ e ++ 0x0#1 ++ y ++ 0x6#6)]
  | .vslideup d a p e f y => [word (0x26#6 ++ d ++ a ++ 0x0#3 ++ p ++ e ++ f ++ y ++ 0x0#6)]
  | .vslidedn d a p e f y => [word (0x26#6 ++ d ++ a ++ 0x0#3 ++ p ++ e ++ f ++ y ++ 0x1#6)]
  | .vperm d a b p e x => [word (0x26#6 ++ d ++ a ++ b ++ p ++ e ++ 0x0#4 ++ x ++ 0x2#6)]
  | .vcompress d a p e => [word (0x26#6 ++ d ++ a ++ 0x0#3 ++ p ++ e ++ 0x3#11)]
  | .vshuf d a p e y => [word (0x26#6 ++ d ++ a ++ 0x0#3 ++ p ++ e ++ 0x0#1 ++ y ++ 0x4#6)]
  | .vbcast d a p e y => [word (0x26#6 ++ d ++ a ++ 0x0#3 ++ p ++ e ++ 0x0#1 ++ y ++ 0x5#6)]
  | .vcvt d a p e f => [word (0x27#6 ++ d ++ a ++ 0x0#3 ++ p ++ e ++ f ++ 0x0#6)]
  | .vpackmx d a s l e f => [word (0x27#6 ++ d ++ a ++ s ++ l ++ e ++ f ++ 0x1#6)]
  | .vunpackmx d a s l f => [word (0x27#6 ++ d ++ a ++ s ++ l ++ 0x0#3 ++ f ++ 0x2#6)]
  | .vbpisplit d a s l e f => [word (0x27#6 ++ d ++ a ++ s ++ l ++ e ++ f ++ 0x3#6)]
  | .vbpijoin d a s l f => [word (0x27#6 ++ d ++ a ++ s ++ l ++ 0x0#3 ++ f ++ 0x4#6)]
  | .vld d p e o x y h => [word (0x28#6 ++ d ++ 0x0#6 ++ p ++ e ++ o ++ x ++ y ++ h ++ 0x0#3)]
  | .vst d p e o x y h => [word (0x28#6 ++ d ++ 0x0#6 ++ p ++ e ++ o ++ x ++ y ++ h ++ 0x1#3)]
  | .vldx d b p e o x y h => [word (0x28#6 ++ d ++ 0x0#3 ++ b ++ p ++ e ++ o ++ x ++ y ++ h ++ 0x2#3)]
  | .vstx d b p e o x y h => [word (0x28#6 ++ d ++ 0x0#3 ++ b ++ p ++ e ++ o ++ x ++ y ++ h ++ 0x3#3)]
  | .vldseg d n p e o x y h => [word (0x28#6 ++ d ++ 0x0#3 ++ n ++ p ++ e ++ o ++ x ++ y ++ h ++ 0x4#3)]
  | .vstseg d n p e o x y h => [word (0x28#6 ++ d ++ 0x0#3 ++ n ++ p ++ e ++ o ++ x ++ y ++ h ++ 0x5#3)]
  | .vldxPeer d a b p e o x m => [word (0x28#6 ++ d ++ a ++ b ++ p ++ e ++ o ++ x ++ 0x0#1 ++ m ++ 0x6#5)]
  | .vstxPeer d a b p e o x m => [word (0x28#6 ++ d ++ a ++ b ++ p ++ e ++ o ++ x ++ 0x0#1 ++ m ++ 0x7#5)]
  | .yadd d a b => [word (0x29#6 ++ d ++ a ++ b ++ 0x0#14)]
  | .ysub d a b => [word (0x29#6 ++ d ++ a ++ b ++ 0x1#14)]
  | .yand d a b => [word (0x29#6 ++ d ++ a ++ b ++ 0x2#14)]
  | .yor d a b => encYor d a b
  | .yxor d a b => encYxor d a b
  | .ysll d a b => encYsll d a b
  | .ysrl d a b => encYsrl d a b
  | .ysra d a b => encYsra d a b
  | .ymul d a b => encYmul d a b
  | .vext d a k => encVext d a k
  | .vins a b k => encVins a b k
  | .yaddi d a i => encYaddi d a i
  | .yaddiExt d a i => encYaddiExt d a i
  | .ymovi d i => encYmovi d i
  | .ymoviExt d i => encYmoviExt d i
  | .yb c a b o => encYb c a b o
  | .yloop a o => encYloop a o
  | .tfetch a => encTfetch a
  | .stop => [word (0x2B#6 ++ 0x1800#26)]
  | .ycsr d n => encYcsr d n
  | .mlds m a b p => encMlds m a b p
  | .mstr m a b c l p => encMstr m a b c l p
  | .mzero m a => encMzero m a
  | .mdrain m a b c q r u s => encMdrain m a b c q r u s
  | .macld m a b => encMacld m a b
  | .macst m a b => encMacst m a b
  | .mtile m g => encMtile m g
  | .mtileAs m g => encMtileAs m g
  | .copy t a x => encCopy t a x
  | .copym t a b m k p r x => encCopym t a b m k p r x
  | .cancel t => encCancel t
  | .wait t l s r m => encWait t l s r m
  | .stage t a b => encStage t a b
  | .consign t a => encConsign t a
  | .bankTrap _ => []
  | .asyncFault _ => []
  | .vfBlockStart _ => []
  | .setvlEntry _ => []
  | .stripCommit _ => []
  | .vwrEntry _ => []
  | .vrdEntry _ => []
  | .rowOpenComplete _ _ => []
  | .writeBackStart _ _ => []
  | .writeBackEnd _ _ => []
  | .prechargeStart _ _ => []
  | .closingEnd _ _ => []
  | .slotBusyEnd _ _ => []
  | .refreshTick _ _ => []
  | .refreshForcedClose _ _ => []
  | .openLimit _ _ => []
  | .foreignRequest _ _ => []
  | .neighbourRefresh _ _ => []
  | .permitGrant _ => []
  | .permitArrival _ => []
  | .spineTransferReceive _ _ _ _ _ _ => []
  | .spineRetry _ => []
  | .beatPairResend _ _ _ _ _ => []
  | .collectiveStart _ => []
  | .loadReturn _ _ _ => []
  | .slicePerform _ => []
  | .remoteRequest _ _ _ _ _ _ _ => []
  | .remoteTimeout _ => []
  | .orphanResponse _ => []
  | .belayMarkerFire _ => []
  | .belayCompletion _ => []
  | .cairnMarkerFire _ => []
  | .cairnPoint _ => []
  | .triggerPoint _ => []
  | .triggerDependantStart _ => []
  | .matrixQueueHandoff _ => []
  | .arraySwitchPoint _ => []
  | .mtileStep _ => []
  | .planeLoadDone _ => []
  | .matrixCommandEnd _ => []
  | .verdict _ => []
  | .allowanceGrant _ => []
  | .tileCommit _ => []
  | .copyStart _ => []
  | .copyBoundary _ => []
  | .copyDone _ => []
  | .followOnHandover _ => []
  | .stageRun => []
  | .stagingFill _ _ _ => []
  | .consignmentAccept => []
  | .consignProgramPage _ _ => []
  | .consignVerify _ _ => []
  | .consignPublish _ => []
  | .extentErase _ => []
  | .installPurseRefill => []
  | .launchRequestArrival => []
  | .admission _ _ _ => []
  | .bind _ => []
  | .quantumEnd _ => []
  | .preemption _ => []
  | .restore _ => []
  | .stripRewind _ => []
  | .reclaimWaveArrival _ _ => []
  | .remoteKillArrival _ _ _ => []
  | .fenceComplete _ => []
  | .quarantineClear _ _ => []
  | .budgetStop _ => []
  | .purserIntervalEnd _ => []
  | .stepArrival _ => []
  | .rampIntervalEnd => []
  | .thermalThrottle => []
  | .thermalShutdown => []
  | .wfeTimeout _ => []
  | .packageReset _ => []
  | .stackReset _ => []
  | .hostRead _ _ => []
  | .hostWrite _ _ _ => []
  | .mailboxLaunch _ => []
  | .mailboxKill _ => []
  | .mailboxAttest _ => []
  | .mailboxReplay _ => []
  | .mailboxBadOp _ => []
  | .registerWrite _ _ _ => []
  | .illegalInstructionWord _ _ => []
  | .contextCreate _ _ => []
  | .operatorKillRequest _ _ _ => []
  | .bindRecordWrite _ _ => []
  | .windowEntryWrite _ _ => []
  | .errorLogCopy _ => []
  | .ucieLinkTraining _ => []
  | .flitRetry _ => []
  | .quarantineAnnouncementArrival _ _ _ => []
  | .operatorSettingChange _ _ => []

end Sys2Proof
end

