-- ==== Sys2Proof/Machine/State.lean ====
section
/-! DEFINITION. The state of one Lyaro 9 package as plain data: everything the spec gives the machine, the part's own pending
work, and four fields of the model's own (`agenda`, `turn`, `cur`, `free`). Every field's rule, width and reset value stand in
INVENTORY.md under State. A table field lists only the entries that differ from its default. -/
namespace Sys2Proof.Machine

/-- Why the machine stops with a fault. -/
inductive Fault where
  /-- The package has powered down at 110 °C (R427); raised by every step after THERMAL_SHUTDOWN. Safe: the spec gives a
  powered-down package no further behaviour. -/
  | poweredDown
  deriving DecidableEq, Repr

/-- Why an instruction has no meaning here. -/
inductive Refusal where
  /-- The instruction is not modelled yet; raised by its arm of `exec`. Safe. -/
  | notModelled (mnemonic : String)
  deriving DecidableEq, Repr

/-- The cause codes that are raised (R389, Table 18.1). -/
inductive Cause where
  | illegal | priv | misaligned | regionMiss | permission | regionEngaged | rowState | refdue | openLimit | gateOvf | gateUnf
  | brk | syscall | budget | ueConsumed | sdc | ueFatal | asyncFault | bankTrap | lqEmpty
  deriving DecidableEq, Repr

/-- The six states of a row register (Table 5.1). -/
inductive RowSt where
  | closed | opening | openClean | openDirty | commitPending | closing
  deriving DecidableEq, Repr

/-- A sequencer that can issue instructions: a leader or a bank, by package number (R15, R25). -/
inductive Seq where
  | leader (n : Nat)
  | bank (g : Nat)
  deriving DecidableEq, Repr

/-- What happens next: a sequencer issues its next instruction, an event happens, or cycles pass. MODEL. -/
inductive Activity where
  | issue (q : Seq)
  | event (i : Instr)
  | upset (g el : Nat)    -- a lane fault of bank `g`, of the lanes from element `el` on, which only the comparison of a protected context shows (R402)
  | elapse (cycles : Nat)
  deriving DecidableEq, Repr

/-- A hardware-loop entry: first and last word's byte address (a bank's: word index in the block), and the count (R101, Table 4.8, Table 6.6). -/
structure LoopEntry where
  start : Nat
  last  : Nat
  count : Nat
  deriving DecidableEq, Repr

/-- A gate-return entry (Table 4.10). -/
structure GateRet where
  pc    : Word
  level : BitVec 2
  mm    : Bool
  deriving DecidableEq, Repr

/-- A trap recorded and not yet delivered. -/
structure TrapRec where
  cause : Cause
  bank  : Nat
  tpc   : Word
  tval  : Word
  telem : Word
  deriving DecidableEq, Repr

/-- The thread-scope CSRs of Table 9.2. -/
structure Csrs where
  vt     : Word
  vl     : Nat
  vxrm   : BitVec 2
  vxsat  : Bool
  frm    : BitVec 3
  fflags : BitVec 5
  abr0   : Word
  abr1   : Word
  abr2   : Word
  abr3   : Word
  acan   : BitVec 6
  instret : Word
  tcause : Word
  tpc    : Word
  tval   : Word
  telem  : Word
  tstate : Word
  deriving DecidableEq, Repr

/-- A leader's strip checkpoint and its rewind conditions (R140, R285, R398 to R400). -/
structure LStrip where
  xs      : List (Nat × Word × Option Nat)
  loops   : List LoopEntry
  gates   : List GateRet
  level   : BitVec 2
  mm      : Bool
  bmr     : BitVec 32
  addr    : Word
  entry   : Nat          -- the number of the row-queue entry that opened it
  bytes   : Nat          -- bytes held in the strip store buffer
  scr     : List (Nat × BitVec 8)  -- of these, the bytes of scratch, oldest first: offset and value (R285)
  spoiled : Bool         -- R400: it can no longer be rewound
  rewound : Bool         -- it has been rewound once
  dest    : List (Nat × Nat)   -- bank and slot that an instruction which raised the rewind's cause was to write (R399)
  deriving DecidableEq, Repr

/-- What a row-queue entry carries (Table 5.11). -/
inductive RowOp where
  | vf (desc : Word) (frm : BitVec 3) (vxrm : BitVec 2)
  | setvl (vt : Word) (n : Nat) (pop : Bool)
  | commit
  | vwr (y : Nat) (v : Word)
  | vrd (sel : Nat) (d : Nat) (req : Nat)
  | belay (level : Nat)
  | cairn (id : Nat)
  deriving DecidableEq, Repr

/-- A row-queue entry: its number, the banks that have yet to take it, and those that have yet to complete it (R332, R333). -/
structure RowEntry where
  num    : Nat
  op     : RowOp
  banks  : BitVec 32    -- banks it is aimed at
  todo   : BitVec 32    -- banks that have not taken it
  open_  : BitVec 32    -- banks that have not completed it
  commit : BitVec 32    -- banks that have not reached its strip commit
  sync   : Bool         -- its strip commit has taken effect, or it carries none (R397)
  strips : BitVec 32    -- banks that have not recorded the strip it opens
  pc     : Word         -- the leader instruction that placed it
  sent   : Bool := false  -- its block has crossed the spine, to every bank that lacked it (R46)
  deriving DecidableEq, Repr

/-- A CAIRN or TRIGGER whose point has not come (R353, R354). -/
structure CairnPend where
  num     : Nat
  trigger : Bool
  h       : Nat
  cairn   : Nat
  seals   : Bool
  engines : Nat         -- engine commands with a completion number up to this one are published
  strip   : Option Nat  -- entry number of the strip that was open
  deriving DecidableEq, Repr

/-- The state of a token (Table 15.2). -/
inductive TokSt where
  | idle | queued | running | suspended | done | fault
  deriving DecidableEq, Repr

/-- A token record (Table 15.3). -/
structure Token where
  st    : TokSt
  kind  : Nat
  code  : Nat
  cause : Nat
  seq   : Nat
  prog  : Nat
  idx   : Word
  aux   : Word
  num   : Nat           -- the engine command that it was last issued for
  deriving DecidableEq, Repr

/-- A matrix command as captured at issue (R192, R209). `kind`: 0 to 5 as fn9[2:0], 6 MTILE, 7 MTILE.as. -/
structure MatCmd where
  kind   : Nat
  arr    : Nat
  ops    : List Word     -- the operand words, in the order of the encoding
  flags  : Nat           -- fn9[8:3] of a MAT word
  pc     : Word
  frm    : BitVec 3
  vxrm   : BitVec 2
  vt     : Word
  abr    : Word
  shift  : Nat
  ctx    : Nat
  inn    : Nat
  task   : Nat
  leader : Nat
  tok    : Option Nat    -- the token of the COPYM it follows
  num    : Nat
  deriving DecidableEq, Repr

/-- A copy-queue command as captured at issue (R338, R322, R323). `kind`: 0 COPY, 1 COPYM, 2 STAGE, 3 CONSIGN. -/
structure CopyCmd where
  kind   : Nat
  tok    : Nat
  xf     : Nat
  ops    : List Word
  follow : Option MatCmd
  vt     : Word
  frm    : BitVec 3
  task   : Nat           -- the task that issued it
  num    : Nat
  deriving DecidableEq, Repr

/-- The copy engine's running command (R339, R342). -/
structure CopyRun where
  cmd     : CopyCmd
  started : Bool
  prog    : Nat
  stop    : Bool
  ep      : Nat          -- the weight epoch it reads (R188)
  rgns    : List Nat     -- indices of the regions that its start probed for its reads (R280)
  buf     : List (BitVec 8)  -- the bytes of the run under way, as formed when its source was read (R339)
  deriving DecidableEq, Repr

/-- A region-table entry in use: its index and its four doublewords (Table 10.2). -/
structure Region where
  idx : Nat
  dw0 : Word
  dw1 : Word
  dw2 : Word
  dw3 : Word
  deriving DecidableEq, Repr

/-- A leader's arrival at a belay (R290, R291). -/
structure Arrival where
  level : Nat
  red   : Option (Nat × Nat × Word)   -- reduction, destination, contribution
  done  : Bool
  bad   : Bool                        -- it traps after completion (R291)
  engines : Nat                       -- engine commands of the rope that had completed at the arrival (R276)
  insts : List Nat                    -- instances of a bank or bank-group belay that have completed (R290)
  deriving DecidableEq, Repr

/-- What binds a rope: the context, incarnation and task, and the record's fields (R369). -/
structure Binding where
  ctx   : Nat
  inn   : Nat
  task  : Nat
  prot  : Bool
  prio  : Nat
  amask : BitVec 4
  rcd   : Nat
  frame : Nat
  level : Nat
  inst  : Nat
  ord   : Nat
  deriving DecidableEq, Repr

/-- A spine transfer that failed: its kind, sender and receiver, beat and group of its first failure, retries made, cycle of the last failure
(R312). -/
structure Xfer where
  kind  : Nat            -- the kind of transfer
  src   : Nat
  dst   : Nat
  beat  : Nat
  group : Nat
  tries : Nat
  at_   : Nat
  waits : Bool           -- its retry has not been sent
  deriving DecidableEq, Repr

/-- A cache line: its row line address, or 2^60 and its W-space line address; written since its fill; class, SCOPE and home bank of the region
that it was reached by (R257, R258, R268). -/
structure CLine where
  line  : Nat
  dirty : Bool
  cls   : Nat
  scope : Nat
  home  : Nat
  deriving DecidableEq, Repr

/-- One rope's leader, its queues, its copy engine, scratch and spine (R19, R84 to R111, R332 to R335, R312, R313). -/
structure Leader where
  bind    : Option Binding
  run     : Bool                 -- the thread runs
  imem    : Tbl (BitVec 32)
  pc      : Word
  x       : Tbl Word
  xPoison : Tbl (Option Nat)
  xPend   : Tbl Nat              -- the request a register waits for; 0 none
  loops   : List LoopEntry
  gates   : List GateRet
  level   : BitVec 2
  mm      : Bool
  bmr     : BitVec 32
  csr     : Csrs
  aside   : List LoopEntry
  gateStore : Tbl Word
  strip   : Option LStrip
  nextStrip : Option LStrip      -- the strip that opens when the one before has committed
  commitWait : Option Nat        -- the entry whose strip commit it waits for (R397)
  rowq    : List RowEntry
  rowNum  : Nat
  matq    : List MatCmd
  matRun  : List MatCmd          -- passed to an array and not ended
  copyq   : List CopyCmd
  copyRun : Option CopyRun
  follow  : List CopyCmd         -- COPYMs whose follow-on waits for a stream or has not ended
  cmdNum  : Nat
  engDone : Nat                  -- engine commands ended so far
  toks    : Tbl Token
  seq     : Nat
  scratch : Mem
  tlb     : List Region
  lanes   : Tbl (List Region)    -- the 32 lane banks beside the TLB (R250, R253)
  l1      : Tbl (List CLine)     -- the L1 data cache by set, most recently used first (R19, R257)
  async   : List (Word × Word)   -- pending ASYNC_FAULTs: TVAL and order
  asyncSeen : Nat                -- the oldest of them, which were pending when the last WFE completed (R234)
  pendTrap : Option TrapRec
  preempt : Bool
  rewind  : Option TrapRec       -- a strip rewind is pending (R398)
  cpos    : Tbl Nat
  cairns  : List CairnPend
  arrival : Option Arrival
  wfeAt   : Option Nat
  wfeEv   : Bool
  wever   : Nat                  -- the weight publication epoch it reads (R275)
  tileSeq : Tbl Nat              -- assayed MTILEs issued per array (R426)
  killed  : Bool
  hop     : Bool                 -- its last instruction was a back-jump, or a transfer backward inside the innermost body (R105)
  stalled : Bool                 -- the instruction at PC has issued and waits (R105)
  why     : Nat                  -- the stall cause of its last attempt to issue; 0 none (R388)
  issued  : Bool                 -- it has issued in this cycle (R388)
  tag     : Nat × Nat            -- the (CTX, IN) last bound to the rope (R250, Table 17.2)
  issue   : Nat
  stalls  : Tbl Nat
  orphan  : Nat
  stale   : Nat                  -- the copy engine's STALE
  -- the rope's spine
  degraded : Bool
  spineLog : List Word
  spineOrd : List Nat            -- its valid entries, oldest first (R315)
  xfer    : List Xfer            -- transfers that have failed and not yet been delivered
  retry   : Nat
  degradedN : Nat
  poisonedN : Nat
  deriving DecidableEq, Repr

/-- One slot: its register, latch and refresh state (R112 to R117, R301 to R308). -/
structure Slot where
  st     : RowSt
  latch  : RowBits
  poison : BitVec 1536
  ctx    : Nat
  inn    : Nat
  row    : Nat
  debt   : Int
  cr     : Nat
  pub    : Nat
  wp     : Bool
  sw     : Bool
  ds     : Bool
  cc     : Bool
  cw     : Nat
  scope  : Nat            -- SCOPE of the region of the open row
  cls    : Nat            -- CLASS of that region
  wbing  : Bool           -- the write-back has begun
  preReq : Bool           -- a precharge is requested and waits for tRAS
  pred   : Bool           -- a PRED of the program waits to close it (R114, R121)
  forced : Nat            -- CR of the forced close under way: 1 by refresh, 2 by the open limit, 3 by eviction; 0 none (R115, R116, R307)
  task   : Nat            -- the task whose thread opened the register (R115, R129)
  reg    : Nat            -- index of the region of the open row (R255)
  home   : Nat            -- bank of that region's first row (R264)
  wmask  : PredBits       -- bytes written since the row was opened or last written back (R269, R303)
  lnMask : PredBits       -- bytes of the lane write that was issued last (R151)
  lnAt   : Nat            -- cycle at which it writes chunk 0
  busy   : Bool           -- REF, ROWCPY, ROWFILL or a foreign open holds the slot
  until_ : Nat            -- cycle at which the current transient ends
  actAt  : Nat            -- cycle of the ACT or ACTW
  wrAt   : Nat            -- cycle of the last write of the register; 0 none (R150)
  rdAt   : Nat            -- first cycle after the last read of the register (R150)
  useAt  : Nat            -- earliest issue of an instruction that reads it (R125, R297)
  refPtr : Nat
  grace  : Option Nat     -- cycle of the tick that raised DEBT to 8
  alert  : List Nat       -- rows whose neighbours are owed a refresh
  nearTo : Nat            -- cycle at which a neighbour refresh under way ends (R311)
  wbAt   : Nat            -- cycle of the WB that made it commit-pending (R269)
  tickAt : Option Nat     -- cycle of the last refresh tick taken
  deriving DecidableEq, Repr

/-- A multi-row operation under way: rows performed, destination slot, source slot (R123). -/
structure MultiRun where
  rows : Nat
  d    : Nat
  a    : Nat
  deriving DecidableEq, Repr

/-- A VSHUF or VBCAST that a bank has issued (R163, R164). -/
structure Coll where
  bcast : Bool
  d : BitVec 3
  a : BitVec 3
  p : BitVec 3
  e : BitVec 3
  m : Nat                 -- pattern or index word
  deriving DecidableEq, Repr

/-- A bank's running block (R43 to R45, R163, R164). -/
structure BlockRun where
  desc   : Nat
  wpos   : Nat
  entry  : Option Nat     -- the VF entry that fetched it; none after TFETCH
  parts  : BitVec 32      -- participants of its collectives
  rank   : Nat            -- collectives completed
  coll   : Option Coll    -- it has issued the collective of that rank and waits
  deriving DecidableEq, Repr

/-- What a bank trap interrupts, which decides its dispositions (Table 18.3). -/
inductive TrapKind where
  | instr | entry | close | blockEnd
  deriving DecidableEq, Repr

/-- A bank's trap record (Table 18.2) and its kind. -/
structure BankTrap where
  cause : Cause
  disp  : BitVec 2
  tpc   : Word
  tval  : Word
  telem : Word
  kind  : TrapKind
  seen  : Bool            -- delivered and being handled
  woke  : Bool := false   -- pending when the leader's last WFE completed (R234)
  deriving DecidableEq, Repr

/-- A bank's strip checkpoint (R140, R397). -/
structure BStrip where
  y    : Tbl Word
  p    : Tbl PredBits
  vt   : Word
  vl   : Nat
  lq   : List Nat
  regs : List (RowSt × Nat × Bool)   -- state, row and CC of the eight registers
  at_  : Nat                         -- cycle at which the strip opened
  deriving DecidableEq, Repr

/-- One bank sequencer with its eight slots (R13, R25, R126 to R129, R238). -/
structure Bank where
  slots   : Tbl Slot
  y       : Tbl Word
  p       : Tbl PredBits
  vt      : Word
  vl      : Nat
  lq      : List Nat
  fflags  : BitVec 5
  vxsat   : Bool
  frm     : BitVec 3
  vxrm    : BitVec 2
  loops   : List LoopEntry
  run     : Option BlockRun
  bpc     : Nat × Nat            -- DESC and WPOS when no block runs
  tfetch  : Bool
  trap    : Option BankTrap
  lastTrap : Option BankTrap      -- the trap record's words while V is 0: those of the last trap resolved (R395)
  disp    : BitVec 2             -- its DISP while V is 0 (Table 18.2)
  trapQ   : List BankTrap        -- REFDUE, OPEN_LIMIT raised and not yet taken
  strip   : Option BStrip
  regions : List Region          -- the row-region store
  engTo   : Nat                  -- cycle until which its engaging instruction waits (R255)
  vmems   : List Nat             -- cycles at which its row-memory instructions in flight complete (R297)
  resume  : Bool × Nat
  wave    : Nat                  -- permit-taking operations performed in this wave
  waits   : Bool                 -- it waits in the wave, for a permit or for a neighbour refresh (R311)
  multi   : Option MultiRun      -- a multi-row operation under way
  owed    : List (Nat × Slot × Bool)  -- rows to reopen and latches to reload before the bank issues again: slot, register, latch (R115, R399)
  blocks  : List Nat             -- its block cache: descriptors, most recently fetched first (R46)
  fetchUe : Bool                 -- a beat of its block fetch was delivered poisoned (R313)
  entryNum : Nat                 -- number of the row-queue entry last taken: the place of its stores among CAIRN and TRIGGER (R271)
  wever   : Nat                  -- the weight publication epoch that the bank's own reads see (R275)
  upset   : Option Nat           -- a lane of one half computes wrongly from this element on at the next duplicated instruction (R402)
  aerr    : List Word
  aerrOrd : List Nat             -- its valid entries, oldest first (R315)
  sendUe  : BitVec 1536          -- words of its next store's data that the spine delivers poisoned (R313)
  foreign : List (Nat × Nat)     -- waiting requests and their arrival cycles
  acts    : List Nat             -- cycles of the last four ACT or ACTW
  laneAt  : Nat                  -- earliest cycle of the next lane instruction
  issue   : Nat
  stalls  : Tbl Nat
  why     : Nat                  -- the stall cause of its last attempt to issue; 0 none (Table 17.2)
  issued  : Bool                 -- it has issued in this cycle
  ce      : Nat
  ue      : Nat
  refdue  : Nat
  closeRef : Nat
  closeOpen : Nat
  alerts  : Nat
  debtMax : Int
  fqStale : Nat
  hop     : Bool                 -- as the leader's, for the bank loop stack (R173)
  deriving DecidableEq, Repr

/-- A stationary plane (R181, R182). The check bits differ from the correct code where `ecc` lists them. -/
structure Plane where
  st    : Nat
  fmt   : Nat
  claim : Option Nat
  data  : Mem
  ecc   : Tbl (BitVec 8)
  deriving DecidableEq, Repr

/-- An accumulator line (R183, R184). -/
structure Line where
  vlen  : Nat
  dirty : Bool
  data  : Mem
  ecc   : Tbl (BitVec 8)
  deriving DecidableEq, Repr

/-- A running MTILE's step word, counts and captured verdict (Tables 7.16, 8.6, R222). -/
structure Tile where
  pass  : Nat             -- 0 plain, 1 narrow, 2 replay
  grp   : Nat
  kstep : Nat
  sat   : Nat
  ufl   : Nat
  can   : Nat
  flags : BitVec 5
  seq   : Nat
  judged : Option (Nat × Option Bool)  -- causes, and the answer to its request
  deriving DecidableEq, Repr

/-- One matrix array (R20, R178 to R206). -/
structure Array_ where
  ctx     : Nat
  inn     : Nat
  owner   : Option Nat           -- the task
  p0      : Plane
  p1      : Plane
  lines   : Tbl Line
  stream0 : List MatCmd
  stream1 : Option MatCmd
  stream2 : Option MatCmd
  stream3 : Option MatCmd
  ages    : Tbl Nat
  cur     : Option Nat           -- the stream whose command or step runs
  tiles   : Tbl (Option Tile)    -- per stream
  eps     : Tbl Nat              -- per stream, the weight epoch its command reads (R188)
  sat     : Nat
  ufl     : Nat
  can     : Nat
  unitUe  : Bool                 -- an activation unit was delivered poisoned (R313)
  step    : Nat                  -- throttle step it obeys (R383)
  ramp    : Nat                  -- k (R385)
  filler  : Bool
  fillFor : Nat                -- the task whose binding ended, to which fillers are charged (R386)
  bindAt  : Nat                  -- cycle of the binding
  rampAt  : Nat                  -- cycle at which the current ramp interval began
  rampI   : Nat                  -- RAMP.INTERVAL and RAMP.SLEW that the binding took (R385)
  rampSlew : Nat
  lastFmt : Nat                  -- weight number of the format it last ran (Table 17.1); 0 when it has run none
  issue   : Nat
  throttled : Nat
  ce      : Nat
  ue      : Nat
  sdc     : Nat
  deriving DecidableEq, Repr

/-- A permit that bank `bank` holds until a cycle; `key` names the operation, `used` that it has started (R309). -/
structure Permit where
  bank   : Nat
  key    : Nat
  until_ : Nat
  used   : Bool
  deriving DecidableEq, Repr

/-- A request for a permit: the cycle it was made in, its bank and its operation. -/
structure PermitReq where
  at_  : Nat
  bank : Nat
  key  : Nat
  deriving DecidableEq, Repr

/-- One tier's permits (R309, R310). -/
structure Tier where
  value   : Nat
  holders : List Permit
  waiting : List PermitReq
  deriving DecidableEq, Repr

/-- An entry of the context table, with the registers a context shares (Tables 16.1, 8.4, R255). -/
structure Ctx where
  st   : Nat               -- 0 FREE, 1 LIVE, 2 DYING, 3 QUARANTINE
  prot : Bool
  inn  : Nat
  rtb  : Nat
  gtb  : Word
  biv  : Nat
  entry : Word
  tvec : Word              -- TVEC (Table 9.4): ENTRY as of the last bind, or as a CSR write left it
  q    : Tbl (Option Nat)
  rplT : Word
  rplS : Word
  rplSat : Word
  rplUfl : Word
  rplCan : Word
  rplX : Bool
  engaged : List (Nat × Nat × Nat)  -- region index, the task that engaged it, and the bank that owns it
  badRgn : List Nat        -- malformed region entries whose index the scrivener has recorded (R246)
  kill : Option (Nat × Bool × Nat × Nat) -- the dying IN, free, agents yet to acknowledge (bit mask), cycle
  parts : List Nat         -- parts sent a request of the context
  silent : List (Nat × Nat) -- quarantined IN and the part that is silent
  lack : Option Nat        -- the value that lacks a quarantine slot
  fenced : List (Nat × Bool) -- fences completed: IN and whether it was quarantined
  deriving DecidableEq, Repr

/-- A cairn (R352). -/
structure Cairn where
  h    : Nat
  sealed : Bool
  deriving DecidableEq, Repr

/-- An accepted task (R24, R216, R348, R352, R378). -/
structure Task where
  ctx    : Nat
  inn    : Nat
  rcd    : List Word       -- the launch record, DW0 to DW31
  cairns : Tbl Cairn
  allow  : Nat
  copyBytes : Nat
  misses : Nat
  ropeCyc : Nat            -- rope cycles bound
  ropeCharged : Nat        -- of these, charged by the purser
  arrCyc : Nat             -- array issue cycles outside granted replays
  repCyc : Nat             -- array issue cycles of granted replays (R218)
  total  : Nat             -- picojoules
  mat    : Nat
  row    : Nat
  mem    : Nat
  link   : Nat
  enTask : Nat             -- nanojoules as of the last interval
  enMat  : Nat
  enRow  : Nat
  enMem  : Nat
  enLink : Nat
  threads : List Nat       -- ropes whose threads have started
  halts  : List Nat        -- ropes whose threads have halted or stopped
  trigs  : List Nat        -- ropes whose threads have triggered
  ended  : Bool
  start  : Nat
  epoch  : Nat             -- the weight epoch at its acceptance (R275)
  frames : List (Nat × Nat) -- rope and frame number
  replayOf : Option (Nat × Nat)
  started : Bool
  bestEffort : Bool
  stop   : Nat             -- the budget for whose overrun it is being stopped; 0 none (R393)
  deriving DecidableEq, Repr

/-- What a task's agent has stored and not published (R266 to R276). -/
inductive PKind where
  | store                     -- an ordinary store or a row written back early (R307)
  | shadow                    -- an engine write (R276)
  deriving DecidableEq, Repr

/-- An unpublished write. -/
structure PStore where
  agent : Nat
  ctx   : Nat
  inn   : Nat
  task  : Nat
  kind  : PKind
  cmd   : Nat               -- the engine command that wrote it
  done  : Bool              -- that command has completed
  due   : Nat := 0          -- its completion number on the rope
  seen  : Bool              -- a WAIT has included its token (R276)
  cls   : Nat
  scope : Nat
  home  : Nat               -- package bank that fixes the region's scope instance (R264)
  ord   : Nat := 0          -- number of the rope's row-queue entry that it follows (R271)
  pa    : Nat
  data  : List (BitVec 8)
  strip : Bool              -- held in the strip store buffer (R285)
  wb    : Bool := false     -- a row register's write-back, which its bank senses (R113)
  pois  : BitVec 1536 := 0  -- poisoned words of such a row
  at_   : Nat := 0          -- cycle of the store's issue (R269)
  isCopy : Bool := false    -- a copy engine's write, which a WAIT on its token includes (R276)
  deriving DecidableEq, Repr

/-- Bytes that a task's members still read as its phase found them, another task or the host having published since (R266, R267). -/
structure Snap where
  task  : Nat
  scope : Nat
  home  : Nat
  old   : Tbl (BitVec 8)    -- by row address
  bad   : List Nat          -- of these, the poisoned ones
  deriving DecidableEq, Repr

/-- A task's working copy of a PHASED word (R273); `task` is past 2^40 for agents of another part that no task here stands for. -/
structure AmoCopy where
  task  : Nat
  scope : Nat
  home  : Nat
  pa    : Nat
  len   : Nat
  value : Word
  deriving DecidableEq, Repr

/-- Where an access goes (R247, R252). -/
inductive Target where
  | row (pa : Nat) (cls scope home : Nat)
  | weight (w : Nat)
  | scratch (off : Nat)
  | remote (part : Nat) (va : Nat) (cls : Nat)
  deriving DecidableEq, Repr

/-- What a leader access in flight does when it is performed. -/
inductive ReqOp where
  | load (sext : Bool)
  | store (v : Word)
  | lda
  | sta (v : Word)
  | amo (op : Nat) (v : Word)
  | cas (expect v : Word)
  | fill                      -- a line that nothing waits for (R258, R288)
  | diag                      -- a diagnostic access to a cell (R408)
  deriving DecidableEq, Repr

/-- A leader access in flight (R272, R283, R287). -/
structure Req where
  id     : Nat
  leader : Nat
  ctx    : Nat
  inn    : Nat
  task   : Nat
  d      : Nat
  op     : ReqOp
  va     : Nat
  len    : Nat
  tgt    : Target
  done   : Bool              -- performed, answer on its way
  miss   : Bool := false     -- its line is in no cache: its bank must serve it first (R258)
  val    : Word
  poison : Bool
  hint   : Nat
  born   : Nat               -- cycle of its issue
  deriving DecidableEq, Repr

/-- A logical extent's versions: physical extent and the epoch of its publication (R316, R275). -/
structure Extent where
  cur   : Option Nat
  since : Nat
  prev  : Option Nat
  deriving DecidableEq, Repr

/-- A staging frame: physical extent and page held, and the tasks that pin it (R319, R321). -/
structure SFrame where
  phys : Nat
  page : Nat
  pins : List Nat
  place : Nat               -- its frame number in its stack, which fixes its two rows (R317)
  deriving DecidableEq, Repr

/-- A consignment at the hub (R324, R325). -/
structure Consign where
  id     : Nat
  leader : Nat
  tok    : Nat
  ctx    : Nat
  inn    : Nat
  task   : Nat
  src    : Nat
  ext0   : Nat
  n      : Nat
  shadows : List Nat
  pages  : Tbl Nat          -- pages programmed, per extent of the consignment
  code   : Nat
  ended  : Bool
  verified : Bool
  deriving DecidableEq, Repr

/-- A flash physical extent (R316, R330). -/
structure Phys where
  erases  : Nat
  retired : Bool
  used    : Bool
  deriving DecidableEq, Repr

/-- The flash weight store and its staging cache (R316 to R331). -/
structure Weights where
  exts   : Tbl Extent
  phys   : Tbl Phys
  bytes  : Mem              -- contents by physical extent × 2^26 + offset
  frames : List SFrame      -- most recently used first
  epoch  : Nat
  queue  : List Consign
  stages : List (Nat × CopyCmd)
  consigns : List (Nat × CopyCmd)
  purse  : Nat
  purseSet : Nat
  day    : Nat
  budget : Tbl Nat           -- endurance budget per stack, 2,700 where not listed (R330)
  fills  : Tbl Nat
  rereads : Tbl Nat
  uepages : Tbl Nat
  progs  : Tbl Nat
  erasesN : Tbl Nat
  retiredN : Tbl Nat
  nextId : Nat
  want   : List (Nat × Nat × Nat)   -- pages owed a fill: physical extent, page, task (R319, R320)
  fcStale : Nat
  deriving DecidableEq, Repr

/-- A launch request: where its answer goes and what it names (R350, R351, R418). -/
structure LaunchReq where
  leader : Option (Nat × Nat)   -- rope and token
  slot   : Option Nat           -- mailbox slot
  ctx    : Nat
  inn    : Nat
  task   : Nat               -- the task that issued it; 0 for the host
  level  : Nat
  va     : Nat
  deriving DecidableEq, Repr

/-- The answer to an access of another part: the agent and (CTX, IN) that made it, a cause or 0 with the value, and whether the data is
uncorrectable (R243). -/
structure Answer where
  agent  : Nat
  ctx    : Nat
  inn    : Nat
  cause  : Nat
  value  : Word
  poison : Bool
  deriving DecidableEq, Repr

/-- A message of the domain ports to part `part` about a tag: its kill, the acknowledgement of the kill that the part sent, or the end of its
quarantine (R359, R360, R362). -/
inductive PortMsg where
  | kill (part ctx inn : Nat)
  | ack (part ctx inn : Nat)
  | announce (ctx inn : Nat)
  deriving DecidableEq, Repr

/-- The hub: purser, settings, queues of launches (R31, R34, R40, R351, R378 to R386). -/
structure Hub where
  arriving : List LaunchReq
  launches : List LaunchReq
  binds  : Tbl (List Word)
  clash  : List Nat           -- bind records whose conflict the scrivener has recorded (R369)
  nextTask : Nat
  step   : Nat
  low    : Nat
  permit : Nat
  rowLow : Nat
  slew   : Nat
  interval : Nat
  cap    : Nat
  hstep  : Nat
  wrow   : Nat
  pmax   : Nat
  staging : Nat               -- GiB per stack (R22)
  lastUs : Nat                -- purser intervals ended
  thermal : Bool              -- the thermal rule has raised STEP in this interval (R427)
  bootStaging : Nat           -- operator settings that the next package reset takes: staging GiB, ring MiB, EBASE
  bootRing : Nat
  bootRingAt : Option Nat     -- the row address of the ring's region that the next package reset takes
  bootEbase : Nat
  replay : Option (Nat × Nat)
  routes : Tbl Nat            -- part number to port; 16 or more unreachable
  remoteTags : List (Nat × Nat × Nat)  -- sending part, CTX, IN
  answers : List Answer       -- answers to other parts on their way (R243)
  asks   : List (Nat × Nat × Nat × Nat × Nat)  -- reads of W-space by other parts that wait for a page: agent, CTX, IN, address, length (R319)
  portOut : List PortMsg      -- kill messages on their way to other parts (R359, R362)
  portOrphan : Tbl Nat
  portStale : Tbl Nat
  sliceStale : Tbl Nat
  recovery : Bool
  service : Bool              -- EPSTAT bit 1: 0 at reset, set once the loaded firmware has run (R6, log entry 59)
  booted : List (List (BitVec 8))  -- first 48 bytes of the image digests
  link   : Bool               -- the UCIe link is trained
  deriving DecidableEq, Repr

/-- One mailbox slot (R417). -/
structure MailSlot where
  req  : Word
  cmd  : Word                -- the request that is under way, as it started (R417)
  rsp  : Word
  busy : Bool
  order : Nat                -- place of its request in arrival order; 0 when none waits for the hub
  deriving DecidableEq, Repr

/-- A message from the part to the host: OPC, tag, STAT, and data or slot number (Table 19.7). -/
structure HostMsg where
  opc  : Nat
  tag  : Nat
  stat : Nat
  data : List (BitVec 8)
  slot : Nat
  deriving DecidableEq, Repr

/-- The host port (R411 to R417): the host reaches the part only through the hub's UCIe endpoint (R11). -/
structure HostPort where
  windows : Tbl (List Word)
  ebase : Nat
  even  : Word
  slots : Tbl MailSlot
  tags  : List Nat           -- outstanding tags
  out   : List HostMsg       -- messages sent, oldest first
  order : Nat
  orphan : Nat
  stale : Nat
  deriving DecidableEq, Repr

/-- A record-ring entry: type, context, incarnation, task, time, lost, body (Table 19.5). -/
structure RingEntry where
  type : Nat
  ctx  : Nat
  inn  : Nat
  task : Nat
  time : Nat
  lost : Nat
  body : List Word
  deriving DecidableEq, Repr

/-- The scrivener's ring (R425). -/
structure Ring where
  size  : Nat                -- entries the region holds, entry 0 being the head index
  head  : Nat
  lost  : Nat
  entries : Tbl (Option RingEntry)
  base  : Option Nat         -- row address at which the ring's region lies; none while the operator has placed it nowhere
  deriving DecidableEq, Repr

/-- A saved frame or save image (R403, R376): what the save engine wrote, with the header's fields. -/
structure Frame where
  v      : Bool
  ctx    : Nat
  inn    : Nat
  task   : Nat
  rope   : Nat
  level  : Nat
  inst   : Nat
  ord    : Nat
  saved  : Nat
  flags  : BitVec 5
  pend   : Option TrapRec
  leader : Leader
  banks  : List (Nat × Bank)
  arrays : List (Nat × Array_)
  latches : List (Nat × Nat × Slot)   -- evicted latches: bank, slot
  openRows : List (Nat × Nat × Slot)  -- registers recorded as open at the save
  rpl    : List Word                  -- a save image: the replay registers RPL.T to RPL.X (Table 8.5)
  deriving DecidableEq, Repr

/-- The whole package. -/
structure State where
  -- the model's own inputs and counters
  agenda : List Activity
  turn   : Nat
  cur    : Seq
  free   : Nat
  down   : Bool
  -- clocks
  cycle  : Nat
  -- the machine
  leaders : Tbl Leader
  banks   : Tbl Bank
  arrays  : Tbl Array_
  tiers   : Tbl Tier
  ctxs    : Tbl Ctx
  tasks   : Tbl Task
  hub     : Hub
  host    : HostPort
  ring    : Ring
  counts  : Tbl Nat           -- the purser's interval so far: counts of events by weight number × 2^33 + task, task 0 for CTX 0 (R378, R379)
  weights : Weights
  -- memory
  rows    : Mem               -- published row space by row address (R240)
  ecc     : Tbl (BitVec 8)    -- stored check bits of words whose code is not the correct one, by word address
  actCnt  : Tbl Nat           -- activation counts by row number
  l2      : Tbl (List CLine)  -- the L2 slices by slice × 8,192 + set, most recently used first (R21, R258)
  cacheOld : List (Nat × Nat × BitVec 8)  -- bytes that a cache holds and whose cell a diagnostic store has changed: rope, or 192 for L2; row address; byte (R409)
  pend    : List PStore       -- unpublished writes, oldest first
  amos    : List AmoCopy
  promised : List (Nat × Nat) -- STREAMED bytes that have been published: row address and length (R271)
  snaps   : List Snap         -- snapshots that differ from the published bytes, oldest first
  reqs    : List Req
  reqNum  : Nat
  frames  : Tbl (Option Frame)  -- saved frames by row address
  images  : List (Nat × Nat × Nat × Nat × Frame)  -- SAVECTX images: context, virtual address, cycle and free count of the write
  deriving DecidableEq, Repr

/-- The thread-scope CSRs at thread start (R85). -/
def Csrs.reset : Csrs where
  vt := 0x400; vl := 0; vxrm := 0; vxsat := false; frm := 0; fflags := 0
  abr0 := 0x0000FFFFFFFFFFFF; abr1 := 0x0000FFFFFFFFFFFF; abr2 := 0x0000FFFFFFFFFFFF; abr3 := 0x0000FFFFFFFFFFFF
  acan := 16; instret := 0; tcause := 0; tpc := 0; tval := 0; telem := 0; tstate := 0

/-- A token at thread start (R334). -/
def Token.reset : Token where
  st := .idle; kind := 0; code := 0; cause := 0; seq := 0; prog := 0; idx := 0; aux := 0; num := 0

/-- A leader after package reset: no binding, the thread registers at the values of a thread start (R85). -/
def Leader.reset : Leader where
  bind := none; run := false; imem := []; pc := 0; x := []; xPoison := []; xPend := []
  loops := []; gates := []; level := 0; mm := false; bmr := 0; csr := Csrs.reset; aside := []; gateStore := []
  strip := none; nextStrip := none; commitWait := none; rowq := []; rowNum := 0; matq := []; matRun := []; copyq := []; copyRun := none
  follow := []; cmdNum := 0; engDone := 0; toks := []; seq := 0; scratch := []; tlb := []; lanes := []; l1 := []; async := []; asyncSeen := 0; pendTrap := none
  preempt := false; rewind := none; cpos := []; cairns := []; arrival := none
  wfeAt := none; wfeEv := false; wever := 0; tileSeq := []; killed := false; hop := false; stalled := false; why := 0; issued := false; tag := (0, 0); issue := 0; stalls := []
  orphan := 0; stale := 0; degraded := false; spineLog := []; spineOrd := []; xfer := []; retry := 0; degradedN := 0; poisonedN := 0

/-- A slot after package reset: closed with all fields zero (R117). -/
def Slot.reset : Slot where
  st := .closed; latch := 0; poison := 0; ctx := 0; inn := 0; row := 0; debt := 0; cr := 0; pub := 0
  wp := false; sw := false; ds := false; cc := false; cw := 0; scope := 0; cls := 0; wbing := false; preReq := false; pred := false
  forced := 0; task := 0; reg := 0; home := 0; wmask := 0; lnMask := 0; lnAt := 0; busy := false; until_ := 0; actAt := 0; wrAt := 0; rdAt := 0; useAt := 0; refPtr := 0; grace := none; alert := []; nearTo := 0; wbAt := 0; tickAt := none

/-- A bank after package reset (R117, R129, Table 9.5). -/
def Bank.reset : Bank where
  slots := []; y := []; p := []; vt := 0x400; vl := 0; lq := []; fflags := 0; vxsat := false; frm := 0; vxrm := 0
  loops := []; run := none; bpc := (0, 0); tfetch := false; trap := none; lastTrap := none; disp := 0; trapQ := []; strip := none; regions := []; engTo := 0; vmems := []
  resume := (false, 0); wave := 0; waits := false; multi := none; owed := []; blocks := []; fetchUe := false; entryNum := 0; wever := 0; upset := none; aerr := []; aerrOrd := []; sendUe := 0; foreign := []; acts := []; laneAt := 0; issue := 0; stalls := []; why := 0; issued := false
  ce := 0; ue := 0; refdue := 0; closeRef := 0; closeOpen := 0; alerts := 0; debtMax := 0; fqStale := 0; hop := false

/-- An empty plane (R182). -/
def Plane.reset : Plane where
  st := 0; fmt := 0; claim := none; data := []; ecc := []

/-- An accumulator line of valid length 0 (R184). -/
def Line.reset : Line where
  vlen := 0; dirty := false; data := []; ecc := []

/-- An array after package reset. -/
def Array_.reset : Array_ where
  ctx := 0; inn := 0; owner := none; p0 := Plane.reset; p1 := Plane.reset; lines := []
  stream0 := []; stream1 := none; stream2 := none; stream3 := none; ages := []; cur := none; tiles := []; eps := []
  sat := 0; ufl := 0; can := 0; unitUe := false; step := 0; ramp := 0; filler := false; fillFor := 0; bindAt := 0; rampAt := 0; rampI := 0; rampSlew := 0; lastFmt := 0
  issue := 0; throttled := 0; ce := 0; ue := 0; sdc := 0

/-- A tier after package reset: the permit is 16 (R384). -/
def Tier.reset : Tier where
  value := 16; holders := []; waiting := []

/-- A context-table entry after package reset: FREE, all zero (Table 16.1). -/
def Ctx.reset : Ctx where
  st := 0; prot := false; inn := 0; rtb := 0; gtb := 0; biv := 0; entry := 0; tvec := 0; q := []
  rplT := 0; rplS := 0; rplSat := 0; rplUfl := 0; rplCan := 0; rplX := false; engaged := []; badRgn := []
  kill := none; parts := []; silent := []; lack := none; fenced := []

/-- A task number that admission has not assigned. -/
def Task.reset : Task where
  ctx := 0; inn := 0; rcd := []; cairns := []; allow := 0; copyBytes := 0; misses := 0; ropeCyc := 0; ropeCharged := 0; arrCyc := 0; repCyc := 0; total := 0; mat := 0; row := 0
  mem := 0; link := 0; enTask := 0; enMat := 0; enRow := 0; enMem := 0; enLink := 0; threads := []; halts := []; trigs := []
  ended := false; start := 0; epoch := 0; frames := []; replayOf := none; started := false; bestEffort := false; stop := 0

/-- A cairn at acceptance (R352). -/
def Cairn.reset : Cairn where
  h := 0; sealed := false

/-- A logical extent with no version (R316). -/
def Extent.reset : Extent where
  cur := none; since := 0; prev := none

/-- A free physical extent that was never erased. -/
def Phys.reset : Phys where
  erases := 0; retired := false; used := false

/-- The weight store after package reset: no version, nothing staged, the default endurance budget (R330). -/
def Weights.reset : Weights where
  exts := []; phys := []; bytes := []; frames := []; epoch := 0; queue := []; stages := []; consigns := []
  purse := 0; purseSet := 0; day := 0; budget := []; fills := []; rereads := []; uepages := []; progs := []
  erasesN := []; retiredN := []; nextId := 1; want := []; fcStale := 0

/-- The hub after package reset: the default settings (R22, R40, R371, R384, Table 9.3). -/
def Hub.reset : Hub where
  arriving := []; launches := []; binds := []; clash := []; nextTask := 1; step := 0; low := 0; permit := 16; rowLow := 0
  slew := 400; interval := 20; cap := 4800; hstep := 4; wrow := 600; pmax := 16; staging := 16; lastUs := 0; bootStaging := 16; bootRing := 64; bootRingAt := none; bootEbase := 0
  thermal := false; replay := none; routes := []; remoteTags := []; answers := []; asks := []; portOut := []; portOrphan := []; portStale := []; sliceStale := []
  recovery := false; service := false; booted := []; link := true

/-- A mailbox slot after package reset (Tables 19.2, 19.3). -/
def MailSlot.reset : MailSlot where
  req := 0; cmd := 0; rsp := 0; busy := false; order := 0

/-- The host port after package reset. -/
def HostPort.reset : HostPort where
  windows := []; ebase := 0; even := 0; slots := []; tags := []; out := []; order := 0; orphan := 0; stale := 0

/-- The record ring after package reset: 64 MiB, head 0. -/
def Ring.reset : Ring where
  size := 1048576; head := 0; lost := 0; entries := []; base := none

/-- The machine right after package reset: nothing bound, every row register closed, every token IDLE, context 0 LIVE (R355),
the clocks at 0, memory with nothing listed. -/
def State.reset : State where
  agenda := []; turn := 0; cur := .leader 0; free := 0; down := false; cycle := 0
  leaders := []; banks := []; arrays := []; tiers := []; ctxs := [(0, { Ctx.reset with st := 1 })]; tasks := []
  hub := Hub.reset; host := HostPort.reset; ring := Ring.reset; counts := []; weights := Weights.reset
  rows := []; ecc := []; actCnt := []; l2 := []; cacheOld := []; pend := []; amos := []; promised := []; snaps := []; reqs := []; reqNum := 1; frames := []; images := []

end Sys2Proof.Machine
end

