-- ==== Sys2Proof/Machine/Ops.lean ====
section
/-! DEFINITION. The named operations over the state: tables, numbering, accessors, the completion of an instruction, taking a trap and
returning from one, bank traps, and the start of a kill. Everything else is written over these. -/
namespace Sys2Proof.Machine

open Host (Outcome)

/-! ### Tables -/

/-- The value at `k`, or the default. -/
def tget {α : Type} (d : α) : Tbl α → Nat → α
  | [], _ => d
  | (a, v) :: r, k => if a = k then v else tget d r k

/-- The table without an entry at `k`. -/
def tdel {α : Type} (t : Tbl α) (k : Nat) : Tbl α := t.filter fun e => e.1 != k

/-- Insert in key order. -/
def tins {α : Type} (k : Nat) (v : α) : Tbl α → Tbl α
  | [] => [(k, v)]
  | (a, w) :: r => if k < a then (k, v) :: (a, w) :: r else (a, w) :: tins k v r

/-- Set the value at `k`; the default value is not listed. -/
def tput {α : Type} [DecidableEq α] (d : α) (t : Tbl α) (k : Nat) (v : α) : Tbl α :=
  if v = d then tdel t k else tins k v (tdel t k)

/-- Change every listed value; one that becomes the default is no longer listed. -/
def tmap {α : Type} [DecidableEq α] (d : α) (f : Nat → α → α) : Tbl α → Tbl α
  | [] => []
  | (a, v) :: r => if f a v = d then tdel (tmap d f r) a else (a, f a v) :: tmap d f r

/-- Keys strictly rising from above `lo`, and no entry equal to the default. -/
def twfFrom {α : Type} [DecidableEq α] (d : α) : Nat → Tbl α → Bool
  | _, [] => true
  | lo, (a, v) :: r => decide (lo ≤ a) && decide (v ≠ d) && twfFrom d (a + 1) r

/-- The canonical form of a table. -/
def twf {α : Type} [DecidableEq α] (d : α) (t : Tbl α) : Bool := twfFrom d 0 t

/-- The canonical form of a memory whose unlisted bytes read 0. -/
def Mem.wf (m : Mem) : Bool := twf 0 m

/-! ### Bits and bytes -/

/-- 1 for true, 0 for false. -/
def b01 (b : Bool) : Word := if b then 1 else 0
/-- The bit field `[hi:lo]` of a word, as a number. -/
def bits (w : Word) (hi lo : Nat) : Nat := (w.toNat / 2 ^ lo) % 2 ^ (hi + 1 - lo)
/-- Bit `k` of a word. -/
def bit (w : Word) (k : Nat) : Bool := w.getLsbD k
/-- Little-endian value of bytes (R1). -/
def leNat : List (BitVec 8) → Nat
  | [] => 0
  | b :: r => b.toNat + 256 * leNat r
/-- The `n` little-endian bytes of a number (R1). -/
def leBytes : Nat → Nat → List (BitVec 8)
  | 0, _ => []
  | n + 1, v => BitVec.ofNat 8 v :: leBytes n (v / 256)
/-- The signed value of the low `w` bits of `x` (R61). -/
def sextN (x w : Nat) : Int := if x % 2 ^ w < 2 ^ (w - 1) then (x % 2 ^ w : Nat) else (x % 2 ^ w : Nat) - (2 ^ w : Nat)
/-- An integer modulo 2^w (R61). -/
def wrapZ (x : Int) (w : Nat) : Nat := (x % (2 ^ w : Nat)).toNat
/-- An integer as a 64-bit word. -/
def wordZ (x : Int) : Word := BitVec.ofInt 64 x
/-- Bytes of memory: one at a time through the table. -/
def memByte (m : Mem) (a : Nat) : BitVec 8 := tget 0 m a
/-- `n` bytes from `a`. -/
def memBytes (m : Mem) (a : Nat) : Nat → List (BitVec 8)
  | 0 => []
  | n + 1 => memByte m a :: memBytes m (a + 1) n
/-- Write bytes from `a` upward. -/
def memPut (m : Mem) (a : Nat) : List (BitVec 8) → Mem
  | [] => m
  | b :: r => memPut (tput 0 m a b) (a + 1) r
/-- The little-endian doubleword at `a`. -/
def memDw (m : Mem) (a : Nat) : Word := BitVec.ofNat 64 (leNat (memBytes m a 8))
/-- Split off the part of a table inside `[a, a + n)`. -/
def window {α : Type} (t : Tbl α) (a n : Nat) : Tbl α := t.filter fun e => decide (a ≤ e.1) && decide (e.1 < a + n)

/-! ### Numbering (R15, R16, R318) -/

/-- The package bank number of rope bank index `i` of package rope `n`: of the 192 ropes, 24 lie in each of the eight row stacks (R11, R15). -/
def bankOf (n i : Nat) : Nat := 768 * (n / 24) + 48 * (i / 2) + 2 * (n % 24) + i % 2
/-- The package rope of a bank. -/
def ropeOf (g : Nat) : Nat := 24 * (g / 768) + (g % 48) / 2
/-- The rope bank index of a bank. -/
def rbiOf (g : Nat) : Nat := 2 * ((g % 768) / 48) + g % 2
/-- The tier of a bank, counted through the package. -/
def tierOf (g : Nat) : Nat := g / 48
/-- Tiers that a staging cache of `c` GiB reserves in each stack (R317). -/
def reservedTiers (c : Nat) : Nat := (2 * c + 8) / 9
/-- Whether rope bank index `i` is granted (R318). -/
def State.granted (s : State) (i : Nat) : Bool := decide (i < 2 * (16 - reservedTiers s.hub.staging))
/-- The granted banks of a rope as a mask (R318). -/
def State.grantedMask (s : State) : BitVec 32 := BitVec.ofNat 32 (2 ^ (2 * (16 - reservedTiers s.hub.staging)) - 1)
/-- Agent numbers (R263, Table 11.1). -/
def bankAgent (g : Nat) : Nat := Config.partNumber * 8192 + g
def leaderAgent (n : Nat) : Nat := Config.partNumber * 8192 + 6144 + n
def hostAgent : Nat := Config.partNumber * 8192 + 6336
/-- Nanoseconds since package reset: 2.5 cycles a nanosecond (R3, R228). -/
def State.time (s : State) : Nat := 2 * s.cycle / 5

/-! ### Accessors -/

def State.leader (s : State) (n : Nat) : Leader := tget Leader.reset s.leaders n
def State.setLeader (s : State) (n : Nat) (l : Leader) : State := { s with leaders := tput Leader.reset s.leaders n l }
def State.bank (s : State) (g : Nat) : Bank := tget Bank.reset s.banks g
def State.setBank (s : State) (g : Nat) (b : Bank) : State := { s with banks := tput Bank.reset s.banks g b }
def State.array (s : State) (a : Nat) : Array_ := tget Array_.reset s.arrays a
def State.setArray (s : State) (a : Nat) (v : Array_) : State := { s with arrays := tput Array_.reset s.arrays a v }
def State.ctx (s : State) (c : Nat) : Ctx := tget Ctx.reset s.ctxs c
def State.setCtx (s : State) (c : Nat) (v : Ctx) : State := { s with ctxs := tput Ctx.reset s.ctxs c v }
def State.task (s : State) (t : Nat) : Task := tget Task.reset s.tasks t
def State.setTask (s : State) (t : Nat) (v : Task) : State := { s with tasks := tput Task.reset s.tasks t v }
def State.tier (s : State) (t : Nat) : Tier := tget Tier.reset s.tiers t
def State.setTier (s : State) (t : Nat) (v : Tier) : State := { s with tiers := tput Tier.reset s.tiers t v }
def Bank.slot (b : Bank) (k : Nat) : Slot := tget Slot.reset b.slots k
def Bank.setSlot (b : Bank) (k : Nat) (v : Slot) : Bank := { b with slots := tput Slot.reset b.slots k v }
def State.slot (s : State) (g k : Nat) : Slot := (s.bank g).slot k
def State.setSlot (s : State) (g k : Nat) (v : Slot) : State := s.setBank g ((s.bank g).setSlot k v)
def Leader.tok (l : Leader) (t : Nat) : Token := tget Token.reset l.toks t
def Leader.setTok (l : Leader) (t : Nat) (v : Token) : Leader := { l with toks := tput Token.reset l.toks t v }
def Task.cairn (t : Task) (c : Nat) : Cairn := tget Cairn.reset t.cairns c
def Task.dw (t : Task) (k : Nat) : Word := t.rcd.getD k 0

/-- `xr(n)`: x0 reads zero (R61, R84). -/
def Leader.xr (l : Leader) (n : Nat) : Word := if n = 0 then 0 else tget 0 l.x n
/-- `xw(n, v)`: a write to x0 has no effect; any other write also clears the register's poison mark (R61, R84, R284). -/
def Leader.xw (l : Leader) (n : Nat) (v : Word) : Leader :=
  if n = 0 then l else { l with x := tput 0 l.x n v, xPoison := tput none l.xPoison n none, xPend := tput 0 l.xPend n 0 }
def State.xr (s : State) (n r : Nat) : Word := (s.leader n).xr r
def State.xw (s : State) (n r : Nat) (v : Word) : State := s.setLeader n ((s.leader n).xw r v)
/-- `yr(n)`: y0 reads zero (R61, R126). -/
def Bank.yr (b : Bank) (n : Nat) : Word := if n = 0 then 0 else tget 0 b.y n
/-- `yw(n, v)`: a write to y0 has no effect (R61, R126). -/
def Bank.yw (b : Bank) (n : Nat) (v : Word) : Bank := if n = 0 then b else { b with y := tput 0 b.y n v }
/-- A predicate: p0 reads as all ones (R48, R126). -/
def Bank.pr (b : Bank) (n : Nat) : PredBits := if n = 0 then BitVec.allOnes 12288 else tget 0 b.p n
def Bank.pw (b : Bank) (n : Nat) (v : PredBits) : Bank := if n = 0 then b else { b with p := tput 0 b.p n v }
/-- The context, incarnation and task bound to a rope; CTX 0 with no binding. -/
def Leader.ctxOf (l : Leader) : Nat := match l.bind with | some b => b.ctx | none => 0
def Leader.innOf (l : Leader) : Nat := match l.bind with | some b => b.inn | none => 0
def Leader.taskOf (l : Leader) : Nat := match l.bind with | some b => b.task | none => 0
def Leader.protOf (l : Leader) : Bool := match l.bind with | some b => b.prot | none => false
/-- A free value of the given width, for a value the spec leaves open (R8); the counter advances with each use. -/
def State.freeVal (s : State) (w : Nat) : BitVec w := Config.freeValue w s.free
def State.useFree (s : State) : State := { s with free := s.free + 1 }
/-- The context table entry is LIVE under this incarnation, or CTX is 0 (R357). -/
def State.live (s : State) (c i : Nat) : Bool := c == 0 || ((s.ctx c).st == 1 && (s.ctx c).inn == i)

/-- The same by the copy of the live incarnation table that agents of group `k` hold, which a kill changes when its wave reaches them (R357, R359):
0 leaders, spines and copy engines; 1 L2 slices; 2 foreign queues; 3 arrays; 4 flash controller; 5 domain ports; 6 UCIe endpoint; 7 fabric. -/
def State.liveAt (s : State) (k c i : Nat) : Bool :=
  s.live c i || (s.ctx c).kill.any fun e => e.1 == i && e.2.2.1.testBit k
/-- The tag bound to rope `n` still passes at its copy engine and wherever its transfers arrive in the package (R357, Table 16.3). -/
def State.copyLive (s : State) (n : Nat) : Bool :=
  (s.leader n).bind.any fun (b : Binding) => s.liveAt 0 b.ctx b.inn && s.liveAt 1 b.ctx b.inn && s.liveAt 7 b.ctx b.inn
/-- A request of context `c` goes to another part, which joins the context's part set (R360). -/
def State.toPart (s : State) (c part : Nat) : State :=
  let x := s.ctx c
  s.setCtx c { x with parts := if x.parts.contains part then x.parts else x.parts ++ [part] }
/-- The task of the rope's thread is being stopped for a budget (R393). -/
def State.stopping (s : State) (n : Nat) : Bool := (s.leader n).bind.isSome && (s.task (s.leader n).taskOf).stop != 0
/-- A live incarnation is bound to the rope (R23). -/
def State.boundLive (s : State) (n : Nat) : Bool := (s.leader n).bind.any fun (b : Binding) => s.live b.ctx b.inn

/-! ### The record ring (R425) -/

/-- The eight doublewords of an entry (Table 19.5). -/
def RingEntry.dws (e : RingEntry) : List Word :=
  [BitVec.ofNat 64 (e.type * 2 ^ 56 + e.ctx * 2 ^ 46 + e.inn * 2 ^ 32 + e.task), BitVec.ofNat 64 e.time, BitVec.ofNat 64 (e.lost * 2 ^ 32)] ++
    (e.body ++ [0, 0, 0, 0, 0]).take 5
/-- Doublewords reach row memory at `pa`, a multiple of 8, with correct codes. -/
def State.putDws (s : State) (pa : Nat) (ws : List Word) : State :=
  let out := fun (a : Nat) => decide (a < pa) || decide (pa + 8 * ws.length ≤ a)
  { s with rows := memPut s.rows pa (ws.flatMap fun w => leBytes 8 w.toNat), ecc := s.ecc.filter fun e => out (8 * e.1)
           cacheOld := s.cacheOld.filter fun e => out e.2.1 }
/-- Doublewords reach the frame that holds the saved thread of rope `r` of task `t`, `off` bytes from its start (Table 18.4). -/
def State.frameDws (s : State) (t r off : Nat) (ws : List Word) : State :=
  match s.frames.find? fun e => e.2.any fun f => f.v && f.task == t && f.rope == r with
  | some e => s.putDws (e.1 + off) ws
  | none => s
/-- The strip word of a frame's header (Table 18.5, DW8). -/
def Leader.stripDw (l : Leader) : Word :=
  BitVec.ofNat 64 (match l.strip with | some x => 2 ^ 63 + (if x.spoiled then 0 else 2 ^ 62) | none => 0)
/-- The doubleword that keeps the poison mark of x register `k`: bit 63 and the address, or 0. -/
def Leader.markDw (l : Leader) (k : Nat) : Word := match tget none l.xPoison k with | some va => BitVec.ofNat 64 (2 ^ 63 + va % 2 ^ 52) | none => 0
/-- DW0 of a frame's header. -/
def Frame.dw0 (f : Frame) : Word := BitVec.ofNat 64 ((if f.v then 2 ^ 63 else 0) + f.ctx * 2 ^ 48 + f.inn * 2 ^ 34 + f.task)
/-- The frames that `sel` selects hold no save any more: V is 0 in the record and in memory (R406, R407). -/
def State.dropFrames (s : State) (sel : Frame → Bool) : State :=
  let gone := s.frames.filter fun e => e.2.any fun f => f.v && sel f
  gone.foldl (fun s e => match e.2 with
    | some f => ({ s with frames := tput none s.frames e.1 (some { f with v := false }) }).putDws e.1 [{ f with v := false }.dw0]
    | none => s) s
/-- Write one entry. It never stalls anything. Where the operator has placed the ring's region, the entry reaches its memory, and the newest
entry's index its first doubleword (log entry 40). -/
def State.record (s : State) (type ctx inn task : Nat) (body : List Word) : State :=
  let r := s.ring
  let room := max 1 (r.size - 1)
  let at_ := r.head % room + 1
  let full := decide (room ≤ r.head)
  let e : RingEntry := { type := type, ctx := ctx, inn := inn, task := task, time := s.time,
                         lost := if full then r.lost + 1 else 0, body := body }
  let t := { s with ring := { r with head := r.head + 1, lost := 0, entries := tput none r.entries at_ (some e) } }
  match r.base with
  | none => t
  | some b => (t.putDws (b + 64 * at_) e.dws).putDws b [BitVec.ofNat 64 at_]

/-- `k` events of weight number `cls` happen on a request of task `t`, 0 standing for CTX 0 (R378, R379). -/
def State.charge (s : State) (cls t k : Nat) : State :=
  if k = 0 then s else { s with counts := tput 0 s.counts (cls * 2 ^ 33 + t) (tget 0 s.counts (cls * 2 ^ 33 + t) + k) }

/-- `k` beats cross the spine of rope `n` on a request of task `t`; a degraded spine sends each twice (R313, R378). -/
def State.beats (s : State) (n t k : Nat) : State := s.charge 8 t (if (s.leader n).degraded then 2 * k else k)
/-- Beats of 768 bytes that `len` bytes take. -/
def beatsOf (len : Nat) : Nat := (len + 767) / 768

/-! ### Completing a leader instruction (R87, R102, R226) -/

/-- The loop test of R102 at the last word's address `e`: the stack after it, and where the back-jump goes if there is one. -/
def loopTest (e : Nat) : List LoopEntry → List LoopEntry × Option Nat
  | [] => ([], none)
  | t :: r =>
    if t.last = e then
      if 1 < t.count then ({ t with count := t.count - 1 } :: r, some t.start) else loopTest e r
    else (t :: r, none)

/-- INSTRET and ISSUE count the instruction (Tables 9.3, 17.2). -/
def Leader.counted (l : Leader) : Leader :=
  { l with csr := { l.csr with instret := l.csr.instret + 1 }, issue := l.issue + 1, stalled := false, why := 0, issued := true }
/-- The instruction completes by going to `p` by no back-jump or backward transfer (R105). -/
def Leader.movedTo (l : Leader) (p : Word) : Leader := { l.counted with pc := p, hop := false }

/-- The instruction of `len` bytes completes without a taken transfer: PC advances, the loop test applies (R87, R102). -/
def Leader.retired (l : Leader) (len : Nat) : Leader :=
  let e := (l.pc + BitVec.ofNat 64 len - 4).toNat
  let (ls, back) := loopTest e l.loops
  { l.counted with loops := ls, hop := back.isSome, pc := match back with | some t => BitVec.ofNat 64 t | none => l.pc + BitVec.ofNat 64 len }
def State.retire (s : State) (n len : Nat) : State := s.setLeader n ((s.leader n).retired len)
/-- A branch or jump in the innermost body, at `from_`, goes to a place of that body at or below its own (R105). -/
def hopsBack (ls : List LoopEntry) (from_ dest : Nat) : Bool :=
  match ls with
  | [] => false
  | t :: _ => decide (t.start ≤ dest ∧ dest ≤ from_ ∧ from_ ≤ t.last)
/-- The instruction completes with a taken transfer: no loop test (R102). -/
def Leader.jumped (l : Leader) (target : Word) : Leader :=
  { l.counted with pc := target, hop := hopsBack l.loops l.pc.toNat target.toNat }
def State.jump (s : State) (n : Nat) (target : Word) : State := s.setLeader n ((s.leader n).jumped target)
/-- Write `v` to x register `d` and complete. -/
def State.result (s : State) (n d : Nat) (v : Word) (len : Nat) : State := (s.xw n d v).retire n len
/-- The thread waits at its instruction (R105), for the reason `cause` of Table 17.3: the cycles that pass until its next attempt count in
STALL.`cause` (R388), nothing else changes. -/
def State.stall (s : State) (n cause : Nat) : State := s.setLeader n { s.leader n with why := cause, stalled := true }
/-- The leader waits before its instruction has issued. -/
def State.holds (s : State) (n cause : Nat) : State := s.setLeader n { s.leader n with why := cause }
/-- `k` cycles pass for a bound leader: those in which it issues nothing count in the stall counter of its cause, OTHER where it has none (R388). -/
def Leader.passes (l : Leader) (k : Nat) : Leader :=
  let n := k - if l.issued then 1 else 0
  let c := if l.why = 0 then 0x0B else l.why
  if l.bind.isNone || k = 0 then l
  else { l with stalls := if n = 0 then l.stalls else tput 0 l.stalls c (tget 0 l.stalls c + n), issued := false }

/-! ### Traps (R235, R236, R389 to R395) -/

/-- The code of a cause (Table 18.1). -/
def Cause.code : Cause → Nat
  | .illegal => 0x01 | .priv => 0x02 | .misaligned => 0x03 | .regionMiss => 0x04 | .permission => 0x05
  | .regionEngaged => 0x06 | .rowState => 0x07 | .refdue => 0x09 | .openLimit => 0x0A | .gateOvf => 0x0B | .gateUnf => 0x0C
  | .brk => 0x0D | .syscall => 0x0E | .budget => 0x0F | .ueConsumed => 0x10 | .sdc => 0x11 | .ueFatal => 0x12
  | .asyncFault => 0x13 | .bankTrap => 0x14 | .lqEmpty => 0x16

/-- TSTATE.ACT: a delivered trap is being handled (Table 9.4). -/
def Leader.act (l : Leader) : Bool := bit l.csr.tstate 8

/-- Trap delivery (R235): TCAUSE, TPC, TVAL, TELEM and TSTATE are written, the loop stack is set aside, the thread enters level K,
mask mode 0, at the handler entry of TVEC. A stack that an earlier trap had set aside, and whose handler wrote ACT to 0, is overwritten: the model's
choice (log entry 104). -/
def Leader.trapped (l : Leader) (entry : Word) (t : TrapRec) : Leader :=
  { l with
    csr := { l.csr with
      tcause := BitVec.ofNat 64 (256 * t.bank + t.cause.code)
      tpc := t.tpc &&& ~~~3#64
      tval := t.tval
      telem := t.telem
      tstate := BitVec.ofNat 64 (256 + 32 * l.loops.length + (if l.mm then 4 else 0) + l.level.toNat) }
    aside := l.loops, loops := [], level := 2, mm := false, pc := entry, hop := false, stalled := false, why := 0 }
def State.deliver (s : State) (n : Nat) (t : TrapRec) : State :=
  s.setLeader n ((s.leader n).trapped (s.ctx (s.leader n).ctxOf).tvec t)

/-- The value of IN after this one: the first following value that no valid Qi holds (R361). -/
def nextIn (q : Tbl (Option Nat)) (i : Nat) : Nat :=
  let held := fun v => q.any fun e => e.2 == some v
  let c := (List.range 9).map fun k => (i + 1 + k) % 16384
  (c.find? fun v => !held v).getD ((i + 1) % 16384)

/-- A task's cairns are sealed with the H they hold (R353). -/
def Task.sealAll (t : Task) : Task :=
  { t with cairns := (List.range 64).foldl (fun c k => tput Cairn.reset c k { tget Cairn.reset c k with sealed := true }) t.cairns }

/-- Wake the WFE of every thread, the saved ones too, whose task depends on a cairn of a task that `sel` selects (R234). -/
def State.wakeDeps (s : State) (sel : Nat → Nat → Bool) : State :=
  let hit := fun (l : Leader) => l.bind.isSome && (List.range 8).any fun e =>
    let w := (s.task l.taskOf).dw (24 + e)
    bit w 63 && !bit w 62 && sel (bits w 47 16) (bits w 5 0)
  { s with leaders := tmap Leader.reset (fun _ l => if hit l then { l with wfeEv := true } else l) s.leaders
           frames := s.frames.map fun (e : Nat × Option Frame) => match e.2 with
             | some f => if f.v && hit f.leader then (e.1, some { f with leader := { f.leader with wfeEv := true } }) else e
             | none => e }

/-- Step 1 of a kill (R360): STATE becomes DYING and IN its next value in one step, the old tag's bind records are invalidated,
its threads stop at their next boundary, its cairns are sealed; the reclaim wave is under way to every agent group. -/
def State.startKill (s : State) (c i : Nat) (free : Bool) : State :=
  let e := s.ctx c
  if c = 0 ∨ e.st ≠ 1 ∨ e.inn ≠ i then s else
  let s := s.setCtx c { e with st := 2, inn := nextIn e.q e.inn, kill := some (i, free, 0xFF, s.cycle) }
  let s := { s with hub := { s.hub with binds := s.hub.binds.filter fun b =>
               !(bits (b.2.getD 0 0) 57 48 == c && bits (b.2.getD 0 0) 47 34 == i) } }
  let s := { s with leaders := tmap Leader.reset (fun _ l =>
               if l.bind.any fun (b : Binding) => b.ctx == c && b.inn == i then { l with killed := true } else l) s.leaders }
  let s := s.wakeDeps fun t k => (s.task t).ctx == c && (s.task t).inn == i && !((s.task t).cairn k).sealed
  let s := { s with tasks := tmap Task.reset (fun _ t =>
               if t.ctx == c && t.inn == i then { t.sealAll with ended := true } else t) s.tasks }
  s.record 8 c i 0 []

/-- The firmware kills the incarnation of a thread on its own account (R364): the thread has stopped. -/
def State.killThread (s : State) (n : Nat) : State :=
  let l := s.leader n
  (s.setLeader n { l with run := false }).startKill l.ctxOf l.innOf false

/-- A precise trap at the leader's instruction (R391). While TSTATE.ACT is 1 it is not delivered: the thread stops and its
incarnation is killed (R235, R364). -/
def State.trap (s : State) (n : Nat) (c : Cause) (tval telem : Word) : State :=
  if (s.leader n).act then s.killThread n
  else s.deliver n { cause := c, bank := 0, tpc := (s.leader n).pc, tval := tval, telem := telem }

/-- Return from a trap (R236): the loop stack set aside comes back, level and mask mode are PLEVEL and PMM, ACT clears, execution
continues at TPC. -/
def Leader.returned (l : Leader) : Leader :=
  { l.counted with
    csr := { l.counted.csr with tstate := l.csr.tstate &&& ~~~0x1E0#64 }
    hop := false, loops := l.aside, aside := [], level := l.csr.tstate.extractLsb' 0 2, mm := bit l.csr.tstate 2, pc := l.csr.tpc }

/-- The first and second word of an instruction as TVAL holds them (R54); the upper half is 0 for a one-word instruction. -/
def wordsVal (ws : List IWord) : Word :=
  match ws with
  | [] => 0
  | [w] => BitVec.ofNat 64 w.toNat
  | w :: v :: _ => BitVec.ofNat 64 (w.toNat + 2 ^ 32 * v.toNat)
def instrWords (i : Instr) : Word := wordsVal (encode i)
/-- The length in bytes of an encoded instruction. -/
def instrLen (i : Instr) : Nat := 4 * (encode i).length

/-- The strip of the rope can still be rewound: nothing has spoiled it, and no register was open-dirty when it opened at its bank (R400). -/
def State.rewindable (s : State) (n : Nat) : Bool :=
  match (s.leader n).strip with
  | none => false
  | some st => !st.spoiled && !st.rewound &&
    !((List.range 32).any fun i => (s.bank (bankOf n i)).strip.any fun (x : BStrip) => x.regs.any fun r => r.1 == .openDirty)

/-- UE_CONSUMED, or SDC_DETECTED at a bank, met inside an open strip: a rewind if the strip can be rewound, UE_FATAL otherwise
(R398, R400). Outside a strip the trap `other` is taken. -/
def State.consume (s : State) (n : Nat) (t : TrapRec) (other : State) : State :=
  match (s.leader n).strip with
  | none => other
  | some _ =>
    if s.rewindable n then
      let l := s.leader n
      (s.setLeader n { l with rewind := some t }).record 6 l.ctxOf l.innOf l.taskOf [BitVec.ofNat 64 t.cause.code, t.tpc]
    else (s.killThread n).record 5 (s.leader n).ctxOf (s.leader n).innOf (s.leader n).taskOf [0x12]

/-- A poisoned x register is read: UE_CONSUMED before any state changes, TVAL the address of the data (R284). -/
def State.consumeX (s : State) (n va : Nat) : State :=
  s.consume n { cause := .ueConsumed, bank := 0, tpc := (s.leader n).pc, tval := BitVec.ofNat 64 va, telem := 0 }
    (s.trap n .ueConsumed (BitVec.ofNat 64 va) 0)

/-! ### Bank traps and the completion of a bank instruction (R44, R174, R394) -/

/-- The IMEM byte address of the bank's next instruction. -/
def Bank.pcAddr (b : Bank) : Word :=
  match b.run with
  | some r => BitVec.ofNat 64 (4 * (r.desc % 65536 + r.wpos))
  | none => BitVec.ofNat 64 (4 * (b.bpc.1 % 65536 + b.bpc.2))

/-- The bank's block: its descriptor and the word index of the instruction. -/
def Bank.at_ (b : Bank) : Nat × Nat := match b.run with | some r => (r.desc, r.wpos) | none => b.bpc
/-- Word `w` of the bank's block, as its leader's IMEM holds it (R41, R43). -/
def State.blockWord (s : State) (g w : Nat) : BitVec 32 :=
  tget 0 (s.leader (ropeOf g)).imem ((s.bank g).at_.1 % 65536 + w)

/-- The bank stops with a trap record (R394). -/
def State.bankTrap (s : State) (g : Nat) (c : Cause) (tval telem : Word) : State :=
  let b := s.bank g
  s.setBank g { b with trap := some { cause := c, disp := b.disp, tpc := b.pcAddr, tval := tval, telem := telem,
                                      kind := .instr, seen := false } }

/-- UE_CONSUMED or SDC_DETECTED at a bank instruction (R146, R398, R402). A bank that the strip's entry has not reached yet is not in the
strip: it traps. -/
def State.bankConsume (s : State) (g : Nat) (c : Cause) (tval telem : Word) : State :=
  if (s.bank g).strip.isNone then s.bankTrap g c tval telem else
  s.consume (ropeOf g) { cause := c, bank := rbiOf g, tpc := (s.bank g).pcAddr, tval := tval, telem := telem }
    (s.bankTrap g c tval telem)

/-- An illegal word at whichever sequencer issued it (R54): a precise trap at a leader, a bank trap at a bank. -/
def State.illegalAt (s : State) (tval : Word) : State :=
  match s.cur with
  | .leader n => s.trap n .illegal tval 0
  | .bank g => s.bankTrap g .illegal tval 0

/-- Every bank has completed the entry. -/
def RowEntry.over (e : RowEntry) : Bool := e.open_ == 0 && e.todo == 0 && e.commit == 0 && e.strips == 0
/-- The bank `i` of rope `n` has completed entry `num` of the row queue; entries leave in order, each once every bank has completed it
(R29, R333). -/
def Leader.entryDone (l : Leader) (num i : Nat) : Leader :=
  let q := l.rowq.map fun e => if e.num = num then { e with open_ := e.open_ &&& ~~~(1#32 <<< i) } else e
  { l with rowq := q.dropWhile RowEntry.over }

/-- The block ends: the bank is ready for its next row-queue entry (R44, R138). The bank PC keeps the descriptor and the word index it
had: what it reads while no block is current the spec does not say (log entry 57). -/
def State.endBlock (s : State) (g : Nat) : State :=
  let b := s.bank g
  match b.run with
  | none => s.setBank g { b with tfetch := false, loops := [] }
  | some r =>
    let s := s.setBank g { b with run := none, bpc := (r.desc, r.wpos), tfetch := false, loops := [], resume := (false, 0), wave := 0, waits := false }
    match r.entry with
    | none => s
    | some num => s.setLeader (ropeOf g) ((s.leader (ropeOf g)).entryDone num (rbiOf g))

/-- Words in the block a descriptor names (Table 2.1). -/
def blockLen (desc : Nat) : Nat := (desc / 65536) % 64 + 1

/-- The bank continues at word `w` of its block; past the last word the block ends, or traps when a loop is still open (R174). -/
def State.blockGoto (s : State) (g w : Nat) : State :=
  let b := s.bank g
  match b.run with
  | none => s
  | some r =>
    if w < blockLen r.desc then s.setBank g { b with run := some { r with wpos := w } }
    else if b.loops = [] then (s.setBank g { b with run := some { r with wpos := w % 64 } }).endBlock g
    else s.setBank g { b with trap := some { cause := .illegal, disp := b.disp, tpc := b.pcAddr,
                                             tval := BitVec.ofNat 64 b.loops.length, telem := 0, kind := .blockEnd, seen := false } }

/-- A bank instruction issues (Table 17.2). -/
def Bank.counted (b : Bank) : Bank := { b with issue := b.issue + 1, why := 0, issued := true }
/-- A bank instruction of `len` bytes completes without a taken transfer: the bank loop test, then the next word (R173, R102). -/
def State.bretire (s : State) (g len : Nat) : State :=
  let b := s.bank g
  match b.run with
  | none => s.setBank g { b.counted with waits := false }
  | some r =>
    let last := r.wpos + len / 4 - 1
    let (ls, back) := loopTest last b.loops
    let s := s.setBank g { b.counted with loops := ls, hop := back.isSome, waits := false }
    s.blockGoto g (match back with | some w => w | none => last + 1)

/-- A bank instruction completes with a taken branch to word `w`. -/
def State.bjump (s : State) (g w : Nat) : State :=
  let b := s.bank g
  match b.run with
  | none => s
  | some r => (s.setBank g { b.counted with hop := hopsBack b.loops r.wpos w, waits := false }).blockGoto g w

/-- A bank instruction waits (R112, R124, R309): the cycles that pass until its next attempt count in STALL.`cause` (0x01 to 0x03), nothing else
changes. -/
def State.bstall (s : State) (g cause : Nat) : State := s.setBank g { s.bank g with why := cause }
/-- `k` cycles pass for a bank: those in which an instruction is held count in the counter of its cause (Table 17.2). -/
def Bank.passes (b : Bank) (k : Nat) : Bank :=
  let n := k - if b.issued then 1 else 0
  if k = 0 then b
  else { b with stalls := if n = 0 ∨ b.why = 0 then b.stalls else tput 0 b.stalls b.why (tget 0 b.stalls b.why + n), issued := false }

/-! ### Where a rope may be pre-empted (R25, R105, R173, R404) -/

/-- The leader is inside a hardware loop. -/
def Leader.inLoop (l : Leader) : Bool :=
  match l.loops with
  | [] => false
  | t :: _ => decide (t.start ≤ l.pc.toNat ∧ l.pc.toNat ≤ t.last)
/-- The word at a leader's PC. -/
def Leader.fetchWord (l : Leader) (k : Nat) : BitVec 32 := tget 0 l.imem (l.pc.toNat / 4 + k)
/-- The thread is stalled in WAIT, BELAY, BELAY.RED, SETVL.C, RECLAIM, WFE or HALT: a pre-emption point anywhere (R105). -/
def Leader.atLongWait (l : Leader) : Bool :=
  let w := (l.fetchWord 0).toNat
  let maj := w / 2 ^ 26
  let fn4 := w / 2 ^ 12 % 16
  let fn := w / 2 ^ 8 % 8
  l.stalled && (maj == 0x33 || (maj == 0x1A && (fn4 == 0xA || fn4 == 0xB)) || (maj == 0x1B && fn4 == 0) || (maj == 0x1C && decide (fn ≤ 1))
    || (maj == 0x1D && fn == 2))
/-- The leader is at a point where it may be pre-empted (R105). -/
def Leader.mayYield (l : Leader) : Bool := !l.inLoop || l.hop || l.atLongWait
/-- The bank is at a point where it may be pre-empted: an instruction boundary outside a hardware loop or between iterations, or a wait
of a wave that keeps its RESUME index (R25, R173, R311). -/
def Bank.mayYield (b : Bank) : Bool :=
  b.multi.isNone && !b.run.any (fun r => r.coll.isSome) && (b.loops.isEmpty || b.hop || b.waits || b.run.isNone)
/-- A bank of the rope is stopped by a trap inside a hardware loop: only the handler brings it to a point of R25. -/
def State.trapInLoop (s : State) (n : Nat) : Bool :=
  (List.range 32).any fun i => let b := s.bank (bankOf n i); b.trap.isSome && !b.mayYield
/-- A pre-emption is asked for and the leader is at its point: it issues nothing more until the save (R404). -/
def State.yielding (s : State) (n : Nat) : Bool :=
  let l := s.leader n
  l.preempt && l.run && !l.killed && l.mayYield && l.rewind.isNone && !s.trapInLoop n
/-- Bank `g` stops at its own point for that save; a collective under way on the rope is completed first. While the thread's task is being stopped for
a budget it stops at its next instruction boundary (R393). -/
def State.bankHeld (s : State) (g : Nat) : Bool :=
  (s.stopping (ropeOf g) && (s.bank g).multi.isNone) || s.yielding (ropeOf g) && (s.bank g).mayYield &&
    !((List.range 32).any fun i => (s.bank (bankOf (ropeOf g) i)).run.any fun r => r.coll.isSome)

/-! ### The frames of a meaning -/

/-- The room that an instruction waits for beside its operands, as its STALL cause; 0x0A where there is none (Table 17.3). -/
def State.roomCause (s : State) (n : Nat) (ws : List IWord) : Nat :=
  let l := s.leader n
  let w := (ws.getLastD 0).toNat
  let maj := w / 2 ^ 26
  let fn := w / 2 ^ 8 % 8
  let busy := fun (k : Nat) => !((l.tok k).st == .idle || (l.tok k).st == .done || (l.tok k).st == .fault)
  let many := fun (p : ReqOp → Bool) => decide (15 ≤ (s.reqs.filter fun r => r.leader == n && p r.op).length)
  if maj = 0x1D ∧ fn < 6 ∨ maj = 0x1C ∧ (fn < 2 ∨ fn = 3 ∨ fn = 4) then (if 64 ≤ l.rowq.length then 5 else 0x0A)
  else if maj = 0x30 ∨ maj = 0x31 then (if 32 ≤ l.matq.length then 6 else 0x0A)
  else if maj = 0x32 ∨ maj = 0x34 then (if 32 ≤ l.copyq.length || busy (w / 2 ^ 23 % 8) then 7 else 0x0A)
  else if maj = 0x1C ∧ fn = 5 then (if busy (w / 2 ^ 11 % 8) then 7 else 0x0A)
  else if maj = 0x0C then (if many fun o => match o with | .load _ => true | _ => false then 8 else 0x0A)
  else if maj = 0x0D then (if many fun o => match o with | .store _ => true | _ => false then 8 else 0x0A)
  else if maj = 0x0E then
    (if s.reqs.any fun r => r.leader == n && !r.done && (match r.op with | .lda | .sta _ | .amo _ _ | .cas _ _ => true | _ => false) then 8 else 0x0A)
  else 0x0A
/-- An instruction waits for a source that an earlier load has not produced: the first cause of Table 17.3 that holds, the wait for a VRD result
when that is what a source waits for. -/
def State.pendCause (s : State) (n : Nat) (ws : List IWord) (srcs : List Nat) : Nat :=
  let l := s.leader n
  if srcs.any fun r => r != 0 && l.rowq.any fun e => match e.op with
      | .vrd _ _ req => req == tget 0 l.xPend r
      | _ => false
  then 0x04 else s.roomCause n ws

/-- A leader-side or engine instruction with words `ws` that reads the x registers `srcs`: in a bank's stream it is misplaced (R54);
it waits for a source that an earlier load has not produced (R86); of a poisoned source, `pre` answers the trap of the first own check that needs
none of the poisoned operands and fails, and where there is none the source is consumed (R284, R390); otherwise its effect `f` happens. -/
def onLeaderP (ws : List IWord) (srcs : List Nat) (pre : Nat → State → Option State) (f : Nat → State → State) (s : State) :
    Outcome State Fault Refusal :=
  match s.cur with
  | .bank g => .next (s.bankTrap g .illegal (wordsVal ws) 0)
  | .leader n =>
    let l := s.leader n
    if srcs.any fun r => r != 0 && tget 0 l.xPend r != 0 then .next (s.stall n (s.pendCause n ws srcs))
    else match srcs.findSome? fun r => if r = 0 then none else tget none l.xPoison r with
      | some va => .next ((pre n s).getD (s.consumeX n va))
      | none => .next (f n s)
/-- The same of an instruction with no own check before the consumption. -/
def onLeaderW (ws : List IWord) (srcs : List Nat) (f : Nat → State → State) (s : State) : Outcome State Fault Refusal :=
  onLeaderP ws srcs (fun _ _ => none) f s
def onLeaderC (i : Instr) (srcs : List Nat) (pre : Nat → State → Option State) (f : Nat → State → State) (s : State) :
    Outcome State Fault Refusal := onLeaderP (encode i) srcs pre f s
/-- Register `r` carries no poison mark. -/
def Leader.clean (l : Leader) (r : Nat) : Bool := r == 0 || (tget none l.xPoison r).isNone
/-- The trap of an own check of an instruction with the sources `rs` that fails with the value `bad`, where that is the value of a source without
poison and of none with it (R390, log entry 93). -/
def State.ownTrap (s : State) (n : Nat) (rs : List Nat) (bad : Option Word) : Option State :=
  let l := s.leader n
  bad.bind fun v =>
    if (rs.any fun r => l.clean r && s.xr n r == v) && !rs.any fun r => !l.clean r && s.xr n r == v then some (s.trap n .illegal v 0) else none
def onLeader (i : Instr) (srcs : List Nat) (f : Nat → State → State) (s : State) : Outcome State Fault Refusal :=
  onLeaderW (encode i) srcs f s

/-- A K encoding (R55 check 4): at U or G it traps PRIV with the word in TVAL, before any operand is read. `pre` as above. -/
def onLeaderKC (i : Instr) (srcs : List Nat) (pre : Nat → State → Option State) (f : Nat → State → State) (s : State) : Outcome State Fault Refusal :=
  match s.cur with
  | .bank g => .next (s.bankTrap g .illegal (instrWords i) 0)
  | .leader n => if (s.leader n).level.toNat < 2 then .next (s.trap n .priv (instrWords i) 0) else onLeaderC i srcs pre f s
def onLeaderK (i : Instr) (srcs : List Nat) (f : Nat → State → State) (s : State) : Outcome State Fault Refusal :=
  onLeaderKC i srcs (fun _ _ => none) f s

/-- A bank-side instruction with words `ws`: in a leader's stream it is misplaced (R54); otherwise its effect `f` happens. -/
def onBankW (ws : List IWord) (f : Nat → State → State) (s : State) : Outcome State Fault Refusal :=
  match s.cur with
  | .leader n => .next (s.trap n .illegal (wordsVal ws) 0)
  | .bank g => .next (f g s)
def onBank (i : Instr) (f : Nat → State → State) (s : State) : Outcome State Fault Refusal := onBankW (encode i) f s

/-- An event of the part, its firmware or the host: it happens to the whole state. -/
def onEvent (f : State → State) (s : State) : Outcome State Fault Refusal := .next (f s)

end Sys2Proof.Machine
end

