-- ==== Sys2Proof/Machine/Flags.lean ====
section
/-! DEFINITION. Number formats, the rounding helpers, and the flags each arithmetic step gives: FFLAGS and VXSAT (R61 to R83). A real is
a sign, a magnitude and a power of two, so every step below is exact until it rounds. -/
namespace Sys2Proof.Machine

/-- FFLAGS: NV DZ OF UF NX in bits 4 to 0 (R77). -/
abbrev FFlags := BitVec 5
def flNV : FFlags := 16#5
def flDZ : FFlags := 8#5
def flOF : FFlags := 4#5
def flUF : FFlags := 2#5
def flNX : FFlags := 1#5

/-- A value of a floating-point step: NaN, a signed infinity, or (−1)^neg × m × 2^e; zero keeps its sign. -/
inductive FVal where
  | nan
  | inf (neg : Bool)
  | fin (neg : Bool) (m : Nat) (e : Int)
  deriving DecidableEq, Repr

/-- Parameters of a format with exponent and fraction fields (Tables 3.3 and 3.5). `top` is the maximum finite significand as an
integer of `p` bits; the bias is 1 − emin in every one of them. -/
structure Fmt where
  w    : Nat
  p    : Nat
  emin : Int
  emax : Int
  top  : Nat
  ieee : Bool           -- all-ones exponents are infinities and NaNs
  cnan : Nat            -- the canonical NaN; 0 where there is none
  quiet : Nat           -- the quiet bit of an IEEE-structured format; 0 for MX formats
  deriving DecidableEq, Repr

def fmtBF16 : Fmt := { w := 16, p := 8, emin := -126, emax := 127, top := 255, ieee := true, cnan := 0x7FC0, quiet := 0x40 }
def fmtFP16 : Fmt := { w := 16, p := 11, emin := -14, emax := 15, top := 2047, ieee := true, cnan := 0x7E00, quiet := 0x200 }
def fmtFP32 : Fmt :=
  { w := 32, p := 24, emin := -126, emax := 127, top := 16777215, ieee := true, cnan := 0x7FC00000, quiet := 0x400000 }
def fmtFP64 : Fmt :=
  { w := 64, p := 53, emin := -1022, emax := 1023, top := 2 ^ 53 - 1, ieee := true, cnan := 0x7FF8000000000000, quiet := 2 ^ 51 }
def fmtE4M3 : Fmt := { w := 8, p := 4, emin := -6, emax := 8, top := 14, ieee := false, cnan := 0x7F, quiet := 0 }
def fmtE5M2 : Fmt := { w := 8, p := 3, emin := -14, emax := 15, top := 7, ieee := true, cnan := 0x7E, quiet := 0 }
def fmtE3M2 : Fmt := { w := 6, p := 3, emin := -2, emax := 4, top := 7, ieee := false, cnan := 0, quiet := 0 }
def fmtE2M3 : Fmt := { w := 6, p := 4, emin := 0, emax := 2, top := 15, ieee := false, cnan := 0, quiet := 0 }
def fmtE2M1 : Fmt := { w := 4, p := 2, emin := 0, emax := 2, top := 3, ieee := false, cnan := 0, quiet := 0 }

/-- The exponent-and-fraction format of a code (Table 3.1). -/
def fmtOf (code : Nat) : Option Fmt :=
  match code with
  | 0x08 => some fmtBF16 | 0x09 => some fmtFP16 | 0x0A => some fmtFP32 | 0x0B => some fmtFP64
  | 0x0C => some fmtE4M3 | 0x0D => some fmtE5M2 | 0x0E => some fmtE3M2 | 0x0F => some fmtE2M3 | 0x10 => some fmtE2M1
  | _ => none
/-- Integer format codes; the code is one of the floating-point lane formats; a packed format. -/
def isIntCode (c : Nat) : Bool := decide (c < 8)
def isSignedCode (c : Nat) : Bool := decide (c < 4)
def isFpCode (c : Nat) : Bool := decide (8 ≤ c ∧ c < 12)
def isPackedCode (c : Nat) : Bool := decide (12 ≤ c)
/-- `esize()` of a code in bytes (R63, R64). -/
def esizeOf (c : Nat) : Nat :=
  if c < 8 then 2 ^ (c % 4) else if c < 10 then 2 else if c = 10 then 4 else if c = 11 then 8 else 1

/-! ### Reading and rounding -/

/-- ⌊log2⌋ of a nonzero magnitude. -/
def floorLog2 (m : Nat) (e : Int) : Int := (Nat.log2 m : Int) + e

/-- `fp_in(b, F)` without the input flush (R61, R71). -/
def fpVal (F : Fmt) (b : Nat) : FVal :=
  let neg := b / 2 ^ (F.w - 1) % 2 == 1
  let mag := b % 2 ^ (F.w - 1)
  let ex := mag / 2 ^ (F.p - 1)
  let fr := mag % 2 ^ (F.p - 1)
  if F.ieee ∧ ex = 2 ^ (F.w - F.p) - 1 then (if fr = 0 then .inf neg else .nan)
  else if F.ieee = false ∧ F.cnan ≠ 0 ∧ mag = F.cnan then .nan
  else if ex = 0 then .fin neg fr (F.emin - F.p + 1)
  else .fin neg (2 ^ (F.p - 1) + fr) (F.emin - F.p + ex)
/-- `fp_in(b, F)`: a subnormal reads as a zero of its sign when VT.FZ flushes inputs (R69). -/
def fpIn (F : Fmt) (fz : Nat) (b : Nat) : FVal :=
  match fpVal F b with
  | .fin neg m e => if fz / 2 % 2 = 1 ∧ m < 2 ^ (F.p - 1) then .fin neg 0 0 else .fin neg m e
  | v => v
/-- A signaling NaN of an IEEE-structured format (R67, R71). -/
def isSnan (F : Fmt) (b : Nat) : Bool :=
  F.quiet != 0 && (fpVal F b == .nan) && (b / F.quiet % 2 == 0)
def snanFlag (F : Fmt) (b : Nat) : FFlags := if isSnan F b then flNV else 0

/-- `round_int` of n / d with sign `neg` (R62). Codes of Table 3.9. -/
def roundInt (mode : Nat) (neg : Bool) (n d : Nat) : Nat :=
  let q := n / d
  let r := n % d
  let up := match mode with
    | 0 => decide (d < 2 * r) || (decide (2 * r = d) && q % 2 == 1)
    | 1 => false
    | 2 => neg && r != 0
    | 3 => !neg && r != 0
    | _ => decide (d ≤ 2 * r)
  if up then q + 1 else q
/-- m × 2^k as a fraction. -/
def asFrac (m : Nat) (k : Int) : Nat × Nat := (m * 2 ^ k.toNat, 2 ^ (-k).toNat)
/-- m × 2^a < n × 2^b. -/
def ltScaled (m : Nat) (a : Int) (n : Nat) (b : Int) : Bool := decide (m * 2 ^ (a - b).toNat < n * 2 ^ (b - a).toNat)

def signBit (F : Fmt) (neg : Bool) : Nat := if neg then 2 ^ (F.w - 1) else 0
/-- The pattern of the maximum finite magnitude, and of infinity. -/
def maxPat (F : Fmt) : Nat := (F.emax - F.emin).toNat * 2 ^ (F.p - 1) + F.top
def infOrMax (F : Fmt) (neg : Bool) : Nat := signBit F neg + (if F.ieee then maxPat F + 1 else maxPat F)
/-- `overflow_result` (R62). -/
def overflowResult (F : Fmt) (mode : Nat) (neg : Bool) : Nat :=
  let toInf := match mode with | 1 => false | 2 => neg | 3 => !neg | _ => true
  signBit F neg + (if F.ieee && toInf then maxPat F + 1 else maxPat F)

/-- `round_fp(x, F)` under a mode and a VT.FZ: the pattern and the flags (R61, R62). -/
def roundFp (F : Fmt) (mode fz : Nat) (x : FVal) : Nat × FFlags :=
  match x with
  | .nan => (F.cnan, 0)
  | .inf neg => (infOrMax F neg, 0)
  | .fin neg m e =>
    if m = 0 then (signBit F neg, 0) else
    let ex := floorLog2 m e
    let ue := max ex F.emin - F.p + 1
    let fr := asFrac m (e - ue)
    let k := roundInt mode neg fr.1 fr.2
    let inexact := decide (fr.1 % fr.2 ≠ 0)
    if ltScaled F.top (F.emax - F.p + 1) k ue then (overflowResult F mode neg, flOF ||| flNX)
    else
      let te := ex - F.p + 1
      let tf := asFrac m (e - te)
      let t := roundInt mode neg tf.1 tf.2
      let tiny := ltScaled t te 1 F.emin
      let fl : FFlags := (if inexact then flNX else 0) ||| (if tiny && inexact then flUF else 0)
      if ltScaled k ue 1 F.emin ∧ fz % 2 = 1 then (signBit F neg, fl ||| flUF ||| flNX)
      else (signBit F neg + ((ue - (F.emin - F.p + 1)).toNat * 2 ^ (F.p - 1) + k), fl)

/-- `round_int` of a real of a signed value, times 2^k: the signed integer, and whether it is exact. -/
def roundToInt (mode : Nat) (neg : Bool) (m : Nat) (e : Int) : Int × Bool :=
  let fr := asFrac m e
  let q := roundInt mode neg fr.1 fr.2
  (if neg then -(q : Int) else q, decide (fr.1 % fr.2 = 0))

/-- `round_fix(x, s)` under VXRM (R61). -/
def roundFix (mode : Nat) (x : Int) (s : Nat) : Int :=
  if s = 0 then x else
  let q := x / (2 ^ s : Nat)
  let r := (x % (2 ^ s : Nat)).toNat
  let half := 2 ^ (s - 1)
  match mode with
  | 0 => if half ≤ r then q + 1 else q
  | 1 => if half < r ∨ (r = half ∧ q % 2 ≠ 0) then q + 1 else q
  | 2 => q
  | _ => if r ≠ 0 ∧ q % 2 = 0 then q + 1 else q

/-- `sat_s` and `sat_u`: the clamped value, and whether VXSAT is set (R61). -/
def satS (x : Int) (w : Nat) : Int × Bool :=
  let hi : Int := 2 ^ (w - 1) - 1
  let lo : Int := -(2 ^ (w - 1))
  if hi < x then (hi, true) else if x < lo then (lo, true) else (x, false)
def satU (x : Int) (w : Nat) : Int × Bool :=
  let hi : Int := 2 ^ w - 1
  if hi < x then (hi, true) else if x < 0 then (0, true) else (x, false)

/-! ### Exact steps -/

/-- The sign of a sum that is exactly zero: a like sign kept, else −0 only under RDN (R62). -/
def zeroSumNeg (mode : Nat) (za zb : Bool) (na nb : Bool) : Bool := if za && zb && (na == nb) then na else mode == 2
/-- Exact sum with the flags of an invalid one (R62, R68). -/
def fAdd (mode : Nat) (a b : FVal) : FVal × FFlags :=
  match a, b with
  | .nan, _ => (.nan, 0)
  | _, .nan => (.nan, 0)
  | .inf p, .inf q => if p = q then (.inf p, 0) else (.nan, flNV)
  | .inf p, _ => (.inf p, 0)
  | _, .inf q => (.inf q, 0)
  | .fin na ma ea, .fin nb mb eb =>
    let e := min ea eb
    let x : Int := (if na then -1 else 1) * (ma * 2 ^ (ea - e).toNat : Nat)
    let y : Int := (if nb then -1 else 1) * (mb * 2 ^ (eb - e).toNat : Nat)
    let z := x + y
    if z = 0 then (.fin (zeroSumNeg mode (ma == 0) (mb == 0) na nb) 0 0, 0)
    else (.fin (decide (z < 0)) z.natAbs e, 0)
/-- Exact product with the flags of an invalid one (R62, R68). -/
def fMul (a b : FVal) : FVal × FFlags :=
  match a, b with
  | .nan, _ => (.nan, 0)
  | _, .nan => (.nan, 0)
  | .inf p, .inf q => (.inf (p != q), 0)
  | .inf p, .fin q m _ => if m = 0 then (.nan, flNV) else (.inf (p != q), 0)
  | .fin q m _, .inf p => if m = 0 then (.nan, flNV) else (.inf (p != q), 0)
  | .fin na ma ea, .fin nb mb eb => (.fin (na != nb) (ma * mb) (ea + eb), 0)
def FVal.negate : FVal → FVal
  | .nan => .nan
  | .inf n => .inf (!n)
  | .fin n m e => .fin (!n) m e
/-- Multiply by 2^k. -/
def FVal.scale (k : Int) : FVal → FVal
  | .fin n m e => .fin n m (e + k)
  | v => v
/-- The exact value of an integer. -/
def fOfInt (z : Int) : FVal := .fin (decide (z < 0)) z.natAbs 0
/-- a < b of two non-NaN values. Zeros compare equal. -/
def fLt (a b : FVal) : Bool :=
  match a, b with
  | .nan, _ => false
  | _, .nan => false
  | .inf p, .inf q => p && !q
  | .inf p, _ => p
  | _, .inf q => !q
  | .fin na ma ea, .fin nb mb eb =>
    let e := min ea eb
    let x : Int := (if na then -1 else 1) * (ma * 2 ^ (ea - e).toNat : Nat)
    let y : Int := (if nb then -1 else 1) * (mb * 2 ^ (eb - e).toNat : Nat)
    decide (x < y)
def FVal.isNan : FVal → Bool
  | .nan => true
  | _ => false
def FVal.isNeg : FVal → Bool
  | .nan => false
  | .inf n => n
  | .fin n _ _ => n

/-! ### Steps on patterns -/

/-- Two-operand step: sNaN flags, the exact result, one rounding. -/
def fStep2 (F : Fmt) (mode fz : Nat) (f : FVal → FVal → FVal × FFlags) (a b : Nat) : Nat × FFlags :=
  let r := f (fpIn F fz a) (fpIn F fz b)
  let q := roundFp F mode fz r.1
  (q.1, snanFlag F a ||| snanFlag F b ||| r.2 ||| q.2)
def fpAdd (F : Fmt) (mode fz a b : Nat) : Nat × FFlags := fStep2 F mode fz (fAdd mode) a b
def fpSub (F : Fmt) (mode fz a b : Nat) : Nat × FFlags := fStep2 F mode fz (fun x y => fAdd mode x y.negate) a b
def fpMul (F : Fmt) (mode fz a b : Nat) : Nat × FFlags := fStep2 F mode fz fMul a b
/-- x × y + z with one rounding; 0 × ∞ is invalid whatever z is (R62, R68). -/
def fpFma (F : Fmt) (mode fz a b c : Nat) : Nat × FFlags :=
  let m := fMul (fpIn F fz a) (fpIn F fz b)
  let r := fAdd mode m.1 (fpIn F fz c)
  let q := roundFp F mode fz r.1
  (q.1, snanFlag F a ||| snanFlag F b ||| snanFlag F c ||| m.2 ||| r.2 ||| q.2)

/-- Conversion to an integer of `w` bits (R78). -/
def fpToInt (mode : Nat) (signed : Bool) (w : Nat) (v : FVal) : Nat × FFlags :=
  let hi : Int := if signed then 2 ^ (w - 1) - 1 else 2 ^ w - 1
  let lo : Int := if signed then -(2 ^ (w - 1)) else 0
  match v with
  | .nan => (0, flNV)
  | .inf n => (wrapZ (if n then lo else hi) w, flNV)
  | .fin n m e =>
    let r := roundToInt mode n m e
    if hi < r.1 then (wrapZ hi w, flNV) else if r.1 < lo then (wrapZ lo w, flNV)
    else (wrapZ r.1 w, if r.2 then 0 else flNX)

/-! ### Microscaling and bit-plane blocks (R70 to R73) -/

/-- 2^(e − 127) applied to an element; NaN scale makes NaN (R70). -/
def scaled (scale : Nat) (v : FVal) : FVal := if scale = 0xFF then .nan else v.scale ((scale : Int) - 127)
/-- The value of MXINT8 element `q` (R71). -/
def mxint8Val (q : Nat) : FVal := let z := sextN q 8; .fin (decide (z < 0)) z.natAbs (-6)
/-- The bits of an element of a scaled format: its width (Table 3.8). -/
def mxWidth (code : Nat) : Nat := match code with | 0x0E => 6 | 0x0F => 6 | 0x10 => 4 | _ => 8
/-- The value of an MX element of code 0x0C to 0x11 before its scale. -/
def mxElem (code q : Nat) : FVal :=
  match fmtOf code with
  | some F => fpVal F (q % 2 ^ F.w)
  | none => mxint8Val q
/-- Planes and midpoint of a BPI code (Table 3.1). -/
def bpiPlanes (code : Nat) : Nat := if code < 0x1A then code - 0x11 else code - 0x18
def bpiMid (code : Nat) : Nat := if code < 0x1A then 0 else 1
/-- The value of an 8-bit BPI element read with `p` planes, before its scale (R73). -/
def bpiVal (code q : Nat) : FVal :=
  let p := bpiPlanes code
  let v := sextN (q % 256 / 2 ^ (8 - p)) p
  let z : Int := 2 * v * (2 ^ (8 - p) : Nat) + (bpiMid code * 2 ^ (8 - p) : Nat)
  .fin (decide (z < 0)) z.natAbs (-7)
/-- An element of any packed code before its scale. -/
def packedElem (code q : Nat) : FVal := if 0x13 ≤ code then bpiVal code q else mxElem code q

/-- The real magnitude is the larger: for step 2 of R72. -/
def maxMag (a : Option (Nat × Int)) (v : FVal) : Option (Nat × Int) :=
  match v with
  | .fin _ m e => if m = 0 then a else match a with
    | none => some (m, e)
    | some (n, f) => if ltScaled n f m e then some (m, e) else a
  | _ => a
/-- One element of step 3 or 4 of R72 into code `code` with shared exponent X. An E5M2 element that rounds above 57,344 under RNE becomes the
infinity of R62, as step 3 says: the model's choice (log entry 97). -/
def packElem (code mode fz : Nat) (x : Int) (v : FVal) : Nat × FFlags :=
  match fmtOf code with
  | some F => roundFp F mode fz (v.scale (-x))
  | none => match v with
    | .nan => (0, 0)
    | .inf n => (if n then 129 else 127, 0)
    | .fin n m e =>
      let r := roundToInt mode n m (e + 6 - x)
      let c := if 127 < r.1 then (127 : Int) else if r.1 < -127 then -127 else r.1
      (wrapZ c 8, (if c ≠ r.1 then flOF ||| flNX else 0) ||| (if r.2 then 0 else flNX))
/-- Pack a block (R72); BPI packs as MXINT8 (R73): the scale byte, the elements, the flags. -/
def packBlock (code mode fz : Nat) (vs : List FVal) : Nat × List Nat × FFlags :=
  if vs.any FVal.isNan then (0xFF, vs.map fun _ => 0, flNV)
  else
    let emaxF : Int := match fmtOf code with | some F => F.emax | none => 0
    let x : Int := match vs.foldl maxMag none with
      | none => -127
      | some (m, e) => max (-127) (min 127 (floorLog2 m e - emaxF))
    let r := vs.map (packElem code mode fz x)
    ((x + 127).toNat, r.map Prod.fst, r.foldl (fun f q => f ||| q.2) 0)

/-! ### Elementary functions (R82, R83) -/

/-- Tb[j], the FP32 significand of 2^(j/64), scaled by 2^23. -/
def exp2Table : List Nat :=
  [0x800000, 0x8164d2, 0x82cd87, 0x843a29, 0x85aac3, 0x871f62, 0x88980f, 0x8a14d5, 0x8b95c2, 0x8d1adf, 0x8ea43a, 0x9031dc,
   0x91c3d3, 0x935a2b, 0x94f4f0, 0x96942d] ++
  [0x9837f0, 0x99e046, 0x9b8d3a, 0x9d3eda, 0x9ef532, 0xa0b051, 0xa27043, 0xa43516, 0xa5fed7, 0xa7cd94, 0xa9a15b, 0xab7a3a,
   0xad583f, 0xaf3b79, 0xb123f6, 0xb311c4] ++
  [0xb504f3, 0xb6fd92, 0xb8fbaf, 0xbaff5b, 0xbd08a4, 0xbf179a, 0xc12c4d, 0xc346cd, 0xc5672a, 0xc78d75, 0xc9b9be, 0xcbec15,
   0xce248c, 0xd06334, 0xd2a81e, 0xd4f35b] ++
  [0xd744fd, 0xd99d16, 0xdbfbb8, 0xde60f5, 0xe0ccdf, 0xe33f89, 0xe5b907, 0xe8396a, 0xeac0c7, 0xed4f30, 0xefe4ba, 0xf28177,
   0xf5257d, 0xf7d0df, 0xfa83b3, 0xfd3e0c]
/-- c1, c2, c3 as integers over 2^24, 2^26 and 2^28: the nearest FP32 values to ln 2, (ln 2)²/2 and (ln 2)³/6. -/
def exp2C1 : Nat := 0xb17218
def exp2C2 : Nat := 0xf5fdf0
def exp2C3 : Nat := 0xe35847
/-- y of R82 for x = z / 2^k: Tb[j] × (1 + q) × 2^n, exactly for −4096 ≤ n ≤ 4096; beyond, every format of R82 overflows or
underflows as at the bound. -/
def exp2Exact (z : Int) (k : Nat) : FVal :=
  let n := max (-4096) (min 4096 (z / (2 ^ k : Nat)))
  let f := (z % (2 ^ k : Nat)).toNat                 -- x − n in units of 2^−k
  let j := 64 * f / 2 ^ k
  let r := 64 * f - j * 2 ^ k                        -- r in units of 2^−(k+6)
  let u := k + 6
  -- q in units of 2^−(28 + 3u)
  let q := exp2C1 * r * 2 ^ (4 + 2 * u) + exp2C2 * r * r * 2 ^ (2 + u) + exp2C3 * r * r * r
  .fin false (exp2Table.getD j 0 * (2 ^ (28 + 3 * u) + q)) (n - 23 - 28 - 3 * (u : Int))
/-- `vfexp2(b, F)`. -/
def fpExp2 (F : Fmt) (mode fz b : Nat) : Nat × FFlags :=
  match fpIn F fz b with
  | .nan => (F.cnan, snanFlag F b)
  | .inf neg => (if neg then 0 else infOrMax F false, 0)
  | .fin neg m e =>
    let z : Int := (if neg then -1 else 1) * (m * 2 ^ e.toNat : Nat)
    roundFp F mode fz (exp2Exact z (-e).toNat)
/-- `vfrece(b, F)`. A subnormal that VT.FZ flushes reads as a zero here and so sets DZ; R61 says of a flushed input that DZ is not set: the
model takes that of the flush alone (log entry 60). -/
def fpRece (F : Fmt) (mode fz b : Nat) : Nat × FFlags :=
  match fpIn F fz b with
  | .nan => (F.cnan, snanFlag F b)
  | .inf neg => (signBit F neg, 0)
  | .fin neg m e =>
    if m = 0 then (infOrMax F neg, flDZ) else
    let l := Nat.log2 m
    let i := (m - 2 ^ l) * 128 / 2 ^ l
    let f := roundInt 0 false 131072 (257 + 2 * i) - 256
    roundFp F mode fz (.fin neg (256 + f) (-(l : Int) - e - 9))

end Sys2Proof.Machine
end

