-- ==== Sys2Proof/Machine/Mem.lean ====
section
/-! DEFINITION. Memory: row addresses and check bits, the region table and translation, the value an access returns, what a store leaves
unpublished, and what a belay, cairn or trigger publishes (R239 to R281, R301 to R303). -/
namespace Sys2Proof.Machine

/-! ### Row addresses and check bits -/

/-- The row address of byte `y` of row `q` of slot `k` of bank `g` (R240). -/
def rowAddr (g k q y : Nat) : Nat := ((g * 8 + k) * 1024 + q) * 12288 + y
/-- The package bank whose row holds `pa`. -/
def bankOfPa (pa : Nat) : Nat := pa / 12288 / 8192
def slotOfPa (pa : Nat) : Nat := pa / 12288 / 1024 % 8
def rowOfPa (pa : Nat) : Nat := pa / 12288 % 1024

/-- The position of each data bit: the integers from 3 to 71 that are no power of two (R301). -/
def dataPos : List Nat := ((List.range 69).map (· + 3)).filter fun p => !([4, 8, 16, 32, 64].contains p)
/-- The XOR of the data bits whose position has bit `j` set. -/
def checkBit (d : Word) (j : Nat) : Bool :=
  (dataPos.zipIdx.foldl (fun acc (e : Nat × Nat) => acc ^^ (e.1.testBit j && d.getLsbD e.2)) false)
def parity (w : Word) : Bool := oddOnes 64
where
  oddOnes : Nat → Bool
    | 0 => false
    | n + 1 => w.getLsbD n ^^ oddOnes n
/-- The eight check bits of a word (R301). -/
def eccOf (d : Word) : BitVec 8 :=
  let c := (List.range 7).foldl (fun acc j => acc + if checkBit d j then 2 ^ j else 0) 0
  let odd := parity d ^^ parity (BitVec.ofNat 64 c)
  BitVec.ofNat 8 (c + if odd then 128 else 0)

/-- What decoding a stored word finds (Table 13.1). -/
inductive EccResult where
  | clean | corrected | uncorrectable
  deriving DecidableEq, Repr

/-- Decode a stored 72-bit word: the data as read, the outcome, and the logged SYN (P in bit 7, s in bits 6:0). -/
def eccDecode (d : Word) (c : BitVec 8) : Word × EccResult × Nat :=
  let s := ((eccOf d).toNat % 128) ^^^ (c.toNat % 128)
  let p := parity d ^^ parity (c.setWidth 64)
  let syn := s + if p then 128 else 0
  if s = 0 then (if p then (d, .corrected, syn) else (d, .clean, syn))
  else if p ∧ s < 72 then
    match dataPos.zipIdx.find? fun e => e.1 == s with
    | some e => (d ^^^ (1#64 <<< e.2), .corrected, syn)
    | none => (d, .corrected, syn)
  else (d, .uncorrectable, syn)
/-- The check bits that a poisoned word is stored with: the correct ones with c0 and c1 inverted (R303). -/
def eccPoison (d : Word) : BitVec 8 := eccOf d ^^^ 3#8

/-- The stored check bits of the row word at word address `w`. -/
def State.rowEcc (s : State) (w : Nat) : BitVec 8 :=
  match s.ecc.find? fun e => e.1 == w with
  | some e => e.2
  | none => eccOf (memDw s.rows (8 * w))
/-- A row word as sensed: its data, corrected if need be, and whether it is poisoned (R302). -/
def State.rowWord (s : State) (w : Nat) : Word × Bool :=
  match s.ecc.find? fun e => e.1 == w with
  | none => (memDw s.rows (8 * w), false)
  | some e => let r := eccDecode (memDw s.rows (8 * w)) e.2; (r.1, r.2.1 == .uncorrectable)
/-- One published byte of row space, as a read finds it. -/
def State.rowByte (s : State) (pa : Nat) : BitVec 8 := (s.rowWord (pa / 8)).1.extractLsb' (8 * (pa % 8)) 8
def State.rowPoison (s : State) (pa : Nat) : Bool := (s.rowWord (pa / 8)).2
/-- Write published bytes with a correct code: a word that is only partly covered is first corrected, and keeps its poison (R302, R303). -/
def State.writeRows (s : State) (pa : Nat) (bs : List (BitVec 8)) : State :=
  let full := fun w : Nat => decide (pa ≤ 8 * w) && decide (8 * w + 8 ≤ pa + bs.length)
  let touched := fun w : Nat => decide (pa < 8 * w + 8) && decide (8 * w < pa + bs.length)
  let part := s.ecc.filter fun e => touched e.1 && !full e.1
  let rows := memPut (part.foldl (fun m e => memPut m (8 * e.1) (leBytes 8 (s.rowWord e.1).1.toNat)) s.rows) pa bs
  let poisoned := part.filter fun e => (s.rowWord e.1).2
  { s with rows := rows
           cacheOld := s.cacheOld.filter fun e => !(decide (pa ≤ e.2.1) && decide (e.2.1 < pa + bs.length))
           ecc := poisoned.foldl (fun t e => tins e.1 (eccPoison (memDw rows (8 * e.1))) t) (s.ecc.filter fun e => !touched e.1) }
/-- The row at `pa` is written back: what decoding corrects is stored with a correct code (R303). -/
def State.scrubRow (s : State) (pa : Nat) : State :=
  let fixed := (window s.ecc (pa / 8) 1536).filter fun e => !(s.rowWord e.1).2
  { s with rows := fixed.foldl (fun m e => memPut m (8 * e.1) (leBytes 8 (s.rowWord e.1).1.toNat)) s.rows
           ecc := s.ecc.filter fun e => !(fixed.any fun f => f.1 == e.1) }

/-! ### Regions (R244 to R247) -/

def Region.cls (e : Region) : Nat := bits e.dw0 62 60
def Region.scope (e : Region) : Nat := bits e.dw0 59 57
def Region.map (e : Region) : Nat := bits e.dw0 56 55
def Region.mayR (e : Region) : Bool := bit e.dw0 54
def Region.mayW (e : Region) : Bool := bit e.dw0 53
def Region.mayA (e : Region) : Bool := bit e.dw0 52
def Region.vbase (e : Region) : Nat := bits e.dw0 51 0
def Region.okind (e : Region) : Nat := bits e.dw1 58 58
def Region.onum (e : Region) : Nat := bits e.dw1 57 45
def Region.len (e : Region) : Nat := 128 * bits e.dw1 44 0
def Region.wbase (e : Region) : Nat := bits e.dw2 41 0
/-- LINEAR: bank, slot, first row, rows. -/
def Region.lin (e : Region) : Nat × Nat × Nat × Nat := (bits e.dw2 63 51, bits e.dw2 50 48, bits e.dw2 47 38, bits e.dw2 37 27)
/-- STRIPED: rope, slot, first row, rows. -/
def Region.str (e : Region) : Nat × Nat × Nat × Nat := (bits e.dw2 63 56, bits e.dw2 55 53, bits e.dw2 52 43, bits e.dw2 42 32)

/-- The mapping's own fields are in range and its unused bits zero (R246). -/
def Region.mapOk (e : Region) : Bool :=
  match e.map with
  | 0 => let (g, _, r0, n) := e.lin
         decide (g < 6144 ∧ 1 ≤ n ∧ n ≤ 1024 ∧ r0 + n ≤ 1024 ∧ bits e.dw2 26 0 = 0 ∧ e.dw3 = 0 ∧ e.len = 128 * 96 * n)
  | 1 => let (r, _, r0, n) := e.str
         decide (r < 192 ∧ 1 ≤ n ∧ n ≤ 1024 ∧ r0 + n ≤ 1024 ∧ bits e.dw2 31 0 = 0 ∧ e.dw3 = 0 ∧ e.len = 128 * 3072 * n)
  | 2 => decide (bits e.dw2 63 42 = 0 ∧ e.wbase % 128 = 0 ∧ e.dw3 = 0 ∧ e.wbase + e.len ≤ 2 ^ 42)
  | _ => decide (bits e.dw2 63 13 = 0 ∧ bits e.dw3 63 52 = 0 ∧ bits e.dw3 6 0 = 0)
/-- The class's constraints (Table 10.3). -/
def Region.clsOk (e : Region) : Bool :=
  let far := e.map < 2 ∨ (e.map = 3 ∧ e.scope = 5)
  let noOwner := e.okind = 0 ∧ e.onum = 0
  match e.cls with
  | 0 => decide (e.map < 2 ∧ e.scope = 0 ∧ e.mayA = false ∧ (if e.okind = 0 then e.onum < 6144 else e.onum < 192))
  | 1 => decide (far ∧ noOwner)
  | 2 => decide (far ∧ noOwner ∧ e.mayA = false)
  | 3 => decide (far ∧ noOwner)
  | 4 => decide (e.map = 2 ∧ e.scope = 0 ∧ noOwner ∧ e.mayR = true ∧ e.mayW = false ∧ e.mayA = false)
  | _ => false
/-- A valid, well-formed entry (R246); any other is absent to every lookup. -/
def Region.ok (e : Region) : Bool :=
  bit e.dw0 63 && decide (e.scope < 6 ∧ bits e.dw1 63 59 = 0 ∧ e.vbase % 128 = 0 ∧ 0 < e.len ∧ e.vbase + e.len ≤ 2 ^ 52)
    && e.mapOk && e.clsOk

/-- A published byte as rope `n` reads it through its caches, or as the L2 holds it: what a diagnostic store has put into the cells is
not in them (R409). -/
def State.cachedByte (s : State) (n : Option Nat) (pa : Nat) : Option (BitVec 8) :=
  (s.cacheOld.find? fun e => e.2.1 == pa && (e.1 == 192 || some e.1 == n)).map fun e => e.2.2
def State.seenByte (s : State) (n : Option Nat) (pa : Nat) : BitVec 8 := (s.cachedByte n pa).getD (s.rowByte pa)
/-- Entry `i` of the table at row address `base`, read through the L2 (R244, R251). -/
def State.regionEntry (s : State) (base i : Nat) : Region :=
  let dw := fun k => if s.cacheOld.isEmpty then (s.rowWord ((base + 32 * i + 8 * k) / 8)).1
    else BitVec.ofNat 64 (leNat ((List.range 8).map fun j => s.seenByte none (base + 32 * i + 8 * k + j)))
  { idx := i, dw0 := dw 0, dw1 := dw 1, dw2 := dw 2, dw3 := dw 3 }

/-- The search of R251, `fuel` reads at most. -/
def State.regionWalk (s : State) (base va : Nat) : Nat → Nat → Nat → Option Region
  | 0, _, _ => none
  | fuel + 1, lo, hi =>
    if hi ≤ lo then none else
    let mid := (lo + hi) / 2
    let e := s.regionEntry base mid
    if !e.ok || decide (va < e.vbase) then s.regionWalk base va fuel lo mid
    else if e.vbase + e.len ≤ va then s.regionWalk base va fuel (mid + 1) hi
    else some e
/-- The entries that the same search reads, in order. -/
def State.walkReads (s : State) (base va : Nat) : Nat → Nat → Nat → List Nat
  | 0, _, _ => []
  | fuel + 1, lo, hi =>
    if hi ≤ lo then [] else
    let mid := (lo + hi) / 2
    let e := s.regionEntry base mid
    mid :: (if !e.ok || decide (va < e.vbase) then s.walkReads base va fuel lo mid
            else if e.vbase + e.len ≤ va then s.walkReads base va fuel (mid + 1) hi
            else [])
/-- The valid entries among them that are not well formed (R246). -/
def State.walkBad (s : State) (c va : Nat) : List Nat :=
  (s.walkReads (s.ctx c).rtb va 13 0 4096).filter fun i => let e := s.regionEntry (s.ctx c).rtb i; bit e.dw0 63 && !e.ok
/-- Valid entries of a context's table that are not well formed: reading the whole table finds them (R246). -/
def State.badList (s : State) (c : Nat) : List Nat :=
  (List.range 4096).filter fun i => let e := s.regionEntry (s.ctx c).rtb i; bit e.dw0 63 && !e.ok
/-- The scrivener records the index of a malformed entry at the first lookup that meets it (R7, R246). -/
def State.noteBad (s : State) (c : Nat) (is : List Nat) : State :=
  is.foldl (fun s i =>
    let x := s.ctx c
    if x.badRgn.contains i then s else (s.setCtx c { x with badRgn := x.badRgn ++ [i] }).record 10 c x.inn 0 [BitVec.ofNat 64 i]) s
/-- The region of context `c` that holds `va`, by the walk. -/
def State.walk (s : State) (c va : Nat) : Option Region := s.regionWalk (s.ctx c).rtb va 13 0 4096
/-- The region that a rope's accesses find: a TLB entry that covers the address, else the walk (R250 to R252). -/
def State.lookup (s : State) (n va : Nat) : Option Region :=
  match (s.leader n).tlb.find? fun e => decide (e.vbase ≤ va) && decide (va < e.vbase + e.len) with
  | some e => some e
  | none => s.walk (s.leader n).ctxOf va
/-- The base of the scratch window (R241). -/
def scratchBase : Nat := 2 ^ 52 - 2 ^ 19

/-- The region TLB after an access found `e`: 64 entries, most recently used first (R250, R251). -/
def Leader.tlbUse (l : Leader) (e : Region) : Leader := { l with tlb := (e :: l.tlb.filter fun x => x != e).take 64 }
/-- A TLB entry covers the address. -/
def Leader.tlbHit (l : Leader) (va : Nat) : Bool := l.tlb.any fun e => decide (e.vbase ≤ va) && decide (va < e.vbase + e.len)
/-- The entry that a row-memory probe of element `i` finds: its lane bank's, else the TLB's or a walk's (R253). -/
def State.laneLookup (s : State) (n i va : Nat) : Option Region :=
  match (tget [] (s.leader n).lanes (i % 32)).find? fun e => decide (e.vbase ≤ va) && decide (va < e.vbase + e.len) with
  | some e => some e
  | none => s.lookup n va
/-- Where offset `o` of a region goes; none in a hole (R247, R318). -/
def State.regionTarget (s : State) (e : Region) (o : Nat) : Option Target :=
  match e.map with
  | 0 => let (g, k, r0, _) := e.lin
         if s.granted (rbiOf g) then some (.row (rowAddr g k (r0 + o / 12288) (o % 12288)) e.cls e.scope g) else none
  | 1 => let (r, k, r0, _) := e.str
         let st := o % 393216 / 384
         if s.granted (st % 32) then
           some (.row (rowAddr (bankOf r (st % 32)) k (r0 + o / 393216) (384 * (st / 32) + o % 384)) e.cls e.scope (bankOf r 0))
         else none
  | 2 => some (.weight (e.wbase + o))
  | _ => some (.remote (bits e.dw2 12 0) (bits e.dw3 51 0 + o) e.cls)

/-- No byte of the range lies in a hole: a STRIPED region has one for every reserved bank (R247, R318). -/
def State.noHole (s : State) (e : Region) (o len : Nat) : Bool :=
  e.map != 1 || (List.range (min 32 ((o + len - 1) / 384 + 1 - o / 384))).all fun j => s.granted ((o / 384 + j) % 32)
/-- The kind of an access, as its probe sees it (R252). -/
structure AccKind where
  rd : Bool
  wr : Bool
  atomic : Bool := false
  discard : Bool := false
  align : Nat
  deriving DecidableEq, Repr

/-- The owner of a PRIVATE region is this agent. -/
def Region.owns (e : Region) (q : Seq) : Bool :=
  match q with
  | .bank g => e.okind == 0 && e.onum == g
  | .leader n => e.okind == 1 && e.onum == n

/-- The checks of R252 on the region `e` found for `va`, after alignment and the scratch window. -/
def State.probeRegion (s : State) (c : Nat) (q : Seq) (e : Region) (va len : Nat) (k : AccKind) : Except Cause Target :=
  if e.vbase + e.len < va + len || !s.noHole e (va - e.vbase) len then .error .regionMiss
  else match s.regionTarget e (va - e.vbase), s.regionTarget e (va + len - 1 - e.vbase) with
    | some t, some _ =>
      if (k.rd && !e.mayR) || (k.wr && !e.mayW) || (k.atomic && !e.mayA) || (k.discard && e.cls == 3) then .error .permission
      else if e.cls = 0 ∧ e.owns q = false then
        if k.wr || k.atomic || k.discard then .error .permission
        else if (s.ctx c).engaged.any fun x => x.1 == e.idx then .error .regionEngaged
        else .ok t
      else .ok t
    | _, _ => .error .regionMiss

/-- The probe, by way of one REMOTE region whose part is this one (R252). -/
def State.probe (s : State) (c : Nat) (q : Seq) (found : Option Region) (va len : Nat) (k : AccKind) : Except Cause Target :=
  match found with
  | none => .error .regionMiss
  | some e => match s.probeRegion c q e va len k with
    | .ok (.remote part rva cl) =>
      if part = Config.partNumber then
        match s.walk c rva with
        | none => .error .regionMiss
        | some e2 => match s.probeRegion c q e2 rva len k with
          | .ok (.remote ..) => .error .regionMiss
          | r => r
      else .ok (.remote part rva cl)
    | r => r

/-- The probe of an access of `len` bytes at `va` by agent `q` of rope `n`, with the region entry that its lookup finds (R252, R282). -/
def State.translateBy (s : State) (found : Option Region) (n : Nat) (q : Seq) (va len : Nat) (k : AccKind) : Except Cause Target :=
  if va % k.align ≠ 0 then .error .misaligned
  else if 2 ^ 52 ≤ va then .error .regionMiss
  else if scratchBase ≤ va then
    match q with
    | .bank _ => .error .regionMiss
    | .leader _ => if va + len ≤ 2 ^ 52 then .ok (.scratch (va - scratchBase)) else .error .regionMiss
  else s.probe (s.leader n).ctxOf q found va len k
def State.translate (s : State) (n : Nat) (q : Seq) (va len : Nat) (k : AccKind) : Except Cause Target :=
  s.translateBy (s.lookup n va) n q va len k

/-! ### What a read returns (R266 to R279) -/

/-- The part of an unpublished write that covers `pa`. -/
def PStore.at? (p : PStore) (pa : Nat) : Option (BitVec 8) :=
  if p.pa ≤ pa ∧ pa < p.pa + p.data.length then p.data[pa - p.pa]? else none
/-- Whether the agent sees the write before it is published: its own store, or its engine's after a WAIT (R266, R276). -/
def PStore.visibleTo (p : PStore) (agent task : Nat) : Bool :=
  p.agent == agent && p.task == task && (p.kind == .store || p.seen)
/-- The latest of the writes selected by `f` that covers `pa`. -/
def lastPend (f : PStore → Bool) (ps : List PStore) (pa : Nat) : Option (BitVec 8) :=
  ps.foldl (fun acc p => if f p then (match p.at? pa with | some b => some b | none => acc) else acc) none
/-- A value the spec leaves open, named by this cycle and a key, apart from the counted ones. -/
def State.openAt (s : State) (w key : Nat) : BitVec w := Config.freeValue w ((2 * key + 1) * 2 ^ 192 + s.cycle * 2 ^ 64 + s.free)
/-- The published byte that context `c` may read at virtual address `va`, if its regions give it one. -/
def State.readableByte (s : State) (n c va : Nat) : Option (BitVec 8) :=
  match s.walk c va with
  | some e => if e.mayR && (e.cls != 0 || e.owns (.leader n)) then
      (match s.regionTarget e (va - e.vbase) with
       | some (.row pa _ _ _) => some (s.rowByte pa)
       | _ => none) else none
  | none => none
/-- An unspecified byte for a reader on rope `n` under context `c`: zero, or a byte that the context may read (R8). Which of them it is the spec
leaves open. -/
def State.openByteOf (s : State) (n c key : Nat) : BitVec 8 := (s.readableByte n c (s.openAt 52 (2 ^ 66 + key)).toNat).getD 0
/-- The same for the thread bound to rope `n`. -/
def State.openByte (s : State) (n key : Nat) : BitVec 8 := s.openByteOf n (s.leader n).ctxOf key
/-- A reader for context `c` that has stored nothing and is no agent of a rope: the hub, the host. -/
def nobody (c : Nat) : Nat := 2 ^ 40 + c
/-- The firmware judges again the tasks with a deadline that `sel` selects. Whether one still fits is its own judgement, a free value;
one that does not becomes best-effort: its records' DEADLINE becomes 0 and the change is recorded (R372). -/
def State.rejudge (s : State) (sel : Nat → Bool) : State :=
  let gone := (s.tasks.filter fun e => sel e.1 && !e.2.ended && !e.2.bestEffort && e.2.rcd != [] && s.openAt 1 (2 ^ 63 + e.1) == 1).map fun e => e.1
  gone.foldl (fun s t =>
    let k := s.task t
    let s := s.setTask t { k with bestEffort := true }
    let binds := s.hub.binds.map fun (e : Nat × List Word) =>
      if bit (e.2.getD 0 0) 63 && bits (e.2.getD 0 0) 31 0 == t then (e.1, e.2.set 4 0) else e
    { s with hub := { s.hub with binds := binds } }.record 5 k.ctx k.inn t [BitVec.ofNat 64 t]) s
/-- Another agent has stored to this STREAMED byte, and no store to it has been published: its value is open to this reader. One that has been
published may have been promised to the reader, and reads as published whatever has been stored since (R271, R8). -/
def State.streamedOpen (s : State) (agent task pa : Nat) : Bool :=
  (s.pend.any fun p => p.cls == 2 && !p.visibleTo agent task && (p.at? pa).isSome) &&
    !s.promised.any fun e => decide (e.1 ≤ pa) && decide (pa < e.1 + e.2)
/-- The instance of the domain at `level` that holds bank `g` (R16, R264): banks, groups, ropes, stacks, package, domain. -/
def instanceOf (level g : Nat) : Nat :=
  match level with
  | 0 => g
  | 1 => ropeOf g * 4 + rbiOf g / 8
  | 2 => ropeOf g
  | 3 => g / 768
  | _ => 0
/-- The ropes of a task: those that dispatch gave a frame, and those bound to it. -/
def State.ropesOf (s : State) (t : Nat) : List Nat :=
  (List.range 192).filter fun r => ((s.task t).frames.any fun e => e.1 == r) || ((s.leader r).bind.isSome && (s.leader r).taskOf == t)
/-- Two ropes lie in one instance of a level; at bank and bank-group level a rope stands alone (R264, R290). -/
def sameInstance (level r n : Nat) : Bool :=
  if level < 2 then r == n else instanceOf level (bankOf r 0) == instanceOf level (bankOf n 0)
/-- The package rope of an agent. -/
def agentRope (a : Nat) : Nat := if a % 8192 < 6144 then ropeOf (a % 8192) else a % 8192 - 6144
/-- The agent lies in the scope instance of a region with this SCOPE and home bank (R264). -/
def memberOf (agent scope home : Nat) : Bool :=
  if scope < 2 then
    if agent % 8192 < 6144 then instanceOf scope (agent % 8192) == instanceOf scope home else agentRope agent == ropeOf home
  else sameInstance scope (agentRope agent) (ropeOf home)
/-- The task of another part whose agents access this one under a tag, as far as their requests tell: they carry the tag alone (R243, log entry
72). -/
def tagTask (part ctx inn : Nat) : Nat := 2 ^ 40 + (part * 1024 + ctx) * 16384 + inn
def tagOf (task : Nat) : Nat × Nat := ((task - 2 ^ 40) / 16384 % 1024, (task - 2 ^ 40) % 16384)
/-- The context under which an agent of `task` reads. -/
def State.agentCtx (s : State) (agent task : Nat) : Nat :=
  if 2 ^ 40 ≤ agent then agent - 2 ^ 40 else if 2 ^ 40 ≤ task then (tagOf task).1 else if task ≠ 0 then (s.task task).ctx else (s.leader (agentRope agent)).ctxOf
/-- The rope whose L1 an agent reads through; none for the hub, the host and the agents of other parts. -/
def agentL1 (a : Nat) : Option Nat := if a / 8192 = Config.partNumber then some (agentRope a) else none
/-- The byte that the task's phase found at `pa`, where something has been published over it since (R267). -/
def State.heldByte (s : State) (task pa : Nat) : Option (BitVec 8) :=
  s.snaps.findSome? fun x => if x.task = task then (x.old.find? fun e => e.1 == pa).map fun e => e.2 else none
/-- The same for agent `agent` of the task, which must be a member of the region. -/
def State.snapByte (s : State) (agent task pa : Nat) : Option (BitVec 8) :=
  s.snaps.findSome? fun x =>
    if x.task = task ∧ memberOf agent x.scope x.home then (x.old.find? fun e => e.1 == pa).map fun e => e.2 else none
/-- The byte at row address `pa` of a region of class `cls` as agent `agent` of `task` reads it: its own latest unpublished store, else
the snapshot of its phase where the region is PHASED, else the published value; a STREAMED byte that another agent has stored and not
published is open (Table 11.2). What the agent's own AMO or CAS left in a working copy is not among them: the model's choice (R273, log entry 106). -/
def State.viewByte (s : State) (agent task cls pa : Nat) : BitVec 8 :=
  match lastPend (fun p => p.visibleTo agent task) s.pend pa with
  | some b => b
  | none => if s.streamedOpen agent task pa then (if s.openAt 1 (2 ^ 65 + pa) == 1 then s.seenByte (agentL1 agent) pa else s.openByteOf (agentRope agent) (s.agentCtx agent task) pa)
            else match (if cls = 1 then s.snapByte agent task pa else none) with
              | some b => b
              | none => s.seenByte (agentL1 agent) pa
/-- The snapshot's byte was poisoned when the phase found it. -/
def State.snapPoison (s : State) (agent task pa : Nat) : Bool :=
  s.snaps.any fun x => x.task == task && memberOf agent x.scope x.home && x.bad.contains pa
/-- The poison of the word that holds `pa` after the agent's own unpublished writes in their order, `base` before them: a write of the whole word
sets it as the write carries it, one of fewer bytes leaves it set (R303). -/
def poisonOver (f : PStore → Bool) (ps : List PStore) (pa : Nat) (base : Bool) : Bool :=
  let w := pa / 8
  ps.foldl (fun b p =>
    if f p && decide (p.pa < 8 * w + 8) && decide (8 * w < p.pa + p.data.length) then
      let bad := p.pois.getLsbD (w - p.pa / 8)
      if p.pa ≤ 8 * w ∧ 8 * w + 8 ≤ p.pa + p.data.length then bad else b || bad
    else b) base
/-- The same byte is part of a word that the agent reads poisoned. -/
def State.viewPoison (s : State) (agent task cls pa : Nat) : Bool :=
  poisonOver (fun p => p.visibleTo agent task) s.pend pa
    (if cls = 1 ∧ (s.snapByte agent task pa).isSome then s.snapPoison agent task pa
     else (s.cachedByte (agentL1 agent) pa).isNone && s.rowPoison pa)

/-- The physical extent that holds a logical extent for a reader whose epoch is `ep` (R275). -/
def State.physOf (s : State) (ext ep : Nat) : Option Nat :=
  let e := tget Extent.reset s.weights.exts ext
  if e.since ≤ ep then e.cur else e.prev
/-- The weight stack of a physical extent: the part has eight (R11), of 8,704 extents each (R316). -/
def stackOfPhys (ph : Nat) : Nat := ph / 8704
/-- The row address of frame `p` of stack `st`: two consecutive rows of one slot of a reserved bank, counting down from tier 15 (R317, log entry 94). -/
def frameRow (st p : Nat) : Nat :=
  let k := p / 4096
  rowAddr (768 * st + 48 * (15 - k / 48) + k % 48) (p % 4096 / 512) (2 * (p % 512)) 0
/-- The frame of the staging cache that holds a page. -/
def State.frameOf (s : State) (ph page : Nat) : Option SFrame := s.weights.frames.find? fun f => f.phys == ph && f.page == page
/-- A frame of the staging cache holds the page. -/
def State.staged (s : State) (ph page : Nat) : Bool := (s.frameOf ph page).isSome
/-- The row address of a byte of a physical extent whose page is staged. -/
def State.stagedAt (s : State) (ph o : Nat) : Option Nat := (s.frameOf ph (o / 24576)).map fun f => frameRow (stackOfPhys ph) f.place + o % 24576
/-- A byte of W-space for a reader of epoch `ep`, read from the rows of its page where the page is staged; a logical extent with no version reads as
zero (R316, R319). -/
def State.weightByte (s : State) (ep w : Nat) : BitVec 8 :=
  match s.physOf (w / 2 ^ 26) ep with
  | some ph => match s.stagedAt ph (w % 2 ^ 26) with
    | some pa => s.rowByte pa
    | none => memByte s.weights.bytes (ph * 2 ^ 26 + w % 2 ^ 26)
  | none => 0
/-- The word that holds the byte is uncorrectable in the rows of its page: a page staged uncorrectable is poisoned whole (R319). -/
def State.weightPoison (s : State) (ep w : Nat) : Bool :=
  match (s.physOf (w / 2 ^ 26) ep).bind fun ph => s.stagedAt ph (w % 2 ^ 26) with
  | some pa => s.rowPoison pa
  | none => false
/-- The pages that a read of `[w, w + len)` under epoch `ep` touches: physical extent and page (R316, R319). -/
def State.pagesOf (s : State) (ep w len : Nat) : List (Nat × Nat) :=
  if len = 0 then [] else
  ((List.range ((w + len - 1) / 2 ^ 26 + 1 - w / 2 ^ 26)).map fun k => w / 2 ^ 26 + k).flatMap fun e =>
    match s.physOf e ep with
    | none => []
    | some ph =>
      let lo := (max w (e * 2 ^ 26) - e * 2 ^ 26) / 24576
      let hi := (min (w + len) ((e + 1) * 2 ^ 26) - 1 - e * 2 ^ 26) / 24576
      (List.range (hi + 1 - lo)).map fun j => (ph, lo + j)
/-- Those of them that the cache does not hold. -/
def State.absentPages (s : State) (ep w len : Nat) : List (Nat × Nat) := (s.pagesOf ep w len).filter fun p => !s.staged p.1 p.2
/-- A task's read or STAGE waits for these pages. -/
def State.wantPages (s : State) (task : Nat) (ps : List (Nat × Nat)) : State :=
  { s with weights := { s.weights with want := ps.foldl (fun w p =>
      if w.contains (p.1, p.2, task) then w else w ++ [(p.1, p.2, task)]) s.weights.want } }
/-- Pages that a read used become the most recently used (R321). -/
def State.usePages (s : State) (ps : List (Nat × Nat)) : State :=
  { s with weights := { s.weights with frames := ps.foldl (fun fs p =>
      (fs.filter fun f => f.phys == p.1 && f.page == p.2) ++ (fs.filter fun f => !(f.phys == p.1 && f.page == p.2))) s.weights.frames } }

/-- The eight bytes of a scratch doubleword that the part itself writes: trap records at 0x7_FB00, token records at 0x7_FF00. -/
def TokSt.code : TokSt → Nat
  | .idle => 0 | .queued => 1 | .running => 2 | .suspended => 3 | .done => 4 | .fault => 5
def Token.dw (t : Token) (k : Nat) : Word :=
  match k with
  | 0 => BitVec.ofNat 64 (t.seq * 2 ^ 32 + t.cause * 2 ^ 24 + t.code * 2 ^ 16 + t.kind * 2 ^ 8 + t.st.code)
  | 1 => BitVec.ofNat 64 t.prog
  | 2 => t.idx
  | _ => t.aux
def BankTrap.dw (t : BankTrap) (v : Bool) (disp : BitVec 2) (k : Nat) : Word :=
  match k with
  | 0 => BitVec.ofNat 64 ((if v then 2 ^ 63 else 0) + 256 * disp.toNat + t.cause.code)
  | 1 => t.tpc
  | 2 => t.tval
  | _ => t.telem
/-- The trap record of a bank: of the trap that is pending or being handled, else what the last one left, V and DISP cleared (R394, R395). -/
def trapDw (b : Bank) (k : Nat) : Word :=
  match b.trap, b.lastTrap with
  | some t, _ => t.dw true t.disp k
  | none, some t => t.dw false b.disp k
  | none, none => if k = 0 then BitVec.ofNat 64 (256 * b.disp.toNat) else 0
/-- A byte of a leader's scratch (R241, R335, R394). -/
def State.scratchByte (s : State) (n off : Nat) : BitVec 8 :=
  let pick := fun (w : Word) => w.extractLsb' (8 * (off % 8)) 8
  if 0x7FF00 ≤ off ∧ off < 0x80000 then pick (((s.leader n).tok ((off - 0x7FF00) / 32)).dw (off % 32 / 8))
  else if 0x7FB00 ≤ off ∧ off < 0x7FF00 then pick (trapDw (s.bank (bankOf n ((off - 0x7FB00) / 32))) (off % 32 / 8))
  else memByte (s.leader n).scratch off

/-- The same as the leader's own loads see it: what its open strip holds back of scratch comes first (R285). -/
def State.ownScratch (s : State) (n off : Nat) : BitVec 8 :=
  match (s.leader n).strip.bind fun (x : LStrip) => (x.scr.filter fun e => e.1 == off).getLast? with
  | some e => e.2
  | none => s.scratchByte n off

/-- The agent number of a sequencer (R263). -/
def Seq.agent : Seq → Nat
  | .leader n => leaderAgent n
  | .bank g => bankAgent g
/-- The weight version that an agent of rope `n` reads (R275). -/
def State.epochOf (s : State) (n : Nat) : Seq → Nat
  | .leader _ => (s.leader n).wever
  | .bank g => (s.bank g).wever
/-- A byte at a translated target, for agent `q` of rope `n`. -/
def State.readByte (s : State) (n : Nat) (q : Seq) : Target → BitVec 8
  | .row pa cls _ _ => s.viewByte q.agent (s.leader n).taskOf cls pa
  | .weight w => s.weightByte (s.epochOf n q) w
  | .scratch off => s.ownScratch n off
  | .remote .. => 0
def State.readPoison (s : State) (n : Nat) (q : Seq) : Target → Bool
  | .row pa cls _ _ => s.viewPoison q.agent (s.leader n).taskOf cls pa
  | .weight w => s.weightPoison (s.epochOf n q) w
  | _ => false
/-- The target `k` bytes further on, inside one translated access. -/
def Target.plus (t : Target) (k : Nat) : Target :=
  match t with
  | .row pa c sc h => .row (pa + k) c sc h
  | .weight w => .weight (w + k)
  | .scratch o => .scratch (o + k)
  | .remote p va c => .remote p (va + k) c
def State.readBytes (s : State) (n : Nat) (q : Seq) (t : Target) (len : Nat) : List (BitVec 8) :=
  (List.range len).map fun k => s.readByte n q (t.plus k)
def State.anyPoison (s : State) (n : Nat) (q : Seq) (t : Target) (len : Nat) : Bool :=
  (List.range len).any fun k => s.readPoison n q (t.plus k)

/-! ### Stores -/

/-- Another agent or the scratch rules forbid this write: token records, and trap records but for DISP at K (R335, R394). -/
def scratchProtected (off len : Nat) : Bool := decide (0x7FB00 < off + len)

/-- The parts of a write outside the bytes [lo, lo + n). -/
def PStore.cut (p : PStore) (lo n : Nat) : List PStore :=
  if p.pa + p.data.length ≤ lo ∨ lo + n ≤ p.pa then [p]
  else
    let q := max p.pa (lo + n)
    let a := { p with data := p.data.take (lo - p.pa), pois := p.pois &&& BitVec.ofNat 1536 (2 ^ ((lo + 7) / 8 - p.pa / 8) - 1) }
    let b := { p with pa := q, data := p.data.drop (lo + n - p.pa), pois := p.pois >>> (q / 8 - p.pa / 8) }
    [a, b].filter fun x => !x.data.isEmpty
/-- A write performed in place by agent `a`: its own older unpublished bytes there give way (R266, R278, R285). -/
def State.storeInPlace (s : State) (a pa : Nat) (bs : List (BitVec 8)) : State :=
  let keep : List PStore := s.pend.flatMap fun (p : PStore) => if p.agent == a && p.kind == .store then p.cut pa bs.length else [p]
  { s with pend := keep }.writeRows pa bs
/-- The place of a sequencer's stores among its rope's row-queue entries (R271). -/
def State.ordOf (s : State) (n : Nat) (q : Seq) : Nat :=
  match q with
  | .leader _ => (s.leader n).rowNum
  | .bank g => (s.bank g).entryNum
/-- A store by agent `q` of rope `n` at a translated row target. SYNC and bank-PRIVATE data is performed in place; PHASED,
STREAMED and leader-PRIVATE data stays unpublished; inside an open strip every class but SYNC is held in the strip store buffer
while it has room (R266, R270, R271, R285). -/
def State.storeRow (s : State) (n : Nat) (q : Seq) (pa cls scope home : Nat) (bs : List (BitVec 8)) : State :=
  let l := s.leader n
  let isBank : Bool := match q with | .bank _ => true | .leader _ => false
  let p : PStore :=
    { agent := q.agent, ctx := l.ctxOf, inn := l.innOf, task := l.taskOf, kind := .store, cmd := 0, done := true,
      seen := true, cls := cls, scope := scope, home := home, ord := s.ordOf n q, at_ := s.cycle, pa := pa, data := bs, strip := false }
  match l.strip with
  | some st =>
    if cls = 3 then (s.setLeader n { l with strip := some { st with spoiled := true } }).writeRows pa bs
    else if st.bytes + bs.length ≤ 16384 then
      let s1 := s.setLeader n { l with strip := some { st with bytes := st.bytes + bs.length } }
      { s1 with pend := s.pend ++ [{ p with strip := true }] }
    else
      let s := s.setLeader n { l with strip := some { st with spoiled := true } }
      if cls = 0 ∧ isBank then s.storeInPlace q.agent pa bs else { s with pend := s.pend ++ [p] }
  | none =>
    if cls = 3 then s.writeRows pa bs
    else if cls = 0 ∧ isBank then s.storeInPlace q.agent pa bs else { s with pend := s.pend ++ [p] }

/-- Write bytes into a leader's scratch. -/
def State.storeScratch (s : State) (n off : Nat) (bs : List (BitVec 8)) : State :=
  let l := s.leader n
  s.setLeader n { l with scratch := memPut l.scratch off bs }

/-- Bytes of scratch written in place by the leader: what its strip holds back of them gives way. -/
def State.scratchNow (s : State) (n off : Nat) (bs : List (BitVec 8)) : State :=
  let l := s.leader n
  let keep := fun (e : Nat × BitVec 8) => decide (e.1 < off) || decide (off + bs.length ≤ e.1)
  (s.setLeader n { l with strip := l.strip.map fun (x : LStrip) => { x with scr := x.scr.filter keep } }).storeScratch n off bs
/-- An ST of the leader to scratch: an open strip holds it back while its store buffer has room (R285). -/
def State.stHeld (s : State) (n off : Nat) (bs : List (BitVec 8)) : State :=
  let l := s.leader n
  match l.strip with
  | none => s.storeScratch n off bs
  | some st =>
    if st.bytes + bs.length ≤ 16384 then
      s.setLeader n { l with strip := some { st with bytes := st.bytes + bs.length, scr := st.scr ++ bs.zipIdx.map fun e => (off + e.2, e.1) } }
    else (s.setLeader n { l with strip := some { st with spoiled := true } }).scratchNow n off bs
/-- The strip store buffer of a rope's bound thread is released at its commit: bank-PRIVATE data and scratch are written, the rest becomes
ordinary unpublished data (R141, R285). -/
def State.releaseStrip (s : State) (n : Nat) : State :=
  let ours := fun (p : PStore) => p.strip && p.task == (s.leader n).taskOf &&
    (p.agent == leaderAgent n || (List.range 32).any fun i => p.agent == bankAgent (bankOf n i))
  let now := fun (p : PStore) => ours p && p.cls == 0 && p.agent != leaderAgent n
  let held := (s.pend.filter fun p => !now p).map fun p => if ours p then { p with strip := false } else p
  let scr := ((s.leader n).strip.map fun (x : LStrip) => x.scr).getD []
  let s := (s.pend.filter now).foldl (fun s p => s.storeInPlace p.agent p.pa p.data) { s with pend := held }
  scr.foldl (fun s e => s.storeScratch n e.1 [e.2]) s

/-! ### Publication (R264, R265, R269 to R273) -/

/-- A region of this SCOPE and home bank lies in instance `inst` of `level` (R264, R269). -/
def inInstance (level inst scope home : Nat) : Bool := decide (scope ≤ level) && instanceOf level home == inst
/-- Insert by rising agent number and, between shadows of one leader, rising issue number of the command (R269). -/
def insertByAgent (p : PStore) : List PStore → List PStore
  | [] => [p]
  | x :: r => if p.agent < x.agent ∨ (p.agent = x.agent ∧ p.cmd < x.cmd) then p :: x :: r else x :: insertByAgent p r
/-- Writes in publication order: stores by rising agent number and program order, then shadows likewise, so that the last writer of
a byte is the winner of R269. -/
def publishOrder (ps : List PStore) : List PStore :=
  (ps.filter fun p => p.kind == .store).foldl (fun acc p => insertByAgent p acc) [] ++
  (ps.filter fun p => p.kind == .shadow).foldl (fun acc p => insertByAgent p acc) []
/-- Mark the words of `p` at word address `w0` upward poisoned: correct check bits with c0 and c1 inverted (R303). -/
def State.markPoison (s : State) (w0 : Nat) (p : BitVec 1536) : State :=
  if p = 0 then s else
  (List.range 1536).foldl (fun s k =>
    if p.getLsbD k then { s with ecc := tins (w0 + k) (eccPoison (memDw s.rows (8 * (w0 + k)))) (tdel s.ecc (w0 + k)) } else s) s
/-- Perform one write in row space, its poisoned words with it. -/
def State.putStore (s : State) (p : PStore) : State := (s.writeRows p.pa p.data).markPoison (p.pa / 8) p.pois
/-- Keep what the other tasks' phases found in `len` bytes at `pa` that task `by_` is about to publish over (R266, R267). -/
def State.keepSnaps (s : State) (by_ scope home pa len : Nat) : State :=
  let others := s.tasks.filter fun e => e.1 != by_ && e.2.rcd != [] && !e.2.ended &&
    (s.ropesOf e.1).any fun r => if scope < 2 then r == ropeOf home else sameInstance scope r (ropeOf home)
  others.foldl (fun s e =>
    let cells := (((List.range len).map fun k => pa + k).filter fun a => (s.heldByte e.1 a).isNone).map fun a => (a, s.rowByte a)
    let bad := (cells.map fun c => c.1).filter fun a => s.rowPoison a
    if cells.isEmpty then s else { s with snaps := s.snaps ++ [{ task := e.1, scope := scope, home := home, old := cells, bad := bad }] }) s
/-- The task's phase ends in the instances that `cov` selects by SCOPE and home bank (R265). -/
def State.endPhase (s : State) (t : Nat) (cov : Nat → Nat → Bool) : State :=
  { s with snaps := s.snaps.filter fun x => !(x.task == t && cov x.scope x.home) }
/-- Publish the writes and working copies that `sel` and `selA` select, in one step, by task `by_`: AMO results first, then stores, then
shadows (R265, R269, R273). Other tasks keep their snapshots. -/
def State.publish (s : State) (by_ : Nat) (sel : PStore → Bool) (selA : AmoCopy → Bool) : State :=
  let out := publishOrder (s.pend.filter sel)
  let am := s.amos.filter selA
  let s := am.foldl (fun s a => s.keepSnaps by_ a.scope a.home a.pa a.len) s
  let s := out.foldl (fun s p => if p.cls = 1 then s.keepSnaps by_ p.scope p.home p.pa p.data.length else s) s
  let s := am.foldl (fun s a => s.writeRows a.pa (leBytes a.len a.value.toNat)) s
  let s := out.foldl (fun s p => s.putStore p) s
  let new := ((out.filter fun p => p.cls == 2).map fun p => (p.pa, p.data.length)).filter fun e => !s.promised.contains e
  { s with pend := s.pend.filter fun p => !sel p, amos := s.amos.filter fun a => !selA a, promised := s.promised ++ new.eraseDups }

end Sys2Proof.Machine
end

