-- ==== Sys2Proof/Machine/Operands.lean ====
section
/-! DEFINITION. The operands of a bank instruction: element format and size, elements of a row register, predicates, the scalar σ, the
checks of R145, poisoned words, and how results are written (R112, R142 to R150). -/
namespace Sys2Proof.Machine

open Host (Outcome)

/-! ### VT, VL and the effective format -/

def vtEF (vt : Word) : Nat := bits vt 4 0
def vtFZ (vt : Word) : Nat := bits vt 6 5
def vtSLC (vt : Word) : Nat := bits vt 10 8
def vtPROT (vt : Word) : Bool := bit vt 11
/-- Bytes of a row register that operands may occupy (R145). -/
def rowLimit (vt : Word) : Nat := if vtPROT vt then 6144 else 12288
/-- `vlmax()` under a type word (R61). -/
def vlmaxOf (vt : Word) : Nat :=
  let n := 12288 / esizeOf (vtEF vt)
  if vtPROT vt then n / 2 else n
/-- The effective format of an instruction with this ef (R142). -/
def effFmt (vt : Word) (e : BitVec 3) : Nat :=
  match e.toNat with
  | 0 => vtEF vt | 1 => 0x00 | 2 => 0x01 | 3 => 0x02 | 4 => 0x08 | 5 => 0x09 | 6 => 0x0A | _ => 0x0B

/-! ### Elements and bytes of a row register -/

/-- Byte `j` of a row register. -/
def rowGetByte (r : RowBits) (j : Nat) : BitVec 8 := r.extractLsb' (8 * j) 8
/-- Element `i` of size `s` bytes (R144). -/
def rowGet (r : RowBits) (s i : Nat) : Nat := (r.extractLsb' (8 * (s * i)) (8 * s)).toNat
/-- Replace `w` bits from bit `lo`. -/
def putBits {n : Nat} (r : BitVec n) (lo w v : Nat) : BitVec n :=
  (r &&& ~~~(BitVec.ofNat n (2 ^ w - 1) <<< lo)) ||| (BitVec.ofNat n (v % 2 ^ w) <<< lo)
/-- Replace element `i` of size `s` bytes (R144). -/
def rowSet (r : RowBits) (s i v : Nat) : RowBits := putBits r (8 * (s * i)) (8 * s) v
/-- Bits `[w·i + w − 1 : w·i]` of a packed bit string from byte `base` (R74). -/
def packGet (r : RowBits) (base w i : Nat) : Nat := (r.extractLsb' (8 * base + w * i) w).toNat
/-- Word `w` of a row register. -/
def rowDw (r : RowBits) (w : Nat) : Word := r.extractLsb' (64 * w) 64
/-- Bytes into a row register from byte `at_`. -/
def rowPutBytes (r : RowBits) (at_ : Nat) : List (BitVec 8) → RowBits
  | [] => r
  | b :: t => rowPutBytes (putBits r (8 * at_) 8 b.toNat) (at_ + 1) t

/-- `active(i)` under predicate `p` (R61). -/
def activeEl (p : PredBits) (vl s i : Nat) : Bool := decide (i < vl) && p.getLsbD (s * i)
/-- The active elements in rising order. -/
def activeEls (p : PredBits) (vl s : Nat) : List Nat := (List.range vl).filter fun i => p.getLsbD (s * i)

/-! ### Poison (R146, R303) -/

/-- The words of a row that hold byte ranges (offset, size). -/
def wordsOf (rs : List (Nat × Nat)) : List Nat :=
  rs.flatMap fun r => (List.range ((r.1 + r.2 + 7) / 8 - r.1 / 8)).map fun k => r.1 / 8 + k
/-- The poison bits after a write of the bytes that `m` marks, which carries poison into the words `carry` (R303). -/
def poisonAfter (p : BitVec 1536) (m : PredBits) (carry : List Nat) : BitVec 1536 :=
  let cleared := if p = 0 then p else
    (List.range 1536).foldl (fun q w => if m.extractLsb' (8 * w) 8 == 0xFF#8 then q &&& ~~~(1#1536 <<< w) else q) p
  carry.foldl (fun q w => q ||| (1#1536 <<< w)) cleared
/-- The byte mask of a write of ranges (offset, size). -/
def byteMask (rs : List (Nat × Nat)) : PredBits := rs.foldl (fun m r => m ||| (BitVec.ofNat 12288 (2 ^ r.2 - 1) <<< r.1)) 0

/-! ### The register as its owner sees it (R112, R115, R117) -/

def RowSt.code : RowSt → Nat
  | .closed => 0 | .opening => 1 | .openClean => 2 | .openDirty => 3 | .commitPending => 4 | .closing => 5
/-- The (CTX, IN) of the task bound to a bank. -/
def State.bankTag (s : State) (g : Nat) : Nat × Nat := ((s.leader (ropeOf g)).ctxOf, (s.leader (ropeOf g)).innOf)
/-- The register belongs to another incarnation, or to an earlier task of the bound one: to a thread that starts, every register appears
closed (R115, R129). -/
def State.foreignSlot (s : State) (g k : Nat) : Bool :=
  let sl := s.slot g k
  sl.st != .closed && decide (((sl.ctx, sl.inn), sl.task) ≠ (s.bankTag g, (s.leader (ropeOf g)).taskOf))
/-- The slot's status word (Table 5.3). -/
def Slot.status (sl : Slot) : Word :=
  BitVec.ofNat 64 (sl.ctx * 2 ^ 54 + sl.inn * 2 ^ 40 + sl.row * 2 ^ 30 + wrapZ sl.debt 5 * 2 ^ 25 + sl.cr * 2 ^ 23 + sl.pub * 2 ^ 21
    + (if sl.wp then 2 ^ 20 else 0) + (if sl.sw then 2 ^ 19 else 0) + (if sl.ds then 2 ^ 18 else 0) + (if sl.cc then 2 ^ 17 else 0)
    + sl.cw * 2 ^ 15 + sl.st.code)
/-- The slot as the bound task sees it: a foreign register appears closed, with CTX, IN and ROW zero (R115). -/
def State.seenSlot (s : State) (g k : Nat) : Slot :=
  let sl := s.slot g k
  if s.foreignSlot g k then { Slot.reset with debt := sl.debt, cr := sl.cr } else sl
def State.rowStatus (s : State) (g k : Nat) : Word := (s.seenSlot g k).status

/-- The outcome of a check: passed, a stall, or a trap (cause, TVAL, TELEM). -/
inductive Chk where
  | ok
  | wait
  | bad (c : Cause) (tval telem : Word)
  deriving DecidableEq, Repr

/-- Check 3 of R145 for register `k`. The spec names no TVAL for PERMISSION of a lane write: a free value. -/
def State.rowChk (s : State) (g k : Nat) (write : Bool) : Chk :=
  let sl := s.seenSlot g k
  if write && sl.st != .closed && sl.wp then .bad .permission (s.freeVal 64) 0
  else match sl.st with
    | .closed | .closing => .bad .rowState (s.rowStatus g k) 0
    | .opening => .wait
    | .openClean | .openDirty => .ok
    | .commitPending => if write then .bad .rowState (s.rowStatus g k) 0 else .ok
/-- The row operands in order, each with whether the instruction writes it; one both read and written takes the write checks. -/
def State.rowsChk (s : State) (g : Nat) (rs : List (Nat × Bool)) : Chk :=
  rs.foldl (fun acc r => match acc with
    | .ok => s.rowChk g r.1 (rs.any fun q => q.1 == r.1 && q.2)
    | c => c) .ok

/-- A lane write of elements of size `es` (element, value) to register `k`: open-clean goes to open-dirty, SW is set in a strip, full
words lose their poison, and the words `carry` receive it. With no element to write nothing changes (R144). The register's chunk j is written in
cycle `at_` + j (R125); tWR counts from the last one that is written (R150). -/
def Slot.laneWrite (sl : Slot) (es : Nat) (vs : List (Nat × Nat)) (carry : List Nat) (strip : Bool) (at_ : Nat) : Slot :=
  if vs.isEmpty then sl else
  let m := byteMask (vs.map fun e => (es * e.1, es))
  { sl with
    latch := vs.foldl (fun r e => rowSet r es e.1 e.2) sl.latch
    poison := poisonAfter sl.poison m carry
    wmask := sl.wmask ||| m
    st := if sl.st = .openClean then .openDirty else sl.st
    sw := sl.sw || strip
    wrAt := max sl.wrAt (at_ + vs.foldl (fun n e => max n (es * e.1 / 384)) 0)
    lnMask := m
    lnAt := at_ }
/-- The same write by a row load, whose last chunk comes at cycle `done`: it is no lane write (R151). -/
def Slot.loadWrite (sl : Slot) (es : Nat) (vs : List (Nat × Nat)) (carry : List Nat) (strip : Bool) (done : Nat) : Slot :=
  { sl.laneWrite es vs carry strip done with wrAt := if vs.isEmpty then sl.wrAt else max sl.wrAt done, lnMask := sl.lnMask, lnAt := sl.lnAt }
/-- A write from outside the bank at cycle `now` of bytes (place, value): in a chunk that a lane write reaches in the same cycle or later it is
performed first, so bytes that both write hold the lane's values (R151). -/
def Slot.outWrite (sl : Slot) (now : Nat) (bs : List (Nat × Nat)) (strip : Bool) : Slot :=
  let bs := bs.filter fun e => !(sl.lnMask.getLsbD e.1 && decide (now ≤ sl.lnAt + e.1 / 384))
  sl.loadWrite 1 bs [] strip now

/-! ### Lane instructions -/

/-- A write to a row register: register, element size, elements and their values, words that receive poison. -/
structure RowW where
  k     : Nat
  es    : Nat
  vs    : List (Nat × Nat)
  carry : List Nat := []
  deriving DecidableEq, Repr

/-- What a lane instruction computes. -/
structure LaneOut where
  rows  : List RowW := []
  y     : Option (Nat × Word) := none
  p     : Option (Nat × PredBits × PredBits) := none   -- predicate, its value, the bits that are written
  push  : Option Nat := none
  fl    : FFlags := 0
  sat   : Bool := false
  deriving DecidableEq, Repr

/-- What a lane instruction needs of the bank: the format is permitted, its limits hold, its row operands in order, the byte ranges
it reads (register, element, offset, size), the largest bytes of a row operand, the sweep's multiple, its latency (`latC`: the sweep is added
to it), whether it waits for the last read and write of its register (R150), whether both lane halves compute it (R402), the elements
computed, and its results. -/
structure LaneSpec where
  okFmt : Bool := true
  okLim : Bool := true
  regs  : List (Nat × Bool) := []
  needs : List (Nat × Nat × Nat × Nat) := []
  bmax  : Nat := 0
  mult  : Nat := 1
  lat   : Nat := 2
  latC  : Bool := false
  named : Bool := false
  dup   : Bool := true
  els   : List Nat := []
  out   : LaneOut

/-- The first poisoned word that the instruction needs: register, word, and the least element reading it. -/
def Bank.firstPoison (b : Bank) (needs : List (Nat × Nat × Nat × Nat)) : Option (Nat × Nat × Nat) :=
  let hits := needs.flatMap fun n =>
    let p := (b.slot n.1).poison
    if p = 0 then [] else ((wordsOf [(n.2.2.1, n.2.2.2)]).filter fun w => p.getLsbD w).map fun w => (n.1, w, n.2.1)
  hits.foldl (fun acc h => match acc with
    | none => some h
    | some a => if h.2.2 < a.2.2 then some h else some a) none

/-- Write a lane instruction's results, or with `load` those of a row load: `at_` is the cycle of chunk 0 of a lane write, and of a load's last chunk. -/
def Bank.laneOut (b : Bank) (o : LaneOut) (at_ : Nat) (load : Bool := false) : Bank :=
  let b := o.rows.foldl (fun b w => b.setSlot w.k (if load then (b.slot w.k).loadWrite w.es w.vs w.carry b.strip.isSome at_
                                                   else (b.slot w.k).laneWrite w.es w.vs w.carry b.strip.isSome at_)) b
  let b := match o.y with | some (r, v) => b.yw r v | none => b
  let b := match o.p with | some (r, v, _) => b.pw r v | none => b
  { b with fflags := b.fflags ||| o.fl, vxsat := b.vxsat || o.sat,
           lq := match o.push with | some n => b.lq ++ [n] | none => b.lq }

/-- An unspecified element of `n` bytes: each byte is zero or data that the bound (CTX, IN) may read (R8). -/
def State.openEl (s : State) (g key n : Nat) : Nat := leNat ((List.range n).map fun j => s.openByte (ropeOf g) (key + j))
/-- The destinations of the failing instruction are reopened if its strip is rewound (R399). -/
def State.markDest (s : State) (g : Nat) (ks : List Nat) : State :=
  let l := s.leader (ropeOf g)
  match l.strip with
  | some st => s.setLeader (ropeOf g) { l with strip := some { st with dest := st.dest ++ ks.map fun k => (g, k) } }
  | none => s
/-- The results of an instruction that consumed a poisoned word: the destination elements it was to write hold unspecified values and
nothing else changes (R146, R390). -/
def State.spoil (s : State) (g : Nat) (o : LaneOut) : State :=
  let b := s.bank g
  let f := s.freeVal 12288
  let b := o.rows.foldl (fun b w =>
    let sl := b.slot w.k
    b.setSlot w.k { sl with latch := w.vs.foldl (fun r e => rowSet r w.es e.1 (s.openEl g (2 ^ 16 * w.k + w.es * e.1) w.es)) sl.latch }) b
  let b := match o.y with | some (r, _) => b.yw r (BitVec.ofNat 64 (s.openEl g (2 ^ 20) 8)) | none => b
  let b := match o.p with | some (r, _, m) => b.pw r ((b.pr r &&& ~~~m) ||| (f &&& m)) | none => b
  (s.setBank g b).useFree.markDest g (o.rows.map fun w => w.k)

/-- The address a UE_CONSUMED at a word of a row register reports: its row address (Table 18.1). -/
def Slot.wordAddr (sl : Slot) (g k w : Nat) : Word := BitVec.ofNat 64 (rowAddr g k sl.row (8 * w))

/-- An earlier instruction's last read or write of the register is still to come at cycle `now` (R150). -/
def Slot.laneBusy (sl : Slot) (now : Nat) : Bool := decide (now < sl.rdAt) || (sl.wrAt != 0 && decide (now ≤ sl.wrAt))
/-- The lane instruction waits for its registers: for the first chunk of a write that it reads (R125, R297), to write a register for a row
store's last read of it (R297), and VEXT, VINS and the collectives for every earlier read and write of theirs (R150). -/
def State.laneHeld (s : State) (g : Nat) (sp : LaneSpec) : Bool :=
  sp.regs.any fun r => let sl := s.seenSlot g r.1
    decide (s.cycle < sl.useAt) || (r.2 && decide (s.cycle < sl.rdAt)) || (sp.named && sl.laneBusy s.cycle)
/-- A duplicated lane instruction of a protected context whose halves differ: the first of its computed elements that an upset of the lanes from element
`b.upset` on reaches (R402). -/
def Bank.mismatch (b : Bank) (sp : LaneSpec) : Option Nat :=
  if sp.dup && vtPROT b.vt then b.upset.bind fun el => sp.els.find? fun i => decide (el ≤ i) else none
/-- The scoreboard after a lane instruction issued at `t` with sweep `c` and latency `lat`: its registers' last reads, and from when its
results may be read (R125, R147). -/
def Bank.scored (b : Bank) (sp : LaneSpec) (t c lat : Nat) : Bank :=
  sp.regs.foldl (fun b r => let sl := b.slot r.1
    b.setSlot r.1 { sl with rdAt := max sl.rdAt (t + c), useAt := if r.2 then max sl.useAt (t + lat) else sl.useAt }) b
/-- The results of a lane instruction whose checks have passed are written, with the sweep of R147, and the bank goes on. -/
def State.laneEnd (s : State) (g : Nat) (sp : LaneSpec) : State :=
  let b := s.bank g
  let c := max 1 ((sp.bmax + 383) / 384)
  let lat := sp.lat + if sp.latC then c else 0
  let b' := (b.laneOut sp.out (s.cycle + lat)).scored sp s.cycle (sp.mult * c) lat
  ((s.setBank g { b' with laneAt := s.cycle + sp.mult * c, upset := if sp.dup then none else b.upset }).charge 1 (s.leader (ropeOf g)).taskOf (sp.mult * c)).bretire g 4
/-- A lane instruction (R142 to R149): its wait for the lanes and its registers, the checks of R145 in order, the consumption of a poisoned
word, the comparison of the lane halves (R390, R402), its results, its completion. -/
def State.laneW (s : State) (ws : List IWord) (g : Nat) (mk : Bank → LaneSpec) : State :=
  let b := s.bank g
  let sp := mk b
  if s.cycle < b.laneAt || s.laneHeld g sp then s.bstall g 1
  else if !sp.okFmt || !sp.okLim then s.bankTrap g .illegal (wordsVal ws) 0
  else match s.rowsChk g sp.regs with
    | .wait => s.bstall g 1
    | .bad c v e => let t := s.bankTrap g c v e
                    if c = .permission then t.useFree else t
    | .ok => match b.firstPoison sp.needs with
      | some (k, w, el) => (s.spoil g sp.out).bankConsume g .ueConsumed ((b.slot k).wordAddr g k w) (BitVec.ofNat 64 el)
      | none =>
        if sp.out.push.isSome && decide (16 ≤ b.lq.length) then s.bankTrap g .lqEmpty 16 0
        else match b.mismatch sp with
        | some el => ((s.setBank g { b with upset := none }).spoil g sp.out).bankConsume g .sdc 0 (BitVec.ofNat 64 el)
        | none => s.laneEnd g sp

def State.lane (s : State) (i : Instr) (g : Nat) (mk : Bank → LaneSpec) : State := s.laneW (encode i) g mk

/-! ### The operand forms of majors 0x21 to 0x24 (R143) -/

/-- The second source: a row register, or the scalar in a y register. -/
inductive Src2 where
  | row (b : BitVec 3)
  | scalar (y : BitVec 4)
  deriving DecidableEq, Repr

def Src2.regs : Src2 → List (Nat × Bool)
  | .row b => [(b.toNat, false)]
  | .scalar _ => []
/-- The pattern of element `i`, of size `s`: the row's element, or the low 8·s bits of the y register. -/
def Src2.get (q : Src2) (bk : Bank) (s i : Nat) : Nat :=
  match q with
  | .row b => rowGet (bk.slot b.toNat).latch s i
  | .scalar y => (bk.yr y.toNat).toNat % 2 ^ (8 * s)
/-- The ranges that the elements `is` of size `s` occupy in register `k`. An instruction whose predicate governs its writes needs its sources at every
element below VL; a reduction, VCOMPRESS and VSEL need those that their predicate selects (R144, R146, log entry 65). -/
def elNeeds (k s : Nat) (is : List Nat) : List (Nat × Nat × Nat × Nat) := is.map fun i => (k, i, s * i, s)
def Src2.needs (q : Src2) (s : Nat) (is : List Nat) : List (Nat × Nat × Nat × Nat) :=
  match q with
  | .row b => elNeeds b.toNat s is
  | .scalar _ => []

/-- An instruction that computes each active element of vd from va[i], the second source and, if `acc`, vd[i] itself; `sd`, `sa`, `sb`
are the element sizes of vd, va and the second source as multiples of the format's own size. -/
structure ElOp where
  ok    : Nat → Bool                            -- permitted formats
  acc   : Bool := false
  useA  : Bool := true
  useB  : Bool := true
  md    : Nat := 1
  ma    : Nat := 1
  mult  : Nat → Nat := fun _ => 1
  lat   : Nat := 2
  f     : Bank → Nat → Nat → Nat → Nat → Nat → Nat × FFlags × Bool   -- bank, format, i, a, b, d: result, flags, saturation

/-- The lane spec of an element-wise instruction with destination `d`, source `a`, second source `q`, predicate `p` and ef `e`. -/
def ElOp.spec (o : ElOp) (d a : BitVec 3) (q : Src2) (p e : BitVec 3) (b : Bank) : LaneSpec :=
  let F := effFmt b.vt e
  let es := esizeOf F
  let act := activeEls (b.pr p.toNat) b.vl es
  let va := (b.slot a.toNat).latch
  let vd := (b.slot d.toNat).latch
  let rs := act.map fun i => (i, o.f b F i (rowGet va (o.ma * es) i) (q.get b es i) (rowGet vd (o.md * es) i))
  { okFmt := o.ok F
    okLim := decide (b.vl * (es * max o.md o.ma) ≤ rowLimit b.vt)
    regs := (if o.useA then [(a.toNat, false)] else []) ++ (if o.useB then q.regs else []) ++ [(d.toNat, true)]
    needs := (if o.useA then elNeeds a.toNat (o.ma * es) (List.range b.vl) else []) ++ (if o.useB then q.needs es (List.range b.vl) else [])
             ++ (if o.acc then elNeeds d.toNat (o.md * es) (List.range b.vl) else [])
    bmax := b.vl * (es * max o.md o.ma), mult := o.mult F, lat := o.lat, els := act
    out := { rows := [{ k := d.toNat, es := o.md * es, vs := rs.map fun r => (r.1, r.2.1) }]
             fl := rs.foldl (fun f r => f ||| r.2.2.1) 0, sat := rs.any fun r => r.2.2.2 } }
def ElOp.run (o : ElOp) (i : Instr) (d a : BitVec 3) (q : Src2) (p e : BitVec 3) : State → Outcome State Fault Refusal :=
  onBank i fun g s => s.lane i g (o.spec d a q p e)

end Sys2Proof.Machine
end

