-- ==== Sys2Proof/Machine/BankScalar.lean ====
section
/-! DEFINITION. The bank-scalar instructions: YALU, VEXT and VINS, YADDI and YMOVI, YB, YLOOP, TFETCH, STOP and YCSR, and the bank CSRs
(R137, R138, R169 to R176, R238). -/
namespace Sys2Proof.Machine

open Host (Outcome)

/-- A result written to y register `d`. -/
def State.yresult (s : State) (g : Nat) (d : BitVec 4) (v : Word) (len : Nat) : State :=
  (s.setBank g ((s.bank g).yw d.toNat v)).bretire g len
/-- A two-source y instruction (R169). -/
def yop (ws : List IWord) (f : Word → Word → Word) (d a b : BitVec 4) : State → Outcome State Fault Refusal :=
  onBankW ws fun g s => s.yresult g d (f ((s.bank g).yr a.toNat) ((s.bank g).yr b.toNat)) 4

def execYadd (d a b : BitVec 4) (s : State) : Outcome State Fault Refusal := yop (encode (.yadd d a b)) (fun x y => x + y) d a b s
def execYsub (d a b : BitVec 4) (s : State) : Outcome State Fault Refusal := yop (encode (.ysub d a b)) (fun x y => x - y) d a b s
def execYand (d a b : BitVec 4) (s : State) : Outcome State Fault Refusal := yop (encode (.yand d a b)) (fun x y => x &&& y) d a b s
def execYor (d a b : BitVec 4) (s : State) : Outcome State Fault Refusal := yop (encYor d a b) (fun x y => x ||| y) d a b s
def execYxor (d a b : BitVec 4) (s : State) : Outcome State Fault Refusal := yop (encYxor d a b) (fun x y => x ^^^ y) d a b s
def execYsll (d a b : BitVec 4) (s : State) : Outcome State Fault Refusal :=
  yop (encYsll d a b) (fun x y => x <<< (y.toNat % 64)) d a b s
def execYsrl (d a b : BitVec 4) (s : State) : Outcome State Fault Refusal :=
  yop (encYsrl d a b) (fun x y => x >>> (y.toNat % 64)) d a b s
def execYsra (d a b : BitVec 4) (s : State) : Outcome State Fault Refusal :=
  yop (encYsra d a b) (fun x y => x.sshiftRight (y.toNat % 64)) d a b s
def execYmul (d a b : BitVec 4) (s : State) : Outcome State Fault Refusal := yop (encYmul d a b) (fun x y => x * y) d a b s

/-- YADDI, W = 14, or 40 with EXT (R171). -/
def execYaddi (d a : BitVec 4) (i : BitVec 14) (s : State) : Outcome State Fault Refusal :=
  onBankW (encYaddi d a i) (fun g s => s.yresult g d ((s.bank g).yr a.toNat + i.signExtend 64) 4) s
def execYaddiExt (d a : BitVec 4) (i : BitVec 40) (s : State) : Outcome State Fault Refusal :=
  onBankW (encYaddiExt d a i) (fun g s => s.yresult g d ((s.bank g).yr a.toNat + i.signExtend 64) 8) s
/-- YMOVI (R171). -/
def execYmovi (d : BitVec 4) (i : BitVec 14) (s : State) : Outcome State Fault Refusal :=
  onBankW (encYmovi d i) (fun g s => s.yresult g d (i.signExtend 64) 4) s
def execYmoviExt (d : BitVec 4) (i : BitVec 40) (s : State) : Outcome State Fault Refusal :=
  onBankW (encYmoviExt d i) (fun g s => s.yresult g d (i.signExtend 64) 8) s

/-- VEXT: element yr(a) of vk under VT.EF; 0 at or past VL; the checks are taken whatever the index (R170). -/
def vextSpec (d a : BitVec 4) (k : BitVec 3) (b : Bank) : LaneSpec :=
  let F := vtEF b.vt
  let es := esizeOf F
  let j := (b.yr a.toNat).toNat
  let inside := decide (j < b.vl)
  let v := rowGet (b.slot k.toNat).latch es j
  { regs := [(k.toNat, false)], needs := if inside then [(k.toNat, j, es * j, es)] else [], lat := 4, named := true, els := if inside then [j] else []
    out := { y := some (d.toNat, if inside then (if isSignedCode F then wordZ (sextN v (8 * es)) else BitVec.ofNat 64 v) else 0) } }
def execVext (d a : BitVec 4) (k : BitVec 3) (s : State) : Outcome State Fault Refusal :=
  onBankW (encVext d a k) (fun g s => s.laneW (encVext d a k) g (vextSpec d a k)) s
/-- VINS: the low bits of yr(a) into element yr(b) when it lies below VL (R170). -/
def vinsSpec (a b : BitVec 4) (k : BitVec 3) (bk : Bank) : LaneSpec :=
  let es := esizeOf (vtEF bk.vt)
  let j := (bk.yr b.toNat).toNat
  { regs := [(k.toNat, true)], named := true, dup := false
    out := { rows := [{ k := k.toNat, es := es, vs := if j < bk.vl then [(j, (bk.yr a.toNat).toNat % 2 ^ (8 * es))] else [] }] } }
def execVins (a b : BitVec 4) (k : BitVec 3) (s : State) : Outcome State Fault Refusal :=
  onBankW (encVins a b k) (fun g s => s.laneW (encVins a b k) g (vinsSpec a b k)) s

/-! ### Branches, loops and blocks -/

/-- The comparison of YB, coded 0 to 5 (R172, Table 4.7). -/
def yCond (c : Nat) (x y : Word) : Bool :=
  match c with
  | 0 => x == y
  | 1 => x != y
  | 2 => x.slt y
  | 3 => y.sle x
  | 4 => x.ult y
  | _ => y.ule x
/-- YB: a target outside the block traps whether or not the branch is taken. -/
def execYb (c a b : BitVec 4) (o : BitVec 11) (s : State) : Outcome State Fault Refusal :=
  onBankW (encYb c a b o) (fun g s =>
    let bk := s.bank g
    let t : Int := bk.at_.2 + o.toInt
    if t < 0 ∨ (blockLen bk.at_.1 : Int) ≤ t then s.bankTrap g .illegal (wordsVal (encYb c a b o)) 0
    else if yCond c.toNat (bk.yr a.toNat) (bk.yr b.toNat) then s.bjump g t.toNat
    else s.bretire g 4) s
/-- A word that may not end a bank loop: EXT, YLOOP, TFETCH or STOP (R173). -/
def badLoopEnd (w : BitVec 32) : Bool :=
  let major := w.toNat / 2 ^ 26
  major == 0x3F || (major == 0x2B && decide (1 ≤ w.toNat / 2 ^ 11 % 8 ∧ w.toNat / 2 ^ 11 % 8 ≤ 3))
/-- YLOOP (R173). -/
def execYloop (a : BitVec 4) (o : BitVec 11) (s : State) : Outcome State Fault Refusal :=
  onBankW (encYloop a o) (fun g s =>
    let b := s.bank g
    let e := b.at_.2 + o.toNat
    let n := (b.yr a.toNat).toNat
    if blockLen b.at_.1 ≤ e || badLoopEnd (s.blockWord g e) || decide (6 ≤ b.loops.length) then
      s.bankTrap g .illegal (wordsVal (encYloop a o)) 0
    else if n = 0 then s.bjump g (e + 1)
    else (s.setBank g { b with loops := { start := b.at_.2 + 1, last := e, count := n } :: b.loops }).bjump g (b.at_.2 + 1)) s
/-- A block descriptor's unassigned bits are zero and it names words inside IMEM (R43). -/
def descOk (d : Word) : Bool := decide (d.toNat < 2 ^ 22 ∧ d.toNat % 65536 + blockLen d.toNat ≤ 65536)
/-- The bank's 2 KiB block cache after a fetch of a block: whole blocks, the least recently fetched give way (R46). -/
def blocksAfter (desc : Nat) (bs : List Nat) : List Nat :=
  (bs.filter fun d => d != desc).foldl (fun (a : List Nat × Nat) d =>
    if a.2 + 4 * blockLen d ≤ 2048 then (a.1 ++ [d], a.2 + 4 * blockLen d) else (a.1, 2049)) ([desc], 4 * blockLen desc) |>.1
/-- TFETCH (R138). A row-queue entry that the bank runs stays open until the bank has executed STOP (R333). -/
def execTfetch (a : BitVec 4) (s : State) : Outcome State Fault Refusal :=
  onBankW (encTfetch a) (fun g s =>
    let b := s.bank g
    let d := b.yr a.toNat
    if !b.loops.isEmpty || !descOk d then s.bankTrap g .illegal (wordsVal (encTfetch a)) 0
    else
      let n := ropeOf g
      let s := if b.blocks.contains d.toNat then s else s.beats n (s.leader n).taskOf 1
      s.setBank g { b.counted with
        tfetch := true, loops := [], resume := (false, 0), wave := 0, waits := false, blocks := blocksAfter d.toNat b.blocks
        run := some { desc := d.toNat, wpos := 0, entry := b.run.bind fun r => r.entry, parts := 0, rank := 0, coll := none } }) s
/-- STOP (R138). -/
def execStop (s : State) : Outcome State Fault Refusal :=
  onBank .stop (fun g s =>
    let b := s.bank g
    if !b.loops.isEmpty then s.bankTrap g .illegal (instrWords .stop) 0
    else (s.setBank g b.counted).endBlock g) s

/-! ### Bank CSRs (R238) -/

/-- The value of bank CSR `n` (Table 9.5). -/
def State.bankCsr (s : State) (g n : Nat) : Word :=
  let b := s.bank g
  if 0x10 ≤ n ∧ n < 0x18 then s.rowStatus g (n - 0x10)
  else if 0x20 ≤ n ∧ n < 0x24 then b.aerr.getD (n - 0x20) 0
  else match n with
    | 0x00 => b.vt
    | 0x01 => BitVec.ofNat 64 b.vl
    | 0x02 => b.fflags.setWidth 64
    | 0x03 => b01 b.vxsat
    | 0x04 => BitVec.ofNat 64 (b.at_.2 * 2 ^ 22 + b.at_.1 % 2 ^ 22)
    | 0x05 => BitVec.ofNat 64 (b.lq.headD 0 * 65536 + b.lq.length)
    | 0x06 => BitVec.ofNat 64 b.loops.length
    | 0x07 => BitVec.ofNat 64 ((if b.resume.1 then 65536 else 0) + b.resume.2 % 65536)
    | 0x08 => BitVec.ofNat 64 (g * 256 + rbiOf g)
    | _ => 0
def execYcsr (d : BitVec 4) (n : BitVec 11) (s : State) : Outcome State Fault Refusal :=
  onBankW (encYcsr d n) (fun g s => s.yresult g d (s.bankCsr g n.toNat) 4) s

end Sys2Proof.Machine
end

