-- ==== Sys2Proof/Machine/Branch.lean ====
section
/-! DEFINITION. Branches, jumps, hardware loops and gate calls of the leader (R95 to R111). -/
namespace Sys2Proof.Machine

open Host (Outcome)

/-- The target of a word offset from the instruction's address, modulo 2^64 (R95, R96). -/
def target {w : Nat} (ia : Word) (o : BitVec w) : Word := ia + (o.signExtend 64 <<< 2)

/-- A branch: taken when `c` holds of its operands (R95). -/
def branch {w : Nat} (i : Instr) (a b : BitVec 5) (o : BitVec w) (c : Word → Word → Bool) (s : State) : Outcome State Fault Refusal :=
  onLeader i [a.toNat, b.toNat] (fun n s =>
    if c (s.xr n a.toNat) (s.xr n b.toNat) then s.jump n (target (s.leader n).pc o) else s.retire n (instrLen i)) s

/-- BEQ (R95, Table 4.7). -/
def execBeq (a b : BitVec 5) (o : BitVec 16) (s : State) : Outcome State Fault Refusal :=
  branch (.beq a b o) a b o (fun x y => x == y) s
/-- BEQ (R95, Table 4.7) behind EXT. -/
def execBeqExt (a b : BitVec 5) (o : BitVec 42) (s : State) : Outcome State Fault Refusal :=
  branch (.beqExt a b o) a b o (fun x y => x == y) s
/-- BNE (R95, Table 4.7). -/
def execBne (a b : BitVec 5) (o : BitVec 16) (s : State) : Outcome State Fault Refusal :=
  branch (.bne a b o) a b o (fun x y => x != y) s
/-- BNE (R95, Table 4.7) behind EXT. -/
def execBneExt (a b : BitVec 5) (o : BitVec 42) (s : State) : Outcome State Fault Refusal :=
  branch (.bneExt a b o) a b o (fun x y => x != y) s
/-- BLT (R95, Table 4.7). -/
def execBlt (a b : BitVec 5) (o : BitVec 16) (s : State) : Outcome State Fault Refusal :=
  branch (.blt a b o) a b o (fun x y => x.slt y) s
/-- BLT (R95, Table 4.7) behind EXT. -/
def execBltExt (a b : BitVec 5) (o : BitVec 42) (s : State) : Outcome State Fault Refusal :=
  branch (.bltExt a b o) a b o (fun x y => x.slt y) s
/-- BGE (R95, Table 4.7). -/
def execBge (a b : BitVec 5) (o : BitVec 16) (s : State) : Outcome State Fault Refusal :=
  branch (.bge a b o) a b o (fun x y => !x.slt y) s
/-- BGE (R95, Table 4.7) behind EXT. -/
def execBgeExt (a b : BitVec 5) (o : BitVec 42) (s : State) : Outcome State Fault Refusal :=
  branch (.bgeExt a b o) a b o (fun x y => !x.slt y) s
/-- BLTU (R95, Table 4.7). -/
def execBltu (a b : BitVec 5) (o : BitVec 16) (s : State) : Outcome State Fault Refusal :=
  branch (.bltu a b o) a b o (fun x y => x.ult y) s
/-- BLTU (R95, Table 4.7) behind EXT. -/
def execBltuExt (a b : BitVec 5) (o : BitVec 42) (s : State) : Outcome State Fault Refusal :=
  branch (.bltuExt a b o) a b o (fun x y => x.ult y) s
/-- BGEU (R95, Table 4.7). -/
def execBgeu (a b : BitVec 5) (o : BitVec 16) (s : State) : Outcome State Fault Refusal :=
  branch (.bgeu a b o) a b o (fun x y => !x.ult y) s
/-- BGEU (R95, Table 4.7) behind EXT. -/
def execBgeuExt (a b : BitVec 5) (o : BitVec 42) (s : State) : Outcome State Fault Refusal :=
  branch (.bgeuExt a b o) a b o (fun x y => !x.ult y) s
/-- J (R96). -/
def execJ (o : BitVec 26) (s : State) : Outcome State Fault Refusal :=
  onLeader (.j o) [] (fun n s => s.jump n (target (s.leader n).pc o)) s
/-- JAL writes its link to x1 (R96). -/
def execJal (o : BitVec 26) (s : State) : Outcome State Fault Refusal :=
  onLeader (.jal o) []
    (fun n s => (s.xw n 1 ((s.leader n).pc + BitVec.ofNat 64 (instrLen (.jal o)))).jump n (target (s.leader n).pc o)) s
/-- J (R96). -/
def execJExt (o : BitVec 52) (s : State) : Outcome State Fault Refusal :=
  onLeader (.jExt o) [] (fun n s => s.jump n (target (s.leader n).pc o)) s
/-- JAL writes its link to x1 (R96). -/
def execJalExt (o : BitVec 52) (s : State) : Outcome State Fault Refusal :=
  onLeader (.jalExt o) []
    (fun n s => (s.xw n 1 ((s.leader n).pc + BitVec.ofNat 64 (instrLen (.jalExt o)))).jump n (target (s.leader n).pc o)) s
/-- JALR: a misaligned target traps at the instruction and changes nothing (R97, R42). -/
def jalrEffect {w : Nat} (d a : BitVec 5) (o : BitVec w) (len n : Nat) (s : State) : State :=
  let t := target (s.xr n a.toNat) o
  if t.extractLsb' 0 2 ≠ 0#2 then s.trap n .misaligned t 0
  else (s.xw n d.toNat ((s.leader n).pc + BitVec.ofNat 64 len)).jump n t
/-- JALR (R97). -/
def execJalr (d a : BitVec 5) (o : BitVec 14) (s : State) : Outcome State Fault Refusal :=
  onLeader (.jalr d a o) [a.toNat] (jalrEffect d a o (instrLen (.jalr d a o))) s
/-- JALR (R97). -/
def execJalrExt (d a : BitVec 5) (o : BitVec 40) (s : State) : Outcome State Fault Refusal :=
  onLeader (.jalrExt d a o) [a.toNat] (jalrEffect d a o (instrLen (.jalrExt d a o))) s

/-! ### Hardware loops -/

/-- The words a LOOP refuses at its end: an EXT prefix, a LOOP (R99) or a LEAVE, whose other fields are zero (R100, R103). -/
def loopEndRefused (w : IWord) : Bool :=
  fld w 26 6 == 0x3F#6 || (fld w 26 6 == 0x19#6 && (fld w 21 5 == 0#5 || (fld w 21 5 == 1#5 && fld w 0 21 == 0#21)))
/-- The own checks of LOOP, 2 to 4 of R100: they read no operand. -/
def State.loopTraps (s : State) (n : Nat) (a : BitVec 5) (i : BitVec 16) : Option State :=
  let l := s.leader n
  let e := l.pc.toNat + 4 * i.toNat
  if 0x40000 ≤ e ∨ loopEndRefused (tget 0 l.imem (e / 4)) ∨ 6 ≤ l.loops.length then some (s.trap n .illegal (instrWords (.loop a i)) 0)
  else none

/-- LOOP (R99 to R101). -/
def loopEffect (a : BitVec 5) (i : BitVec 16) (n : Nat) (s : State) : State :=
  let l := s.leader n
  let e := l.pc.toNat + 4 * i.toNat
  match s.loopTraps n a i with
  | some t => t
  | none =>
    if l.xr a.toNat = 0 then s.setLeader n (l.movedTo (BitVec.ofNat 64 (e + 4)))
    else s.setLeader n { l.movedTo (l.pc + 4) with loops := { start := l.pc.toNat + 4, last := e, count := (l.xr a.toNat).toNat } :: l.loops }

/-- LOOP (R99 to R101): a zero count continues after the body, any other pushes an entry. -/
def execLoop (a : BitVec 5) (i : BitVec 16) (s : State) : Outcome State Fault Refusal :=
  onLeaderC (.loop a i) [a.toNat] (fun n s => s.loopTraps n a i) (loopEffect a i) s

/-- LEAVE pops the innermost entry and continues after its end (R103). -/
def leaveEffect (n : Nat) (s : State) : State :=
  let l := s.leader n
  match l.loops with
  | [] => s.trap n .illegal (instrWords .leave) 0
  | t :: r => s.setLeader n { l.movedTo (BitVec.ofNat 64 (t.last + 4)) with loops := r }
def execLeave (s : State) : Outcome State Fault Refusal := onLeader .leave [] leaveEffect s

/-! ### Gates (R107 to R111) -/

/-- CALLG: the four checks in order, then the push and the entry (R109). -/
def callgEffect (k : BitVec 8) (n : Nat) (s : State) : State :=
  let l := s.leader n
  let g := tget 0 l.gateStore k.toNat
  let v := BitVec.ofNat 64 k.toNat
  let gpc := BitVec.ofNat 64 (bits g 18 0)
  if !bit g 63 then s.trap n .priv v 0
  else if bits g 20 19 < l.level.toNat then s.trap n .priv v 0
  else if 8 ≤ l.gates.length then s.trap n .gateOvf v 0
  else if gpc.extractLsb' 0 2 ≠ 0#2 then s.trap n .misaligned gpc 0
  else s.setLeader n { l.movedTo gpc with
    gates := { pc := l.pc + 4, level := l.level, mm := l.mm } :: l.gates
    level := BitVec.ofNat 2 (bits g 20 19), mm := bit g 21 }
def execCallg (k : BitVec 8) (s : State) : Outcome State Fault Refusal := onLeader (.callg k) [] (callgEffect k) s

/-- RETG pops the gate return store (R109). -/
def retgEffect (n : Nat) (s : State) : State :=
  let l := s.leader n
  match l.gates with
  | [] => s.trap n .gateUnf 0 0
  | e :: r => s.setLeader n { l.movedTo e.pc with gates := r, level := e.level, mm := e.mm }
def execRetg (s : State) : Outcome State Fault Refusal := onLeader .retg [] retgEffect s

end Sys2Proof.Machine
end

