-- ==== Sys2Proof/Machine/Rope.lean ====
section
/-! DEFINITION. The row queue: VF, the SETVL forms, VRD, VWR and BMASK at the leader, their entries at the banks, strips and their
commits (R127 to R141, R332, R333, R397), and cairn grants (R352). -/
namespace Sys2Proof.Machine

open Host (Outcome)

/-! ### Placing entries (R332, R333) -/

/-- The banks an instruction targets: BMR, or every granted bank in mask mode 1 (R131). -/
def State.targets (s : State) (n : Nat) : BitVec 32 :=
  let l := s.leader n
  if l.mm then s.grantedMask else l.bmr &&& s.grantedMask
/-- Place one entry: `banks` it is aimed at, `commit` and `strips` the banks that reach its strip commit and record its strip. An
entry that names no bank is not placed. -/
def State.place (s : State) (n : Nat) (op : RowOp) (banks commit strips : BitVec 32) : State :=
  let l := s.leader n
  let all := banks ||| commit ||| strips
  if all = 0 then s else
  s.setLeader n { l with
    rowNum := l.rowNum + 1
    rowq := l.rowq ++ [{ num := l.rowNum + 1, op := op, banks := banks, todo := all, open_ := all, commit := commit,
                         sync := decide (commit = 0), strips := strips, pc := l.pc }] }
/-- The row queue has no room: the leader stalls (R332). -/
def State.rowqFull (s : State) (n : Nat) : Bool := decide (64 ≤ (s.leader n).rowq.length)

/-! ### VF, BMASK, VRD, VWR (R131, R132, R135, R136) -/

def execVf (a : BitVec 5) (s : State) : Outcome State Fault Refusal :=
  onLeader (.vf a) [a.toNat] (fun n s =>
    let d := s.xr n a.toNat
    let l := s.leader n
    if !descOk d then s.trap n .illegal (instrWords (.vf a)) 0
    else if s.rowqFull n then s.stall n 5
    else (s.place n (.vf d l.csr.frm l.csr.vxrm) (s.targets n) 0 0).retire n 4) s
def execBmask (d a : BitVec 5) (s : State) : Outcome State Fault Refusal :=
  onLeader (.bmask d a) [a.toNat] (fun n s =>
    let v := s.xr n a.toNat
    let l := s.leader n
    if v.toNat ≥ 2 ^ 32 then s.trap n .illegal v 0
    else (s.setLeader n { l with bmr := v.setWidth 32 &&& s.grantedMask }).result n d.toNat (l.bmr.setWidth 64) 4) s
/-- The checks of R135, R136 and R318 on the bank index: the trap of the first that fails. -/
def State.bankIndexTrap (s : State) (n : Nat) (v : Word) : Option State :=
  if 32 ≤ v.toNat then some (s.trap n .illegal v 0)
  else if !s.granted v.toNat then some (s.trap n .permission v 0)
  else none
def State.bankIndex (s : State) (n : Nat) (v : Word) (f : Nat → State) : State :=
  match s.bankIndexTrap n v with
  | some t => t
  | none => if s.rowqFull n then s.stall n 5 else f v.toNat
def execVrd (d a : BitVec 5) (sel : BitVec 8) (s : State) : Outcome State Fault Refusal :=
  onLeader (.vrd d a sel) [a.toNat] (fun n s =>
    s.bankIndex n (s.xr n a.toNat) fun i =>
      let s1 := s.place n (.vrd sel.toNat d.toNat s.reqNum) (1 <<< i) 0 0
      let l := s1.leader n
      let l := if d = 0 then l else
        { l with xPend := tput 0 l.xPend d.toNat s.reqNum, xPoison := tput none l.xPoison d.toNat none }
      { s1.setLeader n l with reqNum := s.reqNum + 1 }.retire n 4) s
def execVwr (a b : BitVec 5) (sel : BitVec 8) (s : State) : Outcome State Fault Refusal :=
  onLeaderC (.vwr a b sel) [a.toNat, b.toNat]
    (fun n s => if (s.leader n).clean a.toNat then s.bankIndexTrap n (s.xr n a.toNat) else none) (fun n s =>
    s.bankIndex n (s.xr n a.toNat) fun i => (s.place n (.vwr sel.toNat (s.xr n b.toNat)) (1 <<< i) 0 0).retire n 4) s

/-! ### Cairn grants (R352) -/

/-- The task's dependency entry `e` when it is a valid cairn entry: the producer's task and cairn. -/
def State.cairnDep (s : State) (n e : Nat) : Option (Nat × Nat) :=
  let w := (s.task (s.leader n).taskOf).dw (24 + e)
  if e < 8 ∧ bit w 63 ∧ bit w 62 = false then some (bits w 47 16, bits w 5 0) else none
/-- What the cairn of entry `e` grants now: H − C_e, and whether it is sealed. -/
def State.cairnView (s : State) (n e : Nat) : Nat × Bool :=
  match s.cairnDep n e with
  | none => (0, false)
  | some (t, c) => let q := (s.task t).cairn c
                   (q.h - tget 0 (s.leader n).cpos e, q.sealed)

/-! ### The SETVL forms (R134) -/

inductive SetvlForm where
  | plain | c | q
  deriving DecidableEq, Repr

/-- Check 1 and 2 of R134 on the type word. -/
def typeWordOk (form : SetvlForm) (T : Word) : Bool :=
  decide (bits T 63 22 = 0 ∧ bits T 15 11 = 0 ∧ bit T 7 = false) && (form == .c || bits T 21 16 == 0)
    && decide (bits T 4 0 ≠ 0x12) && decide (bits T 10 8 ≤ 5)
/-- vt: T[10:0] with PROT from the context. -/
def vtFrom (T : Word) (prot : Bool) : Word := BitVec.ofNat 64 (bits T 10 0 + if prot then 2 ^ 11 else 0)
/-- The x registers that a checkpoint mask names. -/
def maskRegs (ck : BitVec 8) : List Nat := ((List.range 8).filter fun i => ck.getLsbD i).map fun i => 8 + i
/-- The leader's checkpoint (R140), taken as the SETVL completes. -/
def Leader.checkpoint (l : Leader) (ck : BitVec 8) (num : Nat) : LStrip :=
  { xs := (maskRegs ck).map fun r => (r, l.xr r, tget none l.xPoison r), loops := l.loops, gates := l.gates, level := l.level
    mm := l.mm, bmr := l.bmr, addr := l.pc, entry := num, bytes := 0, scr := [], spoiled := false, rewound := false, dest := [] }
/-- A strip commit is owed by every granted bank when a strip is open; the leader then issues nothing until it takes effect. -/
def State.commitMask (s : State) (n : Nat) : BitVec 32 := if (s.leader n).strip.isSome then s.grantedMask else 0
/-- The effect of a SETVL form whose checks and waits are over: `len` elements granted, `res` for xd. -/
def State.setvlIssue (s : State) (n : Nat) (form : SetvlForm) (d : BitVec 5) (vt : Word) (len : Nat) (ck : BitVec 8) : State :=
  let s1 := s.place n (.setvl vt len (form == .q)) (s.targets n) (s.commitMask n) (if ck = 0 then 0 else s.grantedMask)
  let l := s1.leader n
  let num := l.rowNum
  let l := { l with csr := { l.csr with vt := vt, vl := len } }
  let l := if form = .q then l else l.xw d.toNat (BitVec.ofNat 64 len)
  let l := l.retired 4
  let cp := if ck = 0 then none else some (l.checkpoint ck num)
  let l := if l.strip.isSome then { l with nextStrip := cp } else { l with strip := cp }
  s1.setLeader n (if (s.leader n).strip.isSome then { l with commitWait := some num } else l)
/-- The checks of R134 on the type word fail. -/
def State.setvlBad (s : State) (n : Nat) (form : SetvlForm) (T : Word) : Bool :=
  !typeWordOk form T || (form == .c && (s.cairnDep n (bits T 21 16)).isNone)
/-- The same where the type word carries no poison and the request does (R390). -/
def State.setvlPre (s : State) (n : Nat) (form : SetvlForm) (b : BitVec 5) : Option State :=
  if (s.leader n).clean b.toNat && s.setvlBad n form (s.xr n b.toNat) then some (s.trap n .illegal (s.xr n b.toNat) 0) else none
/-- The SETVL forms: checks, waits, then the issue. -/
def State.setvl (s : State) (n : Nat) (form : SetvlForm) (d : BitVec 5) (req T : Word) (ck : BitVec 8) : State :=
  let l := s.leader n
  if s.setvlBad n form T then s.trap n .illegal T 0 else
  let vt := vtFrom T l.protOf
  let vm := vlmaxOf vt
  let e := bits T 21 16
  let v := s.cairnView n e
    if form = .c ∧ v.1 = 0 ∧ v.2 = false then s.stall n 3
    else if s.rowqFull n then s.stall n 5
    else if l.commitWait.isSome then s.stall n 0x0B
    else if (maskRegs ck).any fun r => tget 0 l.xPend r != 0 then s.stall n 0x0A
    else
      let len := if form = .c then min req.toNat (min vm v.1) else min req.toNat vm
      let s := if form = .c then s.setLeader n { l with cpos := tput 0 l.cpos e (tget 0 l.cpos e + len) } else s
      s.setvlIssue n form d vt len ck
def execSetvl (d a b : BitVec 5) (k : BitVec 8) (s : State) : Outcome State Fault Refusal :=
  onLeaderC (.setvl d a b k) [a.toNat, b.toNat] (fun n s => s.setvlPre n .plain b) (fun n s => s.setvl n .plain d (s.xr n a.toNat) (s.xr n b.toNat) k) s
def execSetvlC (d a b : BitVec 5) (k : BitVec 8) (s : State) : Outcome State Fault Refusal :=
  onLeaderC (.setvlC d a b k) [a.toNat, b.toNat] (fun n s => s.setvlPre n .c b) (fun n s => s.setvl n .c d (s.xr n a.toNat) (s.xr n b.toNat) k) s
def execSetvlQ (a b : BitVec 5) (k : BitVec 8) (s : State) : Outcome State Fault Refusal :=
  onLeaderC (.setvlQ a b k) [a.toNat, b.toNat] (fun n s => s.setvlPre n .q b) (fun n s => s.setvl n .q 0 (s.xr n a.toNat) (s.xr n b.toNat) k) s

/-! ### Entries at a bank (R133, Table 5.11) -/

/-- The bank is ready for its next row-queue entry: it runs no block, is not thread-fetching and is not stopped by a trap, and its
rope is not about to rewind or be saved (R28, R133, R399, R404). -/
def State.bankReady (s : State) (g : Nat) : Bool :=
  let b := s.bank g
  b.run.isNone && !b.tfetch && b.trap.isNone && b.owed.isEmpty && (s.leader (ropeOf g)).rewind.isNone && s.boundLive (ropeOf g) && !s.bankHeld g
/-- The oldest entry that bank `i` of the rope has not taken. -/
def Leader.headFor (l : Leader) (i : Nat) : Option RowEntry := l.rowq.find? fun e => e.todo.getLsbD i
/-- Change one entry of the row queue. -/
def Leader.editEntry (l : Leader) (num : Nat) (f : RowEntry → RowEntry) : Leader :=
  { l with rowq := l.rowq.map fun e => if e.num = num then f e else e }
/-- Bank `i` takes entry `num`, and completes it when `fin`. -/
def Leader.takeEntry (l : Leader) (num i : Nat) (fin : Bool) : Leader :=
  let l := l.editEntry num fun e => { e with todo := e.todo &&& ~~~(1#32 <<< i), strips := e.strips &&& ~~~(1#32 <<< i) }
  if fin then l.entryDone num i else l
/-- The head entry of a ready bank. -/
def State.headEntry (s : State) (g : Nat) : Option RowEntry :=
  if s.bankReady g then (s.leader (ropeOf g)).headFor (rbiOf g) else none
/-- Take the head entry at the bank. -/
def State.taken (s : State) (g num : Nat) (fin : Bool) : State :=
  (s.setLeader (ropeOf g) ((s.leader (ropeOf g)).takeEntry num (rbiOf g) fin)).setBank g { s.bank g with entryNum := num }

/-- VF_BLOCK_START: the bank fetches the block and runs it under the modes that the entry carries (R132, R148); a block that it lacks crosses the spine
once for all the banks of the entry (R46). -/
def State.vfStart (s : State) (g : Nat) : State :=
  match s.headEntry g with
  | none => s
  | some e => match e.op with
    | .vf d frm vxrm =>
      let b := s.bank g
      let n := ropeOf g
      let miss := !b.blocks.contains d.toNat && !e.sent
      let s := if miss then (s.setLeader n ((s.leader n).editEntry e.num fun e => { e with sent := true })).beats n (s.leader n).taskOf 1 else s
      (s.taken g e.num false).setBank g { b with
        entryNum := e.num
        blocks := blocksAfter d.toNat b.blocks
        run := some { desc := d.toNat, wpos := 0, entry := some e.num, parts := e.banks, rank := 0, coll := none }
        frm := frm, vxrm := vxrm, wave := 0, resume := (false, 0) }
    | _ => s
def execVfBlockStart (g : Nat) (s : State) : Outcome State Fault Refusal := onEvent (fun s => s.vfStart g) s

/-- The checkpoint that a bank records when a strip opens; DS marks the dirty registers and SW is cleared (R140, R397). A register that is not its
task's own appears closed. -/
def Bank.recordStrip (b : Bank) (now : Nat) (own : Nat → Bool) : Bank :=
  let regs := (List.range 8).map fun k => if own k then ((b.slot k).st, (b.slot k).row, (b.slot k).cc) else (.closed, 0, false)
  let b1 := { b with strip := some { y := b.y, p := b.p, vt := b.vt, vl := b.vl, lq := b.lq, regs := regs, at_ := now } }
  (List.range 8).foldl (fun b k => let sl := b.slot k
                                   if own k then b.setSlot k { sl with ds := sl.st == .openDirty, sw := false } else b) b1
/-- A register of the bank has a write-back that no hold keeps back (R140). -/
def Bank.writingBack (b : Bank) : Bool :=
  (List.range 8).any fun k => (b.slot k).st == .commitPending && (b.slot k).cw == 0
/-- The setting that an entry makes at its target banks: VT and VL, or the pop of the length queue (R128, R134). -/
def Bank.setLength (b : Bank) (vt : Word) (n : Nat) (pop : Bool) : Bank :=
  if pop then match b.lq with
    | [] => b
    | h :: r => { b with vt := vt, vl := min h (min n (vlmaxOf vt)), lq := r }
  else { b with vt := vt, vl := n }
/-- SETVL_ENTRY: the bank reaches the entry's strip commit and waits for it; then its setting takes effect, or traps LQ_EMPTY; then
the strip that it opens is recorded once the write-backs under way have ended (R134, R140, R397). -/
def State.setvlEntry (s : State) (g : Nat) : State :=
  match s.headEntry g with
  | none => s
  | some e =>
    let i := rbiOf g
    let r := ropeOf g
    let b := s.bank g
    match e.op with
    | .setvl vt n pop =>
      if e.commit.getLsbD i then s.setLeader r ((s.leader r).editEntry e.num fun x => { x with commit := x.commit &&& ~~~(1#32 <<< i) })
      else if !e.sync then s
      else if e.strips.getLsbD i && b.writingBack then s
      else if e.banks.getLsbD i && pop && b.lq.isEmpty then
        let b := if e.strips.getLsbD i then b.recordStrip s.cycle (fun k => !s.foreignSlot g k) else b
        let b := { b with trap := some { cause := .lqEmpty, disp := b.disp, tpc := e.pc, tval := 0, telem := 0, kind := .entry, seen := false } }
        let s := s.setBank g b
        s.setLeader r ((s.leader r).editEntry e.num fun x => { x with strips := x.strips &&& ~~~(1#32 <<< i) })
      else
        let b := if e.banks.getLsbD i then b.setLength vt n pop else b
        let b := if e.strips.getLsbD i then b.recordStrip s.cycle (fun k => !s.foreignSlot g k) else b
        (s.setBank g b).taken g e.num true
    | .commit =>
      if e.commit.getLsbD i then s.setLeader r ((s.leader r).editEntry e.num fun x => { x with commit := x.commit &&& ~~~(1#32 <<< i) })
      else if !e.sync then s
      else s.taken g e.num true
    | _ => s
def execSetvlEntry (g : Nat) (s : State) : Outcome State Fault Refusal := onEvent (fun s => s.setvlEntry g) s

/-- The strip commit at one bank: held write-backs of its task's own registers go on, their SW clears, the checkpoint is discarded (R115, R141). -/
def Bank.commitStrip (b : Bank) (own : Nat → Bool) : Bank :=
  let b := (List.range 8).foldl (fun b k =>
    if own k = false then b else
    let sl := b.slot k
    let cw := if sl.st = .commitPending ∧ sl.cw = 1 then (if sl.pub ≠ 0 then 2 else 0) else sl.cw
    b.setSlot k { sl with cw := cw, sw := false }) b
  { b with strip := none }
/-- STRIP_COMMIT: every granted bank has reached it, and it takes effect at all of them at once (R141, R397); a dead thread's does not
(R281). -/
def State.stripCommit (s : State) (n : Nat) : State :=
  if !s.boundLive n then s else
  match (s.leader n).rowq.find? fun e => !e.sync && e.commit == 0 with
  | none => s
  | some e =>
    let s := s.releaseStrip n
    let s := (List.range 32).foldl (fun s i => if s.granted i then s.setBank (bankOf n i) ((s.bank (bankOf n i)).commitStrip fun k => !s.foreignSlot (bankOf n i) k) else s) s
    let l := s.leader n
    let l := l.editEntry e.num fun x => { x with sync := true }
    let open_ := l.strip.map fun (x : LStrip) => x.entry
    let l := { l with cairns := l.cairns.map fun (c : CairnPend) => if c.strip = open_ then { c with strip := none } else c }
    s.setLeader n { l with strip := l.nextStrip, nextStrip := none,
                           commitWait := if l.commitWait = some e.num then none else l.commitWait }
def execStripCommit (n : Nat) (s : State) : Outcome State Fault Refusal := onEvent (fun s => s.stripCommit n) s

/-- The commit of an open strip that HALT, SAVECTX and LOADCTX make first (R139): its entry is placed once, then the leader waits for it;
none when there is nothing left to commit. -/
def State.commitFirst (s : State) (n : Nat) : Option State :=
  let l := s.leader n
  if l.strip.isNone then none
  else if l.commitWait.isSome ∨ s.rowqFull n then some (s.stall n 0x0B)
  else
    let s := s.place n .commit 0 (s.commitMask n) 0
    let l := s.leader n
    some ((s.setLeader n { l with commitWait := some l.rowNum }).stall n 0x0B)

/-- VWR_ENTRY (R136). -/
def State.vwrEntry (s : State) (g : Nat) : State :=
  match s.headEntry g with
  | none => s
  | some e => match e.op with
    | .vwr y v => (s.setBank g ((s.bank g).yw y v)).taken g e.num true
    | _ => s
def execVwrEntry (g : Nat) (s : State) : Outcome State Fault Refusal := onEvent (fun s => s.vwrEntry g) s
/-- VRD_ENTRY: the selected y register or bank CSR goes to the leader's register, if it still waits for this VRD (R135). -/
def State.vrdEntry (s : State) (g : Nat) : State :=
  match s.headEntry g with
  | none => s
  | some e => match e.op with
    | .vrd sel d req =>
      let v := if sel < 16 then (s.bank g).yr sel else s.bankCsr g (sel - 128)
      let s := s.taken g e.num true
      let n := ropeOf g
      if d ≠ 0 ∧ tget 0 (s.leader n).xPend d = req then s.xw n d v else s
    | _ => s
def execVrdEntry (g : Nat) (s : State) : Outcome State Fault Refusal := onEvent (fun s => s.vrdEntry g) s

end Sys2Proof.Machine
end

