-- ==== Sys2Proof/Machine/Csr.lean ====
section
/-! DEFINITION. The leader CSRs and the SYS instructions but HALT: reads, writes and their levels, SYSCALL, BKPT, TRET with the
resolution of bank traps, and WFE (R225 to R236, R395). -/
namespace Sys2Proof.Machine

open Host (Outcome)

/-! ### The leader CSR map (Table 9.2) -/

/-- MTL for a VT (R179). -/
def mtlOf (vt : Word) : Nat :=
  let c := vtEF vt
  let n := if c = 0x10 then 384
    else if c = 0x00 ∨ c = 0x08 ∨ (0x0B ≤ c ∧ c ≤ 0x0F) ∨ c = 0x11 then 192 else 0
  if vtPROT vt then n / 2 else n
/-- The value of leader CSR `c` as leader `n` reads it. -/
def State.csrRead (s : State) (n c : Nat) : Word :=
  let l := s.leader n
  let r := l.csr
  let x := s.ctx l.ctxOf
  let t := s.task l.taskOf
  match c with
  | 0x000 => r.vt
  | 0x001 => BitVec.ofNat 64 r.vl
  | 0x002 => r.vxrm.setWidth 64
  | 0x003 => b01 r.vxsat
  | 0x004 => r.frm.setWidth 64
  | 0x005 => r.fflags.setWidth 64
  | 0x006 => BitVec.ofNat 64 (mtlOf r.vt)
  | 0x007 => BitVec.ofNat 64 (vlmaxOf r.vt)
  | 0x010 => r.abr0 | 0x011 => r.abr1 | 0x012 => r.abr2 | 0x013 => r.abr3
  | 0x014 => r.acan.setWidth 64
  | 0x020 => x.rplT | 0x021 => x.rplS | 0x022 => x.rplSat | 0x023 => x.rplUfl | 0x024 => x.rplCan
  | 0x025 => b01 x.rplX
  | 0x030 => BitVec.ofNat 64 (s.array (96 * (n / 24))).step
  | 0x031 => BitVec.ofNat 64 s.hub.permit
  | 0x032 => BitVec.ofNat 64 (s.hub.slew * 65536 + s.hub.interval)
  | 0x040 => BitVec.ofNat 64 t.enTask | 0x041 => BitVec.ofNat 64 t.enMat | 0x042 => BitVec.ofNat 64 t.enRow
  | 0x043 => BitVec.ofNat 64 t.enMem | 0x044 => BitVec.ofNat 64 t.enLink
  | 0x045 => BitVec.ofNat 64 ((t.dw 6).toNat - t.enTask)
  | 0x050 => BitVec.ofNat 64 s.cycle
  | 0x051 => BitVec.ofNat 64 s.time
  | 0x052 => r.instret
  | 0x060 => BitVec.ofNat 64 (l.ctxOf * 16384 + l.innOf)
  | 0x061 => BitVec.ofNat 64 l.taskOf
  | 0x070 => BitVec.ofNat 64 (l.gates.length * 16 + (if l.mm then 4 else 0) + l.level.toNat)
  | 0x100 => r.tcause | 0x101 => r.tpc | 0x102 => r.tval | 0x103 => r.telem | 0x104 => r.tstate
  | 0x105 => x.tvec
  | 0x110 => x.gtb
  | _ => 0
/-- The level at which CSR `c` is read, and at which it is written; 3 where no level writes it. -/
def csrReadLevel (c : Nat) : Nat := if 0x100 ≤ c then 2 else 0
def csrWriteLevel (c : Nat) : Nat :=
  if (2 ≤ c ∧ c ≤ 5) ∨ (0x10 ≤ c ∧ c ≤ 0x14) then 0
  else if (0x20 ≤ c ∧ c ≤ 0x25) ∨ c = 0x52 ∨ 0x100 ≤ c then 2
  else 3
/-- The RW bits of a writable CSR (Tables 8.1, 8.2, 8.4, 9.3, 9.4). -/
def csrMask (c : Nat) : Word :=
  match c with
  | 0x002 => 3 | 0x003 => 1 | 0x004 => 7 | 0x005 => 0x1F
  | 0x010 | 0x011 | 0x012 | 0x013 => 0xFFFFFFFFFFFF
  | 0x014 => 0x3F
  | 0x100 => 0x1FFF
  | 0x101 => 0xFFFFFFFFFFFFFFFC
  | 0x104 => 0x107
  | 0x105 => 0x3FFFC
  | 0x110 => 0xFFFFFFFFFF000
  | 0x025 => 0
  | _ => 0xFFFFFFFFFFFFFFFF
/-- A value that no RW field may take: FRM above 4, TSTATE.PLEVEL 3 (R77, Table 9.4). -/
def csrReserved (c : Nat) (v : Word) : Bool := (c == 0x004 && decide (4 < bits v 2 0)) || (c == 0x104 && decide (bits v 1 0 = 3))
/-- Store the new value of CSR `c`. GTB, which Table 9.2 lets level K write and Table 16.9 leaves to firmware and the kill hardware, is the context
table's field and takes the value (log entry 107). -/
def State.csrStore (s : State) (n c : Nat) (v : Word) : State :=
  let l := s.leader n
  let r := l.csr
  let x := s.ctx l.ctxOf
  let put := fun (q : Csrs) => s.setLeader n { l with csr := q }
  let putX := fun (q : Ctx) => s.setCtx l.ctxOf q
  match c with
  | 0x002 => put { r with vxrm := v.setWidth 2 }
  | 0x003 => put { r with vxsat := bit v 0 }
  | 0x004 => put { r with frm := v.setWidth 3 }
  | 0x005 => put { r with fflags := v.setWidth 5 }
  | 0x010 => put { r with abr0 := v } | 0x011 => put { r with abr1 := v }
  | 0x012 => put { r with abr2 := v } | 0x013 => put { r with abr3 := v }
  | 0x014 => put { r with acan := v.setWidth 6 }
  | 0x020 => putX { x with rplT := v } | 0x021 => putX { x with rplS := v } | 0x022 => putX { x with rplSat := v }
  | 0x023 => putX { x with rplUfl := v } | 0x024 => putX { x with rplCan := v }
  | 0x052 => put { r with instret := v }
  | 0x100 => put { r with tcause := v } | 0x101 => put { r with tpc := v } | 0x102 => put { r with tval := v }
  | 0x103 => put { r with telem := v } | 0x104 => put { r with tstate := v }
  | 0x105 => putX { x with tvec := v }
  | 0x110 => putX { x with gtb := v }
  | _ => s
/-- The forms of Table 9.6. -/
inductive CsrForm where
  | r | w | s | c
  deriving DecidableEq, Repr
def CsrForm.value (f : CsrForm) (o a : Word) : Word :=
  match f with
  | .r => o | .w => a | .s => o ||| a | .c => o &&& ~~~a
/-- A write field by field: RO and RES0 fields keep their value; RPL.X clears where A holds a 1, except under CSRC (R230). -/
def State.csrWrite (s : State) (n c : Nat) (f : CsrForm) (o a : Word) : State :=
  let l := s.leader n
  if c = 0x025 then
    if f = .c ∨ bit a 0 = false then s else s.setCtx l.ctxOf { s.ctx l.ctxOf with rplX := false }
  else s.csrStore n c ((o &&& ~~~csrMask c) ||| (f.value o a &&& csrMask c))
/-- The level is below what reading, or writing, CSR `c` needs (R225). -/
def csrPriv (lv c : Nat) (writes : Bool) : Bool := decide (lv < csrReadLevel c) || (writes && decide (lv < csrWriteLevel c))
/-- The privilege check of a CSR instruction, which needs no operand (R55 check 4). -/
def State.csrPre (s : State) (n : Nat) (f : CsrForm) (a : BitVec 5) (c : Nat) : Option State :=
  if csrPriv (s.leader n).level.toNat c (f == .w || (f != .r && a != 0)) then some (s.trap n .priv (BitVec.ofNat 64 c) 0) else none
/-- A CSR instruction: read level, write level, reserved values, then the write and O to xd (R225, R229 to R231). -/
def State.csrOp (s : State) (n : Nat) (f : CsrForm) (d a : BitVec 5) (c : Nat) : State :=
  let lv := (s.leader n).level.toNat
  let writes := f == .w || (f != .r && a != 0)
  let o := s.csrRead n c
  let v := s.xr n a.toNat
  if csrPriv lv c writes then s.trap n .priv (BitVec.ofNat 64 c) 0
  else if writes && csrReserved c (f.value o v) then s.trap n .illegal (f.value o v) 0
  else (if writes then s.csrWrite n c f o v else s).result n d.toNat o 4
def execCsrr (d : BitVec 5) (c : BitVec 12) (s : State) : Outcome State Fault Refusal :=
  onLeader (.csrr d c) [] (fun n s => s.csrOp n .r d 0 c.toNat) s
def execCsrw (d a : BitVec 5) (c : BitVec 12) (s : State) : Outcome State Fault Refusal :=
  onLeaderC (.csrw d a c) [a.toNat] (fun n s => s.csrPre n .w a c.toNat) (fun n s => s.csrOp n .w d a c.toNat) s
def execCsrs (d a : BitVec 5) (c : BitVec 12) (s : State) : Outcome State Fault Refusal :=
  onLeaderC (.csrs d a c) [a.toNat] (fun n s => s.csrPre n .s a c.toNat) (fun n s => s.csrOp n .s d a c.toNat) s
def execCsrc (d a : BitVec 5) (c : BitVec 12) (s : State) : Outcome State Fault Refusal :=
  onLeaderC (.csrc d a c) [a.toNat] (fun n s => s.csrPre n .c a c.toNat) (fun n s => s.csrOp n .c d a c.toNat) s

/-! ### SYSCALL, BKPT, TRET (R233, R236, R395) -/

def execSyscall (c : BitVec 12) (s : State) : Outcome State Fault Refusal :=
  onLeader (.syscall c) [] (fun n s => s.trap n .syscall (c.setWidth 64) 0) s
def execBkpt (c : BitVec 12) (s : State) : Outcome State Fault Refusal :=
  onLeader (.bkpt c) [] (fun n s => s.trap n .brk (c.setWidth 64) 0) s

/-- Bytes of the instruction at the bank's PC: an EXT pair or one word. -/
def State.bankInstrLen (s : State) (g : Nat) : Nat :=
  if (s.blockWord g (s.bank g).at_.2).toNat / 2 ^ 26 = 0x3F then 8 else 4
/-- The trap of a bank is resolved by its disposition (Table 18.3); V and DISP clear. -/
def State.resolveBankTrap (s : State) (g : Nat) : State :=
  let b := s.bank g
  match b.trap with
  | none => s
  | some t =>
    let s := s.setBank g { b with trap := none, lastTrap := some t, disp := 0 }
    match t.kind, t.disp.toNat with
    | .blockEnd, _ => s.endBlock g
    | .instr, 0 => s
    | .instr, 1 =>
      let was := s.bank g
      let s := s.bretire g (s.bankInstrLen g)
      s.setBank g { s.bank g with issue := was.issue, why := was.why, issued := was.issued }
    | .instr, _ => s.endBlock g
    | .entry, 0 => s
    | .entry, _ => match (s.leader (ropeOf g)).headFor (rbiOf g) with
      | some e => s.taken g e.num true
      | none => s
    | .close, 0 => s
    | .close, 1 => s
    | .close, _ => s.endBlock g
def execTret (s : State) : Outcome State Fault Refusal :=
  onLeaderK .tret [] (fun n s =>
    let l := s.leader n
    if !l.act then s.trap n .illegal (instrWords .tret) 0
    else
      let s := if bits l.csr.tcause 7 0 = 0x14 then s.resolveBankTrap (bankOf n (bits l.csr.tcause 12 8)) else s
      s.setLeader n (s.leader n).returned) s

/-! ### WFE (R234) -/

/-- A trap of bank `g` is pending that the thread's last WFE has not seen (R234). -/
def Bank.rouses (b : Bank) : Bool := b.trap.any fun t => !t.seen && !t.woke
/-- An event that ends WFE has occurred since the thread's previous WFE completed. -/
def State.wfeReady (s : State) (n : Nat) : Bool :=
  let l := s.leader n
  l.wfeEv || decide (l.asyncSeen < l.async.length) || (List.range 32).any fun i => (s.bank (bankOf n i)).rouses
/-- The WFE of rope `n` completes: the events that have occurred end no later one. -/
def State.wfeDone (s : State) (n : Nat) : State :=
  let l := s.leader n
  (List.range 32).foldl (fun s i =>
    let b := s.bank (bankOf n i)
    if b.rouses then s.setBank (bankOf n i) { b with trap := b.trap.map fun (t : BankTrap) => { t with woke := true } } else s)
    (s.setLeader n { l with wfeAt := none, wfeEv := false, asyncSeen := l.async.length })
def execWfe (s : State) : Outcome State Fault Refusal :=
  onLeader .wfe [] (fun n s =>
    let l := s.leader n
    if s.wfeReady n then (s.wfeDone n).retire n 4
    else (s.setLeader n { l with wfeAt := some (l.wfeAt.getD s.cycle) }).stall n 0x0B) s
/-- WFE_TIMEOUT: 65,536 cycles have passed since the WFE issued; it ends without an event. -/
def execWfeTimeout (n : Nat) (s : State) : Outcome State Fault Refusal :=
  onEvent (fun s =>
    let l := s.leader n
    match l.wfeAt with
    | some t => if t + 65536 ≤ s.cycle then s.setLeader n { l with wfeEv := true } else s
    | none => s) s

/-! ### Delivery at a boundary (R392, R395) -/

/-- An event of R234 has occurred that the last WFE has not `seen`: the next WFE that issues ends at once. -/
def State.wfeEvent (s : State) (n : Nat) (seen : Bool) : State := if seen then s else s.setLeader n { s.leader n with wfeEv := true }
/-- The thread takes what is pending at a boundary: it runs, no kill and no stop of its task holds it, no trap is being handled, and no trap that its
frame held comes first (R392). -/
def State.delivers (s : State) (n : Nat) : Bool :=
  let l := s.leader n
  l.run && !l.act && !l.killed && l.pendTrap.isNone && (s.task l.taskOf).stop == 0
/-- The oldest pending ASYNC_FAULT has left the queue. -/
def Leader.asyncTaken (l : Leader) (r : List (Word × Word)) : Leader := { l with async := r, asyncSeen := l.asyncSeen - 1 }

/-- The lowest rope bank index whose trap is pending and not being handled. -/
def State.pendingBankTrap (s : State) (n : Nat) : Option (Nat × BankTrap) :=
  (List.range 32).findSome? fun i => match (s.bank (bankOf n i)).trap with
    | some t => if t.seen then none else some (i, t)
    | none => none
/-- BANK_TRAP: the pending bank trap is delivered at the leader's boundary. -/
def State.deliverBankTrap (s : State) (n : Nat) : State :=
  let l := s.leader n
  if !s.delivers n then s else
  match s.pendingBankTrap n with
  | none => s
  | some (i, t) =>
    let g := bankOf n i
    let s := s.setBank g { s.bank g with trap := some { t with seen := true } }
    (s.wfeEvent n t.woke).deliver n { cause := .bankTrap, bank := i, tpc := l.pc, tval := BitVec.ofNat 64 t.cause.code, telem := 0 }
def execBankTrap (n : Nat) (s : State) : Outcome State Fault Refusal := onEvent (fun s => s.deliverBankTrap n) s
/-- ASYNC_FAULT: the oldest pending one is delivered at the leader's boundary (R193). -/
def State.deliverAsync (s : State) (n : Nat) : State :=
  let l := s.leader n
  if !s.delivers n || (s.pendingBankTrap n).isSome then s else
  match l.async with
  | [] => s
  | (v, _) :: r => ((s.setLeader n (l.asyncTaken r)).wfeEvent n (decide (0 < l.asyncSeen))).deliver n
      { cause := .asyncFault, bank := 0, tpc := l.pc, tval := v, telem := 0 }
def execAsyncFault (n : Nat) (s : State) : Outcome State Fault Refusal := onEvent (fun s => s.deliverAsync n) s

/-- An illegal word at whichever sequencer fetched it (R54): a precise trap with the word, or the two words of a pair, in TVAL. -/
def execIllegalInstructionWord (w0 w1 : IWord) (s : State) : Outcome State Fault Refusal :=
  onEvent (fun s => s.illegalAt (BitVec.ofNat 64 (w0.toNat + if w0.toNat / 2 ^ 26 = 0x3F then 2 ^ 32 * w1.toNat else 0))) s

end Sys2Proof.Machine
end

