-- ==== Sys2Proof/Machine/Rows.lean ====
section
/-! DEFINITION. The life of a row register: the row-state instructions, write-backs, precharges, eviction, refresh, disturbance,
permits and the error logs (R112 to R124, R301 to R315). -/
namespace Sys2Proof.Machine

open Host (Outcome)

def tRCD : Nat := 30
def tRCDW : Nat := 10
def tRAS : Nat := 80
def tRP : Nat := 30
def tRRD : Nat := 8
def tWR : Nat := 25
def tWB : Nat := 40
def tCPY : Nat := 60
def tRFC : Nat := 120
def tOPEN : Nat := 70000

/-! ### The error logs (R314, R315) -/

/-- An event enters a four-entry log, whose valid entries `ord` lists oldest first: the lowest invalid entry; with all valid, a KIND 0 event is
dropped and another replaces the oldest KIND 0 entry, or the oldest entry (R315). -/
def logPut (log : List Word) (ord : List Nat) (e : Word) : List Word × List Nat :=
  let l := (List.range 4).map fun k => log.getD k 0
  let put := fun (k : Nat) => (l.set k e, ord.filter (fun j => j != k) ++ [k])
  match (List.range 4).find? fun k => !bit (l.getD k 0) 63 with
  | some k => put k
  | none =>
    if bits e 62 61 = 0 then (l, ord)
    else put (((ord.find? fun k => bits (l.getD k 0) 62 61 == 0).orElse fun _ => ord.head?).getD 0)
/-- Bits 23:0 of TIME in microseconds. -/
def State.stamp (s : State) : Nat := s.time / 1000 % 2 ^ 24
/-- One sensing event: the array-error log and the CE or UE counter (R302, Tables 13.3 and 17.2). -/
def State.senseLog (s : State) (g k row w : Nat) (r : EccResult) (syn : Nat) : State :=
  let b := s.bank g
  let kind := if r = .uncorrectable then 1 else 0
  let e := BitVec.ofNat 64 (2 ^ 63 + kind * 2 ^ 61 + k * 2 ^ 58 + row * 2 ^ 48 + w * 2 ^ 37 + syn * 2 ^ 29 + s.stamp)
  match r with
  | .clean => s
  | .corrected => s.setBank g { b with aerr := (logPut b.aerr b.aerrOrd e).1, aerrOrd := (logPut b.aerr b.aerrOrd e).2, ce := b.ce + 1 }
  | .uncorrectable => s.setBank g { b with aerr := (logPut b.aerr b.aerrOrd e).1, aerrOrd := (logPut b.aerr b.aerrOrd e).2, ue := b.ue + 1 }

/-- The row at `pa` as sensed: its bytes, corrected, its poisoned words, and what each damaged word found (R302). -/
def State.sense (s : State) (pa : Nat) : RowBits × BitVec 1536 × List (Nat × EccResult × Nat) :=
  let raw := (window s.rows pa 12288).foldl
    (fun (r : RowBits) (e : Nat × BitVec 8) => r ||| ((e.2.setWidth 98304) <<< (8 * (e.1 - pa)))) 0
  let bad := (window s.ecc (pa / 8) 1536).map fun e => (e.1 - pa / 8, eccDecode (memDw s.rows (8 * e.1)) e.2)
  let data := bad.foldl (fun r e => putBits r (64 * e.1) 64 e.2.1.toNat) raw
  let poison := bad.foldl (fun (p : BitVec 1536) e => if e.2.2.1 = .uncorrectable then p ||| (1 <<< e.1) else p) 0
  (data, poison, bad.map fun e => (e.1, e.2.2))
/-- Overlay the bank's own write-backs that its task has not published: they stand in the array already (R113), their poison with them
(R303). -/
def State.overlayWb (s : State) (g pa : Nat) (r : RowBits × BitVec 1536) : RowBits × BitVec 1536 :=
  s.pend.foldl (fun r p =>
    if p.wb && p.agent == bankAgent g && p.task == (s.leader (ropeOf g)).taskOf && decide (pa ≤ p.pa) && decide (p.pa < pa + 12288) then
      let o := p.pa - pa
      (putBits r.1 (8 * o) (8 * p.data.length) (leNat p.data),
       poisonAfter r.2 (byteMask [(o, p.data.length)]) [] ||| BitVec.shiftLeft p.pois (o / 8))
    else r) r
/-- Sense row `q` of slot `k` of bank `g`, logging what decoding finds. -/
def State.senseRow (s : State) (g k q : Nat) : State × RowBits × BitVec 1536 :=
  let r := s.sense (rowAddr g k q 0)
  (r.2.2.foldl (fun s e => s.senseLog g k q e.1 e.2.1 e.2.2) s, s.overlayWb g (rowAddr g k q 0) (r.1, r.2.1))
/-- The bytes of a row register. -/
def rowBytes (r : RowBits) : List (BitVec 8) := (List.range 12288).map fun j => rowGetByte r j
/-- Write a whole row, its poisoned words as R303 states. -/
def State.putRow (s : State) (g k q : Nat) (r : RowBits) (p : BitVec 1536) : State :=
  (s.writeRows (rowAddr g k q 0) (rowBytes r)).markPoison (rowAddr g k q 0 / 8) p

/-! ### Permits and waves (R309 to R311) -/

/-- A commit-pending register's write-back may begin: nothing holds it, tWR has passed, its owner is live (R113, R281). -/
def State.wbReady (s : State) (g k : Nat) : Bool :=
  let sl := s.slot g k
  sl.st == .commitPending && sl.cw == 0 && !sl.wbing && !sl.preReq && (sl.wrAt == 0 || decide (sl.wrAt + tWR ≤ s.cycle)) &&
    s.live sl.ctx sl.inn
/-- The operations that take a permit: the program's own (0), and those of slot `k` that the part performs by itself. -/
def keyWb (k : Nat) : Nat := 1 + k
def keyRef (k : Nat) : Nat := 9 + k
def keyNear (k : Nat) : Nat := 17 + k
def keyForeign (k : Nat) : Nat := 25 + k
def keyOpen (k : Nat) : Nat := 33 + k
/-- The operation that asked for a permit still needs it. -/
def State.permitWanted (s : State) (r : PermitReq) : Bool :=
  let b := s.bank r.bank
  let k := (r.key - 1) % 8
  match (r.key + 7) / 8 with
  | 0 => b.waits
  | 1 => s.wbReady r.bank k
  | 2 => (b.slot k).busy && decide (0 < (b.slot k).debt)
  | 3 => (b.slot k).alert != []
  | 4 => b.foreign != []
  | _ => b.owed.any fun o => o.1 == k
/-- Holders of a tier's permits at this cycle. An operation holds its permit from its start to its end, 120 cycles at most; a grant that it has not
taken up stands for the cycle it was made in. -/
def State.holders (s : State) (t : Nat) : List Permit := (s.tier t).holders.filter fun h => decide (s.cycle < h.until_)
/-- Requests that wait for one. -/
def State.asking (s : State) (t : Nat) : List PermitReq := (s.tier t).waiting.filter s.permitWanted
/-- Take a permit for `dur` cycles: one granted to this operation's request, or a free one when no older request waits. Of operations that ask in
one cycle the first to ask is served first: the model's own schedule visits a tier's banks by rising package number. -/
def State.permitTake (s : State) (g key dur : Nat) : Option State :=
  let t := tierOf g
  let mine := fun (h : Permit) => h.bank == g && h.key == key && !h.used
  let first := (s.asking t).head?.all fun w => w.bank == g && w.key == key
  if (s.holders t).any mine || (first && decide ((s.holders t).length < (s.tier t).value)) then
    some (s.setTier t { s.tier t with
      holders := (s.holders t).filter (fun h => !mine h) ++ [{ bank := g, key := key, until_ := s.cycle + dur, used := true }]
      waiting := (s.tier t).waiting.filter fun w => !(w.bank == g && w.key == key) })
  else none
/-- The request is the older: by its cycle, then by the lower bank (R309). -/
def PermitReq.before (x y : PermitReq) : Bool := decide (x.at_ < y.at_ ∨ (x.at_ = y.at_ ∧ x.bank ≤ y.bank))
/-- The operation's request waits in its tier, oldest first. -/
def State.permitAsk (s : State) (g key : Nat) : State :=
  let t := tierOf g
  let ti := s.tier t
  let r : PermitReq := { at_ := s.cycle, bank := g, key := key }
  if ti.waiting.any (fun e => e.bank == g && e.key == key) then s
  else s.setTier t { ti with waiting := ti.waiting.filter (fun e => e.before r) ++ [r] ++ ti.waiting.filter (fun e => !e.before r) }
/-- The bank waits within its wave: RESUME shows the operations already performed (R311). -/
def Bank.waveWait (b : Bank) (idx : Nat) : Bank := { b with resume := (true, idx), waits := true }
/-- The bank's own operation waits for its permit. -/
def State.permitWait (s : State) (g idx : Nat) : State :=
  ((s.setBank g ((s.bank g).waveWait idx)).permitAsk g 0).bstall g 2
/-- A request that has been granted a permit in this cycle and has not taken it up. -/
def State.granting (s : State) (t : Nat) (r : PermitReq) : Bool := (s.holders t).any fun h => h.bank == r.bank && h.key == r.key && !h.used
/-- PERMIT_GRANT: the oldest waiting request receives a permit when the holders number fewer than the permit value (R309, R310). Its operation
starts in this cycle; one that cannot keeps its place and gives the permit back. -/
def State.permitGrant (s : State) (t : Nat) : State :=
  match (s.asking t).find? fun r => !s.granting t r with
  | none => s
  | some r =>
    if (s.holders t).length < (s.tier t).value then
      s.setTier t { s.tier t with
        holders := s.holders t ++ [{ bank := r.bank, key := r.key, until_ := s.cycle + 1, used := false }] }
    else s
/-- A word of a block that needs a permit: ACT, ACTW, WB or REF. -/
def permitWord (w : IWord) : Bool :=
  w.toNat / 2 ^ 26 == 0x20 && [0, 1, 2, 5].contains (w.toNat / 2 ^ 7 % 16)
/-- Where a block may go from word `w`: on, unless the word ends the block; to the target of a YB or past the loop of a YLOOP; and, from the last
word of a loop that is open with iterations left or whose YLOOP is among the words `r`, back to its first (R172, R173). -/
def blockNext (ws : List IWord) (loops : List LoopEntry) (r : List Nat) (w : Nat) : List Nat :=
  let code := fun (v : Nat) => let x := (ws.getD v 0).toNat; if x / 2 ^ 26 = 0x2B then x / 2 ^ 11 % 8 else 8
  let off := fun (v : Nat) => (ws.getD v 0).toNat % 2048
  let on := if code w = 2 ∨ code w = 3 then [] else [w + 1]
  let go := if code w = 0 then [if off w < 1024 then w + off w else w + off w - 2048] else if code w = 1 then [w + off w + 1] else []
  let back := ((loops.filter fun t => t.last == w && decide (1 < t.count)).map fun t => t.start) ++
    (r.filter fun v => code v == 1 && v + off v == w).map (· + 1)
  (on ++ go ++ back).filter fun v => decide (v < ws.length)
/-- The words that a block may reach from the words `r`. -/
def blockReach (ws : List IWord) (loops : List LoopEntry) : Nat → List Nat → List Nat
  | 0, r => r
  | n + 1, r => blockReach ws loops n (r ++ ((r.flatMap (blockNext ws loops r)).filter fun v => !r.contains v).eraseDups)
/-- A word that `p` selects is among them. -/
def reachesWord (ws : List IWord) (loops : List LoopEntry) (r : List Nat) (p : IWord → Bool) : Bool :=
  ws.any p && (blockReach ws loops ws.length r).any fun v => p (ws.getD v 0)
/-- The running block can still reach an operation of its wave. -/
def State.waveMore (s : State) (g : Nat) : Bool :=
  let b := s.bank g
  let words := (List.range (blockLen b.at_.1)).map fun w => s.blockWord g w
  b.run.isSome && reachesWord words b.loops (blockNext words b.loops [b.at_.2] b.at_.2) permitWord
/-- A permit-taking operation of the wave has started; with the last one VALID returns to 0 (R311). -/
def State.waveStep (s : State) (g : Nat) : State :=
  let b := s.bank g
  s.setBank g { b with wave := b.wave + 1, waits := false, resume := if s.waveMore g && b.resume.1 then (true, b.wave + 1) else (false, 0) }
def execPermitGrant (t : Nat) (s : State) : Outcome State Fault Refusal := onEvent (fun s => s.permitGrant t) s
/-- PERMIT_ARRIVAL: the purser's value reaches a tier (R310). -/
def execPermitArrival (t : Nat) (s : State) : Outcome State Fault Refusal :=
  onEvent (fun s => s.setTier t { s.tier t with value := s.hub.permit }) s

/-! ### Regions by row, engagement (R254, R255) -/

/-- The entry maps row `q` of slot `k` of bank `g`. -/
def Region.mapsRow (e : Region) (g k q : Nat) : Bool :=
  match e.map with
  | 0 => decide (e.lin.1 = g ∧ e.lin.2.1 = k ∧ e.lin.2.2.1 ≤ q ∧ q < e.lin.2.2.1 + e.lin.2.2.2)
  | 1 => decide (e.str.1 = ropeOf g ∧ e.str.2.1 = k ∧ e.str.2.2.1 ≤ q ∧ q < e.str.2.2.1 + e.str.2.2.2)
  | _ => false
/-- The lowest-indexed entry of the bank's row-region store that maps the row. -/
def Bank.rowRegion (b : Bank) (g k q : Nat) : Option Region := b.regions.find? fun e => e.mapsRow g k q
/-- The publication of write-backs of a class (R113): PHASED at a belay, STREAMED at a cairn or trigger. -/
def pubOf (cls : Nat) : Nat := if cls = 1 then 1 else if cls = 2 then 2 else 0
/-- The home bank of a region of rows: the bank of its first row (R264). -/
def Region.home (e : Region) : Nat := if e.map = 0 then e.lin.1 else bankOf e.str.1 0
/-- The L2 line lies in the region. -/
def Region.hasLine (e : Region) (line : Nat) : Bool :=
  decide (line < 2 ^ 60) && e.mapsRow (bankOfPa (128 * line)) (slotOfPa (128 * line)) (rowOfPa (128 * line))
/-- The L2 writes back its dirty lines that `sel` selects; the bytes that it still holds over changed cells go to the row (R255, R409). -/
def State.l2Clean (s : State) (sel : Nat → Bool) : State :=
  let dirty := s.l2.flatMap fun e => (e.2.filter fun c => c.dirty && sel c.line).map fun c => c.line
  let s := (s.cacheOld.filter fun e => e.1 == 192 && dirty.contains (e.2.1 / 128)).foldl (fun s e => s.writeRows e.2.1 [e.2.2]) s
  { s with l2 := tmap [] (fun _ cs => cs.map fun c => if dirty.contains c.line then { c with dirty := false } else c) s.l2 }
/-! ### The L2 (R21, R258) -/

/-- The home slice of a row line, numbered 17 × stack + slice (R21, Table 18.8). -/
def sliceOf (pa : Nat) : Nat := 17 * (bankOfPa pa / 768) + pa / 128 % 17
/-- The tag of the line of W-space at offset `o` of physical extent `ph`, which the caches hold beside row lines (R257, R319). -/
def wLine (ph o : Nat) : Nat := 2 ^ 60 + (ph * 2 ^ 26 + o) / 128
/-- The home slice of a line: a W-space line's lies in the stack of its extent's flash (R21, R319). -/
def lineSlice (line : Nat) : Nat :=
  if line < 2 ^ 60 then sliceOf (128 * line) else 17 * ((line - 2 ^ 60) / 2 ^ 19 / 8704) + (line - 2 ^ 60) % 17
/-- The L2 set of a line (R258). -/
def l2Key (line : Nat) : Nat := lineSlice line * 8192 + line % 2 ^ 60 / 17 % 8192

/-- A 16-way set after a use of line `c`: it is the most recently used, or with `lu` the next to be replaced; the line that gives way. -/
def setUse (c : CLine) (lu : Bool) (cs : List CLine) : List CLine × Option CLine :=
  let old := cs.any fun x => x.line == c.line && x.dirty
  let c := { c with dirty := c.dirty || old }
  let rest := cs.filter fun x => x.line != c.line
  let keep := rest.take 15
  (if lu then keep ++ [c] else c :: keep, (rest.drop 15).head?)
def holdsLine (cs : List CLine) (line : Nat) : Bool := cs.any fun x => x.line == line
def holdsDirty (cs : List CLine) (line : Nat) : Bool := cs.any fun x => x.line == line && x.dirty

def State.l2Set (s : State) (line : Nat) : List CLine := tget [] s.l2 (l2Key line)
def State.inL2 (s : State) (line : Nat) : Bool := holdsLine (s.l2Set line) line

/-- A holder (a rope's L1, or 192 for the L2) no longer has the line. -/
def State.forget (s : State) (holder line : Nat) : State :=
  { s with cacheOld := s.cacheOld.filter fun e => !(e.1 == holder && e.2.1 / 128 == line) }
/-- The L2 line is used for task `t`, filled if it was absent, with `lu` the next to be replaced; the line it replaces is written back if it
was written. -/
def State.l2Use (s : State) (t : Nat) (c : CLine) (lu : Bool := false) : State :=
  let s := s.charge 9 t 1
  let r := setUse c lu (s.l2Set c.line)
  match r.2 with
  | some v =>
    let s := if v.dirty then s.l2Clean fun l => l == v.line else s
    { s with l2 := tput [] s.l2 (l2Key c.line) (setUse c lu (s.l2Set c.line)).1 }.forget 192 v.line
  | none => { s with l2 := tput [] s.l2 (l2Key c.line) r.1 }

/-! ### Engagement (R255) -/

/-- The bank owns the PRIVATE region and has not engaged it since its last marker. -/
def State.unengaged (s : State) (g : Nat) (e : Region) : Bool :=
  e.cls == 0 && e.okind == 0 && e.onum == g && !((s.ctx (s.bankTag g).1).engaged.any fun x => x.1 == e.idx)
/-- The owner's first ACT, ACTW or store since its last marker engages a PRIVATE region of a bank: the bit is set, the L2 writes its dirty
lines back, and the instruction waits 40 cycles (R255). -/
def State.engage (s : State) (g : Nat) (e : Region) : State :=
  if s.unengaged g e then
    let l := s.leader (ropeOf g)
    let c := s.ctx l.ctxOf
    let s := (s.setCtx l.ctxOf { c with engaged := c.engaged ++ [(e.idx, l.taskOf, g)] }).l2Clean e.hasLine
    s.setBank g { s.bank g with engTo := s.cycle + 40 }
  else s
/-- The instruction that engages the region waits, or engages it now. -/
def State.engaging (s : State) (g : Nat) (e : Region) : Bool :=
  e.cls == 0 && e.okind == 0 && e.onum == g && (s.unengaged g e || decide (s.cycle < (s.bank g).engTo))

/-- A read of the owner's region `e` that was probed before its engagement has not been performed yet, a suspended copy's included:
the engaging instruction waits for it (R280). -/
def State.readsPend (s : State) (g : Nat) (e : Region) : Bool :=
  e.cls == 0 && e.okind == 0 && e.onum == g &&
    ((s.reqs.any fun r => !r.done && r.ctx == (s.bankTag g).1 && match r.tgt with
        | .row pa _ _ _ => e.mapsRow (bankOfPa pa) (slotOfPa pa) (rowOfPa pa)
        | _ => false) ||
     (s.leaders.any fun l => l.2.ctxOf == (s.bankTag g).1 && l.2.copyRun.any fun c => c.started && c.rgns.contains e.idx) ||
     (s.frames.any fun x => x.2.any fun f => f.v && f.ctx == (s.bankTag g).1 && f.leader.copyRun.any fun c => c.started && c.rgns.contains e.idx))

/-! ### Write-back, closing, eviction -/

/-- The open strip of a rope can no longer be rewound (R400). -/
def State.spoilStrip (s : State) (n : Nat) : State :=
  let l := s.leader n
  match l.strip with
  | some st => s.setLeader n { l with strip := some { st with spoiled := true } }
  | none => s
/-- The strip of the thread that opened the register can no longer be rewound: of the bound thread, or of one that is saved (R116, R307). -/
def State.spoilOwner (s : State) (g k : Nat) : State :=
  let sl := s.slot g k
  if !s.foreignSlot g k then s.spoilStrip (ropeOf g)
  else
    let hit := fun (f : Frame) => f.v && f.rope == ropeOf g && f.ctx == sl.ctx && f.inn == sl.inn && f.task == sl.task
    let spoil := fun (l : Leader) => { l with strip := l.strip.map fun (x : LStrip) => { x with spoiled := true } }
    let dw := (s.frames.findSome? fun e => e.2.bind fun f => if hit f then some (spoil f.leader).stripDw else none).getD 0
    ({ s with frames := s.frames.map fun (e : Nat × Option Frame) => match e.2 with
        | some f => if hit f then (e.1, some { f with leader := spoil f.leader }) else e
        | none => e } : State).frameDws sl.task (ropeOf g) 64 [dw]
/-- Runs of marked bytes, from offset `k` on. -/
def markedRuns : Nat → List (Bool × BitVec 8) → List (Nat × List (BitVec 8))
  | _, [] => []
  | k, (m, b) :: r =>
    let t := markedRuns (k + 1) r
    if !m then t else match t with
      | (j, bs) :: u => if j = k + 1 then (k, b :: bs) :: u else (k, [b]) :: t
      | [] => [(k, [b])]
/-- The region of the open row is engaged (R255). -/
def State.slotEngaged (s : State) (sl : Slot) : Bool := (s.ctx sl.ctx).engaged.any fun x => x.1 == sl.reg
/-- The latch's bytes must stay unpublished: the row belongs to a PHASED or STREAMED region, or to a PRIVATE one that is not engaged, whose
readers see the contents of the last fired marker (R113, R266, R270, R307). -/
def State.holdsBack (s : State) (sl : Slot) : Bool := !(s.task sl.task).ended && (sl.pub != 0 || (sl.cls == 0 && !s.slotEngaged sl))
/-- The bank has stored to the byte since the WB, and has not published it: that store is its latest (R269, R278). -/
def State.laterStore (s : State) (g pa wbAt : Nat) : Bool :=
  s.pend.any fun p => p.agent == bankAgent g && p.kind == .store && !p.wb && decide (wbAt < p.at_) && (p.at? pa).isSome
/-- The bank's older unpublished bytes in `len` bytes at `pa` give way to a row that is written there (R266, R278). -/
def State.dropOwn (s : State) (g pa len : Nat) : State :=
  { s with pend := s.pend.flatMap fun (p : PStore) => if p.agent == bankAgent g && p.kind == .store then p.cut pa len else [p] }
/-- The 96 lines of row `q` are written in the L2 for task `t` (R307). -/
def State.spillLines (s : State) (t g k q cls scope home : Nat) : State :=
  (List.range 96).foldl (fun s j =>
    s.l2Use t { line := rowAddr g k q (128 * j) / 128, dirty := true, cls := cls, scope := scope, home := home }) s
/-- The bytes of a register's latch that were written since its row was opened, as unpublished writes of its bank; `array` marks those of a
write-back. -/
def State.latchWrites (s : State) (g k : Nat) (sl : Slot) (array : Bool) : List PStore :=
  let base := rowAddr g k sl.row 0
  let runs := markedRuns 0 ((rowBytes sl.latch).zipIdx.map fun e =>
    ((sl.wmask.getLsbD e.2 || sl.poison.getLsbD (e.2 / 8)) && !s.laterStore g (base + e.2) sl.wbAt, e.1))
  runs.map fun r =>
        { agent := bankAgent g, ctx := sl.ctx, inn := sl.inn, task := sl.task, kind := .store, cmd := 0, ord := (s.bank g).entryNum
          done := true, seen := true, cls := sl.cls, scope := sl.scope, home := sl.home, pa := rowAddr g k sl.row r.1, data := r.2, strip := false,
          wb := array, at_ := s.cycle, pois := (sl.poison >>> (r.1 / 8)) &&& BitVec.ofNat 1536 (2 ^ ((r.1 + r.2.length + 7) / 8 - r.1 / 8) - 1) }
/-- The latch goes out. Where it must stay unpublished, the bytes written since the row was opened are held under the bank's tag: by a
write-back, which `array` marks, in the row's sense amplifiers, whose other words it stores with correct codes all the same; by a spill in the
96 lines of their L2 slices, the row keeping its contents (R113, R265, R269, R270, R303, R307). -/
def State.latchOut (s : State) (g k : Nat) (sl : Slot) (array : Bool) : State :=
  if s.holdsBack sl then
    let s1 := if array then s.scrubRow (rowAddr g k sl.row 0) else s.spillLines sl.task g k sl.row sl.cls sl.scope sl.home
    { s1 with pend := s1.pend ++ s.latchWrites g k sl array }
  else
    let s := if sl.cls = 0 then s.dropOwn g (rowAddr g k sl.row 0) 12288
             else if sl.cls = 1 then s.keepSnaps sl.task sl.scope sl.home (rowAddr g k sl.row 0) 12288 else s
    s.putRow g k sl.row sl.latch sl.poison
/-- What a register holds for publication is due at an event that publishes it: its bytes join its bank's unpublished writes, and its write-back
stores no more than the row's codes (R113, R237, R264). -/
def State.latchDue (s : State) (g k : Nat) : State :=
  let sl := s.slot g k
  { s with pend := s.pend ++ s.latchWrites g k sl true }.setSlot g k { sl with cw := 0, wmask := 0 }
/-- The closing state starts: WP, SW, DS, CC and CW clear, CR is set, the latch's poison bits go (R121). ROW is valid only from opening to
commit-pending (Table 5.3), so it is the free value `q` from here on (log entry 30). A forced close sets its own CR. -/
def Slot.startClosing (sl : Slot) (now cr q : Nat) : Slot :=
  { sl with st := .closing, row := q, wp := false, sw := false, ds := false, cc := false, cw := 0, cr := if sl.forced = 0 then cr else sl.forced
            poison := 0, wbing := false, preReq := false, pred := false, until_ := now + tRP, grace := none }
/-- Slot `k` of bank `g` starts closing. -/
def State.close (s : State) (g k : Nat) (sl : Slot) (cr : Nat) : State :=
  (s.setSlot g k (sl.startClosing s.cycle cr (s.freeVal 10).toNat)).useFree
/-- The precharge may start: tRAS has passed since the ACT or ACTW. -/
def State.rasOk (s : State) (sl : Slot) : Bool := decide (sl.actAt + tRAS ≤ s.cycle)
/-- The latch of a register is given up: it stands open with nothing to write. -/
def Slot.dropped (sl : Slot) : Slot := { sl with st := .openClean, cw := 0, cc := false, wmask := 0, wbing := false }
/-- The part closes a register as PRED does: the latch is given up, the precharge starts once tRAS has passed. A write-back under way ends
first. `forced` is the CR of a forced close. -/
def State.discard (s : State) (g k forced : Nat) : State :=
  let sl := s.slot g k
  match sl.st with
  | .closed | .closing => s
  | .opening => s.setSlot g k { sl with forced := forced, preReq := true }
  | _ =>
    if sl.st = .commitPending ∧ sl.wbing then s.setSlot g k { sl with cc := true, forced := forced }
    else
      let sl := { sl.dropped with forced := forced }
      if s.rasOk sl then s.close g k sl 0 else s.setSlot g k { sl with preReq := true }
/-- The part commits a register and closes it: its write-back is due whatever held it, and the precharge follows (R115, R116, R307). -/
def State.commitOut (s : State) (g k forced : Nat) : State :=
  let sl := s.slot g k
  if sl.preReq then s.setSlot g k { sl with forced := forced }
  else s.setSlot g k { sl with st := .commitPending, cw := 0, cc := true, forced := forced }
/-- Where a frame holds the evicted latch of bank `b`, slot `k`: the status word, then the bytes (Table 18.4). -/
def latchArea (b k : Nat) : Nat := 0x390000 + 0x4000 * (8 * b + k)
/-- Save an evicted latch with its status into the owner's frame for this rope (R115). -/
def State.saveLatch (s : State) (g k : Nat) (sl : Slot) : State :=
  let s := match s.frames.find? fun e => e.2.any fun f => f.v && f.ctx == sl.ctx && f.inn == sl.inn && f.task == sl.task && f.rope == ropeOf g with
    | some e =>
      let pa := e.1 + latchArea (rbiOf g) k
      (s.putDws pa (sl.status :: (List.range 1536).map fun w => sl.latch.extractLsb' (64 * w) 64)).markPoison (pa / 8 + 1) sl.poison
    | none => s
  { s with frames := s.frames.map fun (e : Nat × Option Frame) => match e.2 with
      | some f => if f.v ∧ f.ctx = sl.ctx ∧ f.inn = sl.inn ∧ f.task = sl.task ∧ f.rope = ropeOf g then
                    (e.1, some { f with latches := f.latches ++ [(rbiOf g, k, sl)] }) else e
      | none => e }
/-- An eviction's cycles, and the beats and lines of a latch that it saves, are charged to the owner of the register (R115, R379). -/
def State.evictCharge (s : State) (g : Nat) (sl : Slot) (cycles : Nat) (saved : Bool) : State :=
  let t := s.task sl.task
  if t.rcd = [] then s
  else
    let s := s.setTask sl.task { t with ropeCyc := t.ropeCyc + cycles }
    if saved then (s.beats (ropeOf g) sl.task 16).charge 9 sl.task 97 else s
/-- Evict a register of another incarnation (R115): a dead owner's latch is discarded, one that is commit-pending or written in the owner's
open strip is saved with its status and discarded, a write-back under way ending first, a dirty one is written back; then the slot is precharged, CR 3. -/
def State.evict (s : State) (g k : Nat) : State :=
  let sl := s.slot g k
  if sl.forced ≠ 0 then s
  else if sl.st = .opening then s.setSlot g k { sl with forced := 3 }
  else if !s.live sl.ctx sl.inn then s.discard g k 3
  else if sl.st = .commitPending ∨ sl.sw then ((s.evictCharge g sl tRP true).saveLatch g k { sl with wbing := false }).discard g k 3
  else if sl.st = .openDirty then (s.evictCharge g sl (tWB + tRP) false).commitOut g k 3
  else (s.evictCharge g sl tRP false).discard g k 3
def State.evictForeign (s : State) (g k : Nat) : State := if s.foreignSlot g k then s.evict g k else s
/-- The slot is still in the hands of another incarnation, or between two uses (R115, R124). -/
def State.slotHeld (s : State) (g k : Nat) : Bool := (s.slot g k).st == .closing || (s.slot g k).busy || s.foreignSlot g k
/-- The bank waits for the slot; a wait for a neighbour refresh is one of its wave (R311). -/
def State.slotWait (s : State) (g k idx : Nat) : State :=
  let sl := s.slot g k
  let s := if sl.alert != [] || decide (s.cycle < sl.nearTo) then s.setBank g ((s.bank g).waveWait idx) else s
  s.bstall g (if sl.debt > 0 ∨ sl.alert ≠ [] ∨ s.cycle < sl.nearTo then 3 else 1)

/-! ### Disturbance (R308) -/

/-- The row's place in the table of activation counts. -/
def rowNo (g k q : Nat) : Nat := (g * 8 + k) * 1024 + q
/-- One activation of row `q`; at 2,048 a disturbance alert clears the count and owes its neighbours a refresh. -/
def State.activate (s : State) (g k q : Nat) : State :=
  let c := tget 0 s.actCnt (rowNo g k q) + 1
  if c < 2048 then { s with actCnt := tput 0 s.actCnt (rowNo g k q) c }
  else
    let s := { s with actCnt := tput 0 s.actCnt (rowNo g k q) 0 }
    let b := s.bank g
    let sl := b.slot k
    s.setBank g { b.setSlot k { sl with alert := sl.alert ++ [q] } with alerts := b.alerts + 1 }
/-- One REF of the slot: 8 rows from the pointer, their counts cleared, DEBT down by 1 to no less than −8 (R122, R304). -/
def State.refresh (s : State) (g k : Nat) : State :=
  let sl := s.slot g k
  let s := { s with actCnt := s.actCnt.filter fun e => !(decide (rowNo g k sl.refPtr ≤ e.1) && decide (e.1 < rowNo g k sl.refPtr + 8)) }
  s.setSlot g k { sl with refPtr := (sl.refPtr + 8) % 1024, debt := max (-8) (sl.debt - 1), busy := true, until_ := s.cycle + tRFC }

/-! ### The row-state instructions (R118 to R123) -/

/-- The bank stalls on a Table 5.6 interval. -/
def State.rowWait (s : State) (g : Nat) : State := s.bstall g 1
def State.rowState (s : State) (g k : Nat) : State := s.bankTrap g .rowState (s.rowStatus g k) 0
/-- A lane access of vk is still to come (R150). -/
def State.lanesOn (s : State) (g k : Nat) : Bool := (s.seenSlot g k).laneBusy s.cycle

/-- The slot opening row `q` of region `e` for the thread of `t`. -/
def Slot.openedBy (sl : Slot) (t : Leader) (q : Nat) (e : Region) : Slot :=
  { sl with
    st := .opening, ctx := t.ctxOf, inn := t.innOf, task := t.taskOf, row := q, cr := 0, poison := 0, wbing := false
    wp := !e.mayW, pub := pubOf e.cls, sw := false, ds := false, cc := false, cw := 0, scope := e.scope, cls := e.cls, reg := e.idx
    home := e.home, wmask := 0, preReq := false, pred := false, forced := 0, wrAt := 0, rdAt := 0, useAt := 0 }
/-- Slot `k` opens row `q` for the bound thread; region `e` maps the row. ACTW (`w`) senses nothing (R119). -/
def State.opened (s : State) (g k q : Nat) (e : Region) (w : Bool) : State :=
  let t := s.leader (ropeOf g)
  let s := (s.activate g k q).charge 0 t.taskOf 1
  let (s, data, poison) := if w then (s, (0 : RowBits), (0 : BitVec 1536)) else s.senseRow g k q
  s.setSlot g k { (s.slot g k).openedBy t q e with
    latch := data, poison := poison, wmask := if w then BitVec.allOnes 12288 else 0, wbing := w
    until_ := s.cycle + (if w then tRCDW else tRCD), actAt := s.cycle }
/-- The ACTs of the bank in the last 64 cycles. -/
def State.recentActs (s : State) (b : Bank) : List Nat := b.acts.filter fun t => decide (s.cycle < t + 64)
/-- ACT and ACTW: the listing of R119. -/
def State.open_ (s0 : State) (g k : Nat) (row : Word) (w : Bool) : State :=
  let q := row.toNat
  if 1024 ≤ q then s0.bankTrap g .illegal row 0 else
  let s := s0.evictForeign g k
  let b := s.bank g
  let sl := b.slot k
  if s.slotHeld g k || s.lanesOn g k then s.slotWait g k b.wave
  else if sl.st ≠ .closed then s.rowState g k
  else match b.rowRegion g k q with
  | none => s.bankTrap g .regionMiss row 0
  | some e =>
    if e.cls = 0 ∧ ¬(e.okind = 0 ∧ e.onum = g) then s.bankTrap g .permission row 0
    else if w = false ∧ e.mayR = false then s.bankTrap g .permission row 0
    else if w ∧ e.mayW = false then s.bankTrap g .permission row 0
    else
      let s := s.engage g e
      let recent := s.recentActs b
      if s.readsPend g e || s0.engaging g e || recent.any (fun t => decide (s.cycle < t + tRRD)) || decide (4 ≤ recent.length) then s.rowWait g
      else match s.permitTake g 0 (if w then tRCDW else tRCD) with
      | none => s.permitWait g b.wave
      | some s =>
        let s := (s.opened g k q e w).waveStep g
        (s.setBank g { s.bank g with acts := recent ++ [s.cycle] }).bretire g 4
def execAct (d : BitVec 3) (n : BitVec 4) (s : State) : Outcome State Fault Refusal :=
  onBank (.act d n) (fun g s => s.open_ g d.toNat ((s.bank g).yr n.toNat) false) s
def execActw (d : BitVec 3) (n : BitVec 4) (s : State) : Outcome State Fault Refusal :=
  onBank (.actw d n) (fun g s => s.open_ g d.toNat ((s.bank g).yr n.toNat) true) s

/-- WB (R120). A write-back that nothing holds is an operation of the bank's wave (R311). -/
def State.wb (s : State) (g k : Nat) : State :=
  let sl := s.seenSlot g k
  if s.lanesOn g k then s.rowWait g else
  match sl.st with
  | .closed | .closing => s.rowState g k
  | .opening => s.rowWait g
  | .openClean | .commitPending => s.bretire g 4
  | .openDirty =>
    if s.cycle < sl.wrAt + tWR ∧ sl.wrAt ≠ 0 then s.rowWait g
    else
      let cw := if (s.bank g).strip.isSome && sl.sw then 1 else if sl.pub ≠ 0 then 2 else 0
      let s := s.setSlot g k { sl with st := .commitPending, cw := cw, wbing := false, wbAt := s.cycle }
      (if cw = 0 then s.waveStep g else s).bretire g 4
def execWb (d : BitVec 3) (s : State) : Outcome State Fault Refusal := onBank (.wb d) (fun g s => s.wb g d.toNat) s

/-- PRE (R114, R121). -/
def State.pre (s : State) (g k : Nat) : State :=
  let sl := s.seenSlot g k
  if s.lanesOn g k then s.rowWait g else
  match sl.st with
  | .closed | .closing | .openDirty => s.rowState g k
  | .opening => s.rowWait g
  | .openClean => if s.rasOk sl then (s.close g k sl 0).bretire g 4 else s.rowWait g
  | .commitPending => (s.setSlot g k { sl with cc := true }).bretire g 4
def execPre (d : BitVec 3) (s : State) : Outcome State Fault Refusal := onBank (.pre d) (fun g s => s.pre g d.toNat) s

/-- The register was commit-pending when the open strip began (R400). -/
def Bank.heldAtStrip (b : Bank) (k : Nat) : Bool :=
  match b.strip with
  | some st => (st.regs.getD k (.closed, 0, false)).1 == .commitPending
  | none => false
/-- PRED (R114, R121): a write-back that has begun is waited for; else the latch is given up at once, so that nothing writes the array
while PRED waits for tRAS; then the register closes. -/
def State.pred (s : State) (g k : Nat) : State :=
  let sl := s.seenSlot g k
  if s.lanesOn g k then s.rowWait g else
  match sl.st with
  | .closed | .closing => s.rowState g k
  | .opening => s.rowWait g
  | _ =>
    if sl.st = .commitPending ∧ sl.wbing then (s.setSlot g k { sl with pred := true }).rowWait g
    else
      let s := if sl.st = .commitPending ∧ (s.bank g).heldAtStrip k then s.spoilStrip (ropeOf g) else s
      if s.rasOk sl then (s.close g k sl 0).bretire g 4
      else (s.setSlot g k { sl.dropped with preReq := false, pred := true }).rowWait g
def execPred (d : BitVec 3) (s : State) : Outcome State Fault Refusal := onBank (.pred d) (fun g s => s.pred g d.toNat) s

/-- REF (R122). -/
def State.ref (s0 : State) (g k : Nat) : State :=
  let s := s0.evictForeign g k
  let sl := s.slot g k
  if s.slotHeld g k || s.lanesOn g k then s.slotWait g k (s.bank g).wave
  else if sl.st ≠ .closed then s.rowState g k
  else match s.permitTake g 0 tRFC with
    | none => s.permitWait g (s.bank g).wave
    | some s => (((s.refresh g k).charge 0 (s.leader (ropeOf g)).taskOf 1).waveStep g).bretire g 4
def execRef (d : BitVec 3) (s : State) : Outcome State Fault Refusal := onBank (.ref d) (fun g s => s.ref g d.toNat) s

/-- The region checks of one row of ROWCPY or ROWFILL: the source is readable; the destination PRIVATE, owned and writable. -/
def Bank.rowCheck (b : Bank) (g k q : Nat) (dest : Bool) : Option Cause :=
  match b.rowRegion g k q with
  | none => some .regionMiss
  | some e =>
    if dest then (if e.cls = 0 ∧ e.okind = 0 ∧ e.onum = g ∧ e.mayW then none else some .permission)
    else if e.mayR then none else some .permission
/-- The descriptor of Table 5.5 is well formed for this use (R123). -/
def multiOk (copy : Bool) (d a : Nat) (D : Word) : Bool :=
  let c := bits D 34 32 + 1
  let sr := bits D 25 16
  let dr := bits D 9 0
  decide (bits D 63 35 = 0 ∧ bits D 31 26 = 0 ∧ bits D 15 10 = 0) && (copy || sr == 0) && decide (dr + c ≤ 1024)
    && (!copy || decide (sr + c ≤ 1024)) && !(copy && d == a && decide (dr < sr + c ∧ sr < dr + c))
/-- The first failing row check, with its row. -/
def Bank.multiCheck (b : Bank) (g d a : Nat) (D : Word) (copy : Bool) : Option (Cause × Nat) :=
  (List.range (bits D 34 32 + 1)).findSome? fun i =>
    let src := if copy then (b.rowCheck g a (bits D 25 16 + i) false).map fun c => (c, bits D 25 16 + i) else none
    src.orElse fun _ => (b.rowCheck g d (bits D 9 0 + i) true).map fun c => (c, bits D 9 0 + i)
/-- The 64-bit fill value, 1,536 times. -/
def fillRow (v : Word) : RowBits := (List.range 1536).foldl (fun r w => r ||| (v.setWidth 98304 <<< (64 * w))) 0
/-- Neighbours of row `q` in its slot (R308). -/
def neighbours (q : Nat) : Nat := (if 0 < q then 1 else 0) + (if q < 1023 then 1 else 0)
/-- The first neighbour refresh that slot `k` owes takes its permit, and holds the slot 20 cycles a row. -/
def State.nearTake (s : State) (g k q : Nat) (rest : List Nat) : Option State :=
  (s.permitTake g (keyNear k) (20 * neighbours q)).map fun s =>
    (s.charge 0 (s.leader (ropeOf g)).taskOf 1).setSlot g k
      { s.slot g k with alert := rest, until_ := s.cycle + 20 * neighbours q, nearTo := s.cycle + 20 * neighbours q }
/-- One row of the operation starts: it and its source count an activation, and their slots are held for tCPY (R123, R308). -/
def State.rowStep (s : State) (g d a : Nat) (D : Word) (j : Nat) (copy : Bool) : State :=
  let s := if copy then s.activate g a (bits D 25 16 + j) else s
  let s := ((s.activate g d (bits D 9 0 + j)).charge 0 (s.leader (ropeOf g)).taskOf 1).spoilStrip (ropeOf g)
  let hold := fun (s : State) (k : Nat) => s.setSlot g k { s.slot g k with busy := true, until_ := s.cycle + tCPY }
  let s := hold s d
  if copy ∧ a ≠ d then hold s a else s
/-- A row of the bank's own PRIVATE region takes contents `r`: the bank's older unpublished bytes give way, and until the region is engaged others
find the contents of the last fired marker (R255, R266). -/
def State.rowTakes (s : State) (g k q : Nat) (r : RowBits) (p : BitVec 1536) : State :=
  match (s.bank g).rowRegion g k q with
  | some e =>
    let sl := { Slot.reset with
      row := q, latch := r, poison := p, wmask := BitVec.allOnes 12288, task := (s.leader (ropeOf g)).taskOf, cls := e.cls, reg := e.idx, scope := e.scope
      home := e.home, ctx := (s.bankTag g).1, inn := (s.bankTag g).2, wbAt := s.cycle }
    (s.dropOwn g (rowAddr g k q 0) 12288).latchOut g k sl true
  | none => s.putRow g k q r p
/-- The rows of the operation take their contents, all of them at its last step: no row is seen half done (R10, R123). -/
def State.rowsDone (s : State) (g d a : Nat) (D : Word) (fill : Option Word) : State :=
  (List.range (bits D 34 32 + 1)).foldl (fun s j =>
    let (s, r, p) := match fill with
      | some v => (s, fillRow v, (0 : BitVec 1536))
      | none => s.senseRow g a (bits D 25 16 + j)
    s.rowTakes g d (bits D 9 0 + j) r p) s
/-- A multi-row operation goes on after its row `j − 1`: the neighbour refreshes that row owes, the next row under its own permit, and with
the last row its effect. -/
def State.multiStep (s : State) (g d a : Nat) (D : Word) (fill : Option Word) (j : Nat) : State :=
  let owes := [d, a].findSome? fun k => match (s.slot g k).alert with
    | [] => none
    | q :: r => some (k, q, r)
  match (if j = 0 then none else owes) with
  | some (k, q, r) =>
    (match s.nearTake g k q r with
     | some s => (s.setBank g ((s.bank g).waveWait j)).bstall g 3
     | none => ((s.setBank g ((s.bank g).waveWait j)).permitAsk g (keyNear k)).bstall g 2)
  | none =>
    match s.permitTake g 0 tCPY with
    | none => s.permitWait g j
    | some s =>
      let s := s.rowStep g d a D j fill.isNone
      let b := s.bank g
      if j + 1 = bits D 34 32 + 1 then
        ((s.setBank g { b with multi := none, resume := (false, 0), waits := false }).rowsDone g d a D fill).bretire g 4
      else s.setBank g { b with multi := some { rows := j + 1, d := d, a := a }, waits := false
                                resume := if b.resume.1 then (true, j + 1) else (false, 0) }
/-- ROWCPY and ROWFILL: the listing of R123, one row an issue, each under a permit of its own. -/
def State.rowMulti (s0 : State) (i : Instr) (g d a : Nat) (D : Word) (fill : Option Word) : State :=
  let copy := fill.isNone
  match (s0.bank g).multi with
  | some m =>
    if s0.cycle < max (s0.slot g d).until_ (s0.slot g a).until_ then
      (if s0.cycle < max (s0.slot g d).nearTo (s0.slot g a).nearTo then s0.setBank g ((s0.bank g).waveWait m.rows) else s0).rowWait g
    else s0.multiStep g d a D fill m.rows
  | none =>
    if !multiOk copy d a D then s0.bankTrap g .illegal (instrWords i) 0 else
    let s := s0.evictForeign g d
    let s := if copy then s.evictForeign g a else s
    if s.slotHeld g d || s.lanesOn g d then s.slotWait g d 0
    else if s.slotHeld g a || s.lanesOn g a then s.slotWait g a 0
    else if (s.slot g d).st ≠ .closed then s.rowState g d
    else if (s.slot g a).st ≠ .closed then s.rowState g a
    else match (s.bank g).multiCheck g d a D copy with
    | some (c, q) => s.bankTrap g c (BitVec.ofNat 64 q) 0
    | none => s.multiStep g d a D fill 0
def execRowcpy (d a : BitVec 3) (n : BitVec 4) (s : State) : Outcome State Fault Refusal :=
  onBank (.rowcpy d a n) (fun g s => s.rowMulti (.rowcpy d a n) g d.toNat a.toNat ((s.bank g).yr n.toNat) none) s
def execRowfill (d : BitVec 3) (n : BitVec 4) (s : State) : Outcome State Fault Refusal :=
  onBank (.rowfill d n) (fun g s =>
    s.rowMulti (.rowfill d n) g d.toNat d.toNat ((s.bank g).yr (n.toNat + 1)) (some ((s.bank g).yr n.toNat))) s

/-! ### The transients of a slot -/

/-- ROW_OPEN_COMPLETE (R119). A register that ACTW opened carries `wbing` until it is open; an eviction that waited for it goes on. -/
def State.openDone (s : State) (g k : Nat) : State :=
  let sl := s.slot g k
  if sl.st = .opening ∧ sl.until_ ≤ s.cycle then
    let t := s.setSlot g k { sl with st := if sl.wbing then .openDirty else .openClean, wbing := false, forced := 0, preReq := false }
    if sl.preReq then t.discard g k sl.forced else if sl.forced = 3 then t.evict g k else t
  else s
def execRowOpenComplete (g k : Nat) (s : State) : Outcome State Fault Refusal := onEvent (fun s => s.openDone g k) s

/-- The array of a slot of the rope is written: the strip of which the bank has taken the checkpoint cannot be rewound, nor that of the register's
own thread (R116, R400). A write-back that the commit before it released begins before that checkpoint (R141). -/
def State.arrayWritten (s : State) (g k : Nat) : State :=
  let s := if s.foreignSlot g k && (s.slot g k).sw then s.spoilOwner g k else s
  if (s.bank g).strip.isSome then s.spoilStrip (ropeOf g) else s
/-- WRITE_BACK_START (R113): it takes a permit, or waits for one; a write-back that begins in a strip ends its rewind (R400). -/
def State.wbStart (s : State) (g k : Nat) : State :=
  if s.wbReady g k then
    match s.permitTake g (keyWb k) tWB with
    | none => s.permitAsk g (keyWb k)
    | some s => let sl := s.slot g k
                (s.setSlot g k { sl with wbing := true, until_ := s.cycle + tWB }).arrayWritten g k
  else s
def execWriteBackStart (g k : Nat) (s : State) : Outcome State Fault Refusal := onEvent (fun s => s.wbStart g k) s
/-- WRITE_BACK_END (R113, R114): the row takes the latch, unless its owner has died (R281); then open-clean, or closing if CC is set and
tRAS has passed. A PRED that waits closes the register itself. While tRAS still holds the precharge back the register stays commit-pending: the
model's choice (R114, log entry 98). -/
def State.wbEnd (s : State) (g k : Nat) : State :=
  let sl := s.slot g k
  if sl.st = .commitPending ∧ sl.wbing ∧ sl.until_ ≤ s.cycle then
    let s := if s.live sl.ctx sl.inn then s.latchOut g k sl true else s
    let sl := { sl with wbing := false, wmask := 0 }
    if sl.cc && !sl.pred then
      if s.rasOk sl then s.close g k sl 0 else s.setSlot g k { sl with preReq := true }
    else s.setSlot g k { sl with st := .openClean, cw := 0, cc := false }
  else s
def execWriteBackEnd (g k : Nat) (s : State) : Outcome State Fault Refusal := onEvent (fun s => s.wbEnd g k) s
/-- PRECHARGE_START (R121): a requested precharge starts once tRAS has passed. -/
def State.preStart (s : State) (g k : Nat) : State :=
  let sl := s.slot g k
  if sl.preReq ∧ sl.st ≠ .opening ∧ s.rasOk sl then s.close g k sl 0 else s
def execPrechargeStart (g k : Nat) (s : State) : Outcome State Fault Refusal := onEvent (fun s => s.preStart g k) s

/-- A bank trap taken at the next instruction boundary of the owner's sequencer, or at once when it is idle or between instructions (R306,
R116); its TVAL is the slot's status word as it is taken. -/
def State.queueTrap (s : State) (g k : Nat) (c : Cause) : State :=
  let b := s.bank g
  let t : BankTrap := { cause := c, disp := b.disp, tpc := b.pcAddr, tval := s.rowStatus g k, telem := BitVec.ofNat 64 k, kind := .close, seen := false }
  if b.trap.isNone && b.trapQ.isEmpty && b.multi.isNone && !b.run.any (fun r => r.coll.isSome) && (s.leader (ropeOf g)).rewind.isNone then
    s.setBank g { b with trap := some t }
  else s.setBank g { b with trapQ := b.trapQ ++ [t] }
/-- The same for the thread that opened register `sl`, which is saved: its bank takes OPEN_LIMIT when it runs again (R115, R116). -/
def State.queueSaved (s : State) (g k : Nat) (sl : Slot) : State :=
  let t : BankTrap := { cause := .openLimit, disp := 0, tpc := 0, tval := sl.status, telem := BitVec.ofNat 64 k, kind := .close, seen := false }
  { s with frames := s.frames.map fun (e : Nat × Option Frame) => match e.2 with
    | some f => if f.v && f.rope == ropeOf g && f.ctx == sl.ctx && f.inn == sl.inn && f.task == sl.task then
        (e.1, some { f with banks := f.banks.map fun b => if b.1 = g then (g, { b.2 with trapQ := b.2.trapQ ++ [t] }) else b }) else e
    | none => e }
/-- A closed slot reopens the row, or takes back the latch, that a rewind or a restore owes it, under Table 5.6 and a permit (R115, R399); a
register that had only to be closed owes nothing more. -/
def State.payOwed (s : State) (g k : Nat) : State :=
  let b := s.bank g
  let paid := fun (s : State) => s.setBank g { s.bank g with owed := (s.bank g).owed.filter fun o => o.1 != k }
  match b.owed.find? fun o => o.1 == k with
  | none => s
  | some (_, r, latch) =>
    let recent := s.recentActs b
    if r.st = .closed then paid s
    else if recent.any (fun t => decide (s.cycle < t + tRRD)) || decide (4 ≤ recent.length) then s
    else match s.permitTake g (keyOpen k) tRCD with
    | none => s.permitAsk g (keyOpen k)
    | some s =>
      let s := ((paid s).activate g k r.row).charge 0 (s.leader (ropeOf g)).taskOf 1
      let (s, data, poison) := s.senseRow g k r.row
      let s := s.setBank g { s.bank g with acts := recent ++ [s.cycle] }
      let keep := s.slot g k
      let r := if latch then r else { r with st := .opening, latch := data, poison := poison, wmask := 0, wbing := false, until_ := s.cycle + tRCD }
      s.setSlot g k { r with
        actAt := s.cycle, wrAt := 0, rdAt := 0, useAt := s.cycle + tRCD, preReq := false, pred := false, forced := 0, grace := none
        debt := keep.debt, refPtr := keep.refPtr, alert := keep.alert, tickAt := keep.tickAt, busy := false }
/-- The slot is given up, or goes on closing where the part has begun that, and owes the bank register `r`: a row to reopen, a latch to reload, or a
closed register. -/
def State.owe (s : State) (g k : Nat) (r : Slot) (latch : Bool) : State :=
  let s := if (s.slot g k).forced ≠ 0 then s else if s.foreignSlot g k then s.evict g k else s.discard g k 0
  s.setBank g { s.bank g with owed := (s.bank g).owed.filter (fun o => o.1 != k) ++ [(k, r, latch)] }
/-- CLOSING_END: the register is closed, and a forced close by the open limit traps its owner (R116); a debt is then paid by the bank itself
(R124, R304), and a row owed to a rewind or a restore is opened. -/
def State.closingEnd (s : State) (g k : Nat) : State :=
  let sl := s.slot g k
  if sl.st = .closing ∧ sl.until_ ≤ s.cycle ∧ sl.alert = [] then
    let bound := !s.foreignSlot g k
    let t := s.setSlot g k { sl with st := .closed, forced := 0, busy := decide (0 < sl.debt), until_ := s.cycle }
    if sl.forced = 2 then (if bound then t.queueTrap g k .openLimit else t.queueSaved g k sl) else t
  else if sl.st = .closed ∧ sl.busy = false then s.payOwed g k
  else s
def execClosingEnd (g k : Nat) (s : State) : Outcome State Fault Refusal := onEvent (fun s => s.closingEnd g k) s
/-- SLOT_BUSY_END (R122, R304): the busy period ends; while debt is owed and the slot is closed, the next REF starts, charged to CTX 0 (R379),
or waits for its permit; a neighbour refresh that is owed comes first. -/
def State.busyEnd (s : State) (g k : Nat) : State :=
  let sl := s.slot g k
  let inMulti := (s.bank g).multi.any fun m => m.d == k || m.a == k
  if sl.busy ∧ sl.until_ ≤ s.cycle ∧ sl.alert = [] ∧ inMulti = false then
    if sl.st = .closed ∧ 0 < sl.debt then
      match s.permitTake g (keyRef k) tRFC with
      | some s => (s.refresh g k).charge 0 0 1
      | none => s.permitAsk g (keyRef k)
    else s.setSlot g k { sl with busy := false }
  else s
def execSlotBusyEnd (g k : Nat) (s : State) : Outcome State Fault Refusal := onEvent (fun s => s.busyEnd g k) s
/-- NEIGHBOUR_REFRESH (R308): after the precharge that closes the row, its neighbours are refreshed, 20 cycles each, under a permit. -/
def State.neighbour (s : State) (g k : Nat) : State :=
  let sl := s.slot g k
  let inMulti := (s.bank g).multi.any fun m => m.d == k || m.a == k
  if (sl.st = .closing ∨ (sl.st = .closed ∧ sl.busy)) ∧ sl.until_ ≤ s.cycle ∧ inMulti = false then
    match sl.alert with
    | [] => s
    | q :: r => (s.nearTake g k q r).getD (s.permitAsk g (keyNear k))
  else s
def execNeighbourRefresh (g k : Nat) (s : State) : Outcome State Fault Refusal := onEvent (fun s => s.neighbour g k) s

/-! ### Refresh (R304 to R307) and the open limit (R116) -/

/-- The phase of the slot's refresh tick (R304). -/
def tickPhase (g k : Nat) : Nat := 1600 * (8 * (g % 48) + k)
/-- The cycle of the slot's next tick: its ticks come at its phase and every 625,000 cycles after it (R304). -/
def Slot.nextTick (sl : Slot) (g k : Nat) : Nat :=
  match sl.tickAt with
  | none => tickPhase g k
  | some t => t + 625000
/-- The scrivener's entry for a deferral of slot `k`: REFDUE (CR 0) or a forced close with its CR (Table 19.5, TYPE 4). -/
def State.deferral (s : State) (g k cr : Nat) : State :=
  let sl := s.slot g k
  s.record 4 sl.ctx sl.inn sl.task [BitVec.ofNat 64 g, BitVec.ofNat 64 k, BitVec.ofNat 64 cr]
/-- REFRESH_TICK (R304, R306): the slot's next tick is taken once its cycle has come. -/
def State.tick (s : State) (g k : Nat) : State :=
  let sl := s.slot g k
  if s.cycle < sl.nextTick g k then s else
  let debt := min 8 (sl.debt + 1)
  let b := s.bank g
  let reached := decide (debt = 8 ∧ sl.debt ≠ 8)
  let idle := decide (sl.st = .closed) && !sl.busy && decide (0 < debt)
  let sl' := { sl with debt := debt, tickAt := some (sl.nextTick g k), busy := sl.busy || idle, until_ := if idle then s.cycle else sl.until_ }
  let s := s.setBank g { b.setSlot k sl' with debtMax := max b.debtMax debt }
  let isOpen := decide (sl.st ≠ .closed ∧ sl.st ≠ .closing)
  if reached && isOpen then
    if s.foreignSlot g k then s.evict g k
    else
      let s := (s.setSlot g k { s.slot g k with grace := some s.cycle }).deferral g k 0
      (s.queueTrap g k .refdue).setBank g { (s.queueTrap g k .refdue).bank g with refdue := b.refdue + 1 }
  else s
def execRefreshTick (g k : Nat) (s : State) : Outcome State Fault Refusal := onEvent (fun s => s.tick g k) s

/-- The part forces a register closed, CR `forced` (Table 13.2, R116): a clean one, one of a dead owner and one whose write-back is done are
closed; in a forced refresh a latch that must stay unpublished is spilled and the row keeps its contents; else the latch is written back
first. A strip that wrote the register cannot be rewound (R307, R400). -/
def State.forceClose (s : State) (g k forced : Nat) : State :=
  let sl := s.slot g k
  let s := if sl.sw then s.spoilOwner g k else s
  if !s.live sl.ctx sl.inn || sl.st = .openClean then s.discard g k forced
  else if sl.preReq then s.commitOut g k forced
  else if forced = 1 ∧ sl.pub ≠ 0 then ((s.latchOut g k sl false).beats (ropeOf g) sl.task 16).discard g k forced
  else s.commitOut g k forced
/-- The register may be forced closed: it is open, no write-back or lane access of it is under way, and nothing forces it yet. -/
def State.forceable (s : State) (g k : Nat) : Bool :=
  let sl := s.slot g k
  (sl.st == .openClean || sl.st == .openDirty || sl.st == .commitPending) && !sl.wbing && sl.forced == 0 && !sl.laneBusy s.cycle
/-- REFRESH_FORCED_CLOSE (R307, Table 13.2). -/
def State.forceRefresh (s : State) (g k : Nat) : State :=
  let sl := s.slot g k
  match sl.grace with
  | none => s
  | some t =>
    if t + 160000 ≤ s.cycle ∧ s.forceable g k then
      let s := (s.deferral g k 1).forceClose g k 1
      s.setBank g { s.bank g with closeRef := (s.bank g).closeRef + 1 }
    else s
def execRefreshForcedClose (g k : Nat) (s : State) : Outcome State Fault Refusal := onEvent (fun s => s.forceRefresh g k) s

/-- The row that the waiting request `id` needs. -/
def State.reqRow (s : State) (id : Nat) : Option Nat :=
  match s.reqs.find? fun r => r.id == id with
  | some r => match r.tgt with
    | .row pa _ _ _ => some pa
    | _ => none
  | none => none
/-- OPEN_LIMIT (R116): a request has waited tOPEN for another row of an open slot. -/
def State.openLimit (s : State) (g k : Nat) : State :=
  let b := s.bank g
  let sl := b.slot k
  let due := b.foreign.any fun f => decide (f.2 + tOPEN ≤ s.cycle) && match s.reqRow f.1 with
    | some pa => slotOfPa pa == k && rowOfPa pa != sl.row
    | none => false
  if due ∧ s.forceable g k then
    let s := (s.deferral g k 2).forceClose g k 2
    s.setBank g { s.bank g with closeOpen := (s.bank g).closeOpen + 1 }
  else s
def execOpenLimit (g k : Nat) (s : State) : Outcome State Fault Refusal := onEvent (fun s => s.openLimit g k) s

/-! ### The spine (R312 to R315) -/

/-- An event in the rope's spine-error log (Table 13.4). -/
def State.spineLog (s : State) (n kind src dst beat group tries : Nat) : State :=
  let l := s.leader n
  let e := BitVec.ofNat 64 (2 ^ 63 + kind * 2 ^ 61 + src * 2 ^ 55 + dst * 2 ^ 49 + beat * 2 ^ 45 + group * 2 ^ 37 + tries * 2 ^ 34 + s.stamp)
  s.setLeader n { l with spineLog := (logPut l.spineLog l.spineOrd e).1, spineOrd := (logPut l.spineLog l.spineOrd e).2 }
/-- The kinds of transfer of R312 by their codes here (log entry 71). -/
inductive XferKind where
  | response | row | unit | fetch | spill | request
  deriving DecidableEq, Repr
def xferKind (k : Nat) : XferKind :=
  match k % 6 with
  | 0 => .response | 1 => .row | 2 => .unit | 3 => .fetch | 4 => .spill | _ => .request
/-- SPINE_TRANSFER_RECEIVE: the receiver checks the beats of a transfer of rope `n`, of kind `kind`, from `src` to `dst`. A failed attempt waits
for its retry, the fifth enters degraded mode, in which the transfer is sent once more; a delivery after retries is logged. In degraded mode no
transfer is asked for again as a whole: its beat pairs are (R313). -/
def State.spineReceive (s : State) (n kind src dst : Nat) (ok : Bool) (beat group : Nat) : State :=
  let l := s.leader n
  let other := fun (x : Xfer) => !(x.kind == kind && x.src == src && x.dst == dst)
  let rest := l.xfer.filter other
  match l.xfer.find? fun x => !other x with
  | none =>
    if ok || l.degraded then s
    else s.setLeader n { l with xfer := l.xfer ++ [{ kind := kind, src := src, dst := dst, beat := beat, group := group, tries := 0, at_ := s.cycle, waits := true }] }
  | some x =>
    if ok then
      let t := s.setLeader n { l with xfer := rest }
      if x.tries = 5 then t else t.spineLog n 0 x.src x.dst x.beat x.group x.tries
    else if l.degraded then s
    else if x.tries < 4 then s.setLeader n { l with xfer := rest ++ [{ x with at_ := s.cycle, waits := true }] }
    else ((s.setLeader n { l with xfer := rest ++ [{ x with tries := 5, at_ := s.cycle, waits := false }], degraded := true,
                                  degradedN := l.degradedN + 1 }).spineLog n 1 x.src x.dst x.beat x.group 4).rejudge
           fun t => l.bind.any fun (b : Binding) => b.task == t
/-- The event's third number names the kind and the sender: kind × 64 + sender. -/
def execSpineTransferReceive (n src dst : Nat) (ok : Bool) (beat group : Nat) (s : State) : Outcome State Fault Refusal :=
  onEvent (fun s => s.spineReceive n (src / 64 % 6) (src % 64) (dst % 64) ok (beat % 16) (group % 192)) s
/-- SPINE_RETRY: 8 cycles after its failed attempt, the transfer that has waited longest is sent again, and only that one (R312). A transfer of a tag
that is not live is dropped at its sender and not retried (R358). -/
def State.spineRetry (s : State) (n : Nat) : State :=
  let l := s.leader n
  if !s.copyLive n then s.setLeader n { l with xfer := [] } else
  match l.xfer.find? fun x => x.waits && decide (x.at_ + 8 ≤ s.cycle) && decide (x.tries < 4) with
  | some x => s.setLeader n { l with retry := l.retry + 1, xfer := l.xfer.map fun y => if y = x then { x with tries := x.tries + 1, waits := false } else y }
  | none => s
def execSpineRetry (n : Nat) (s : State) : Outcome State Fault Refusal := onEvent (fun s => s.spineRetry n) s
/-- The words that a beat carries. -/
def beatWords (beat : Nat) : BitVec 1536 := BitVec.ofNat 1536 (2 ^ 96 - 1) <<< (96 * beat)
/-- Sender and receiver as Table 13.4 codes them: a response goes from the leader's memory pipeline to bank `i`, a row of a collective from
bank `j` to bank `i`, an activation unit from bank `i` to the arrays, a spilled row and the data of a request from bank `i` to the pipeline, a
fetched block the other way round. -/
def XferKind.ends (x : XferKind) (i j : Nat) : Nat × Nat :=
  match x with
  | .response | .fetch => (32, i) | .row => (j, i) | .unit => (i, 33) | .spill | .request => (i, 32)
/-- A beat pair delivered poisoned: the words it carries in the receiving register, in the array's next activation unit, in the fetched block,
in the row that the bank last spilled from the slot, or in the data of the bank's next store (R313, R303). -/
def State.deliverBad (s : State) (n : Nat) (x : XferKind) (i k beat : Nat) : State :=
  let g := bankOf n i
  let sl := s.slot g (k % 8)
  match x with
  | .response | .row => s.setSlot g (k % 8) { sl with poison := sl.poison ||| beatWords beat }
  | .unit => s.setArray (4 * n + k % 4) { s.array (4 * n + k % 4) with unitUe := true }
  | .fetch => s.setBank g { s.bank g with fetchUe := true }
  | .spill =>
    let mine := fun (p : PStore) => p.agent == bankAgent g && !p.wb && bankOfPa p.pa == g && slotOfPa p.pa == k % 8
    (match (s.pend.filter mine).getLast? with
     | none => s
     | some last =>
       let base := rowAddr g (k % 8) (rowOfPa last.pa) 0
       { s with pend := s.pend.map fun p =>
           if mine p && rowOfPa p.pa == rowOfPa last.pa then
             { p with pois := p.pois ||| ((beatWords beat >>> ((p.pa - base) / 8)) &&& BitVec.ofNat 1536 (2 ^ ((p.data.length + 7) / 8) - 1)) }
           else p })
  | .request => s.setBank g { s.bank g with sendUe := (s.bank g).sendUe ||| beatWords beat }
/-- BEAT_PAIR_RESEND: in degraded mode a beat pair failed `fails` times; five failures deliver it poisoned (R313). `k` names the slot or
array, the bank, the sending bank of a row (five bits) and the kind of transfer. -/
def State.beatPair (s : State) (n beat group fails k : Nat) : State :=
  let l := s.leader n
  if !l.degraded || decide (fails < 5) then s else
  let x := xferKind (k / 8192)
  let i := k / 8 % 32
  let e := x.ends i (k / 256 % 32)
  ((s.setLeader n { l with poisonedN := l.poisonedN + 1 }).spineLog n 2 e.1 e.2 beat group 4).deliverBad n x i k beat
def execBeatPairResend (n beat group fails k : Nat) (s : State) : Outcome State Fault Refusal :=
  onEvent (fun s => s.beatPair n (beat % 16) (group % 192) fails k) s
/-- The scrivener copies words into TYPE 11 entries, five to an entry. -/
def State.logWords (s : State) (ws : List Word) : State :=
  (List.range ((ws.length + 4) / 5)).foldl (fun s i => s.record 11 0 0 0 ((ws.drop (5 * i)).take 5)) s
/-- The counters of a bank, a rope and its leader (Table 17.2), in the order of their numbers. -/
def Bank.counters (b : Bank) : List Nat :=
  [b.issue, tget 0 b.stalls 1, tget 0 b.stalls 2, tget 0 b.stalls 3, b.ce, b.ue, b.refdue, b.closeRef % 2 ^ 32 * 2 ^ 32 + b.closeOpen % 2 ^ 32, b.alerts, (max 0 b.debtMax).toNat]
def Leader.counters (l : Leader) : List Nat :=
  [l.retry, l.degradedN, l.poisonedN, l.issue] ++ (List.range 11).map (fun k => tget 0 l.stalls (k + 1)) ++ [l.orphan]
/-- The counters of an array, and those of the domain ports, the endpoint, the slices, the flash controller and the weight stacks. -/
def Array_.counters (a : Array_) : List Nat := [a.issue, a.throttled, a.ce, a.ue, a.sdc]
def State.packageCounters (s : State) : List Nat :=
  let w := s.weights
  ((List.range 16).flatMap fun k => [tget 0 s.hub.portOrphan k, tget 0 s.hub.portStale k]) ++ [s.host.orphan, s.host.stale] ++
  ((List.range 136).map fun k => tget 0 s.hub.sliceStale k) ++ [w.fcStale] ++
  (List.range 8).flatMap fun m => [tget 0 w.fills m, tget 0 w.rereads m, tget 0 w.uepages m, tget 0 w.progs m, tget 0 w.erasesN m, tget 0 w.retiredN m]
/-- ERROR_LOG_COPY: the scrivener copies the logs and counters of bank `g`, of its rope and of the package into its ring, and the firmware clears
the logs (R314, R387). -/
def execErrorLogCopy (g : Nat) (s : State) : Outcome State Fault Refusal :=
  onEvent (fun s =>
    let b := s.bank g
    let l := s.leader (ropeOf g)
    let s := s.logWords (BitVec.ofNat 64 g :: b.aerr ++ l.spineLog ++
      (b.counters ++ [b.fqStale] ++ l.counters ++ [l.stale] ++ ((List.range 4).flatMap fun j => (s.array (4 * ropeOf g + j)).counters) ++ s.packageCounters).map (BitVec.ofNat 64))
    (s.setBank g { b with aerr := [], aerrOrd := [] }).setLeader (ropeOf g) { l with spineLog := [], spineOrd := [] }) s
/-- STACK_RESET: degraded spines of the stack return to normal mode (R313). -/
def execStackReset (st : Nat) (s : State) : Outcome State Fault Refusal :=
  onEvent (fun s =>
    let ls := tmap Leader.reset (fun n l => if n / 24 = st then { l with degraded := false, xfer := [] } else l) s.leaders
    { s with leaders := ls }) s

end Sys2Proof.Machine
end

