-- ==== Sys2Proof/Machine/Cache.lean ====
section
/-! DEFINITION. The leaders' L1 caches and the L2 slices: which lines they hold, their replacement, and what an access leaves in them
(R19, R21, R257 to R261, R268). The value an access returns is the class rules' and not theirs; a line that no cache holds is read at its
bank. -/
namespace Sys2Proof.Machine

def State.l1Set (s : State) (n line : Nat) : List CLine := tget [] (s.leader n).l1 (line % 1024)
def State.inL1 (s : State) (n line : Nat) : Bool := holdsLine (s.l1Set n line) line
/-- A line leaves rope `n`'s L1: a written one goes to its home slice, what it holds over changed cells with it (R257). -/
def State.l1Out (s : State) (n : Nat) (v : CLine) : State :=
  if v.dirty && decide (v.line < 2 ^ 60) then
    let s := s.l2Use (s.leader n).taskOf v
    { s with cacheOld := s.cacheOld.map fun e => if e.1 == n && e.2.1 / 128 == v.line then (192, e.2) else e }
  else s.forget n v.line
/-- The L1 line is used, filled if it was absent. -/
def State.l1Use (s : State) (n : Nat) (c : CLine) (lu : Bool) : State :=
  let r := setUse c lu (s.l1Set n c.line)
  let l := s.leader n
  let t := s.setLeader n { l with l1 := tput [] l.l1 (c.line % 1024) r.1 }
  match r.2 with
  | some v => t.l1Out n v
  | none => t
/-- A line of rope `n`'s L1 is dropped. -/
def State.l1Drop (s : State) (n line : Nat) : State :=
  let l := s.leader n
  s.setLeader n { l with l1 := tput [] l.l1 (line % 1024) ((s.l1Set n line).filter fun c => c.line != line) }

/-- The caches after a read of a row line by rope `n` with this hint, and whether the line must come from its bank (Table 10.5, R260). -/
def State.readLine (s : State) (n : Nat) (c : CLine) (hint : Nat) : State × Bool :=
  let h1 := s.inL1 n c.line
  let miss := !h1 && !s.inL2 c.line
  match hint with
  | 1 => (if h1 then s.l1Use n c false else s.l2Use (s.leader n).taskOf c, miss)
  | 2 => (s.charge 9 (s.leader n).taskOf 1, !holdsDirty (s.l1Set n c.line) c.line && !s.inL2 c.line)
  | h => (if h1 then s.l1Use n c (h == 3) else (s.l2Use (s.leader n).taskOf c).l1Use n c (h == 3), miss)
/-- The caches after a store to a row line: a bypass store of a PHASED or STREAMED region acts as `.na`; any other merges into a written line,
and where it finds none leaves the caches as they are and goes through to its bank (Table 10.5, R260). What others read follows the class rules
whatever the hint (R259). -/
def State.writeLine (s : State) (n : Nat) (c : CLine) (hint : Nat) : State × Bool :=
  let d := { c with dirty := true }
  let h1 := s.inL1 n c.line
  let miss := !h1 && !s.inL2 c.line
  let hint := if hint = 2 ∧ (c.cls = 1 ∨ c.cls = 2) then 1 else hint
  match hint with
  | 1 => (if h1 then s.l1Use n d false else s.l2Use (s.leader n).taskOf d, miss)
  | 2 => (s.charge 9 (s.leader n).taskOf 1, !holdsDirty (s.l1Set n c.line) c.line && !holdsDirty (s.l2Set c.line) c.line)
  | h => (if h1 then s.l1Use n d (h == 3) else (s.l2Use (s.leader n).taskOf c).l1Use n d (h == 3), miss)
/-- The caches after a read of W-space under epoch `ep` (R257, R319). -/
def State.weightLine (s : State) (n ep w hint : Nat) : State :=
  match s.physOf (w / 2 ^ 26) ep with
  | some ph => (s.readLine n { line := wLine ph (w % 2 ^ 26), dirty := false, cls := 4, scope := 0, home := 0 } hint).1
  | none => s
/-- A SYNC access is performed at the home slice and never held in L1 (R257, R258); a bypass one allocates nothing there, and its store goes
through to the row unless it finds a written line (R260). `lu` marks the line as the next to replace (R297). -/
def State.syncLine (s : State) (t : Nat) (c : CLine) (hint : Nat := 0) (lu : Bool := false) : State × Bool :=
  if hint = 2 then (s.charge 9 t 1, if c.dirty then !holdsDirty (s.l2Set c.line) c.line else !s.inL2 c.line)
  else (s.l2Use t c lu, !s.inL2 c.line)

/-- The L2 after a bank's access to a line: its hint acts only there, and a bypass store to a PHASED or STREAMED region is no bypass (R260,
R297). A store to the bank's own PRIVATE region, which is engaged, leaves no written line there (R255). -/
def State.bankLine (s : State) (t : Nat) (c : CLine) (hint : Nat) (write : Bool) : State × Bool :=
  let miss := !s.inL2 c.line
  if hint = 2 ∧ ¬(write ∧ (c.cls = 1 ∨ c.cls = 2)) then
    (s.charge 9 t 1, if write then !holdsDirty (s.l2Set c.line) c.line else miss)
  else (s.l2Use t { c with dirty := write && c.cls != 0 } (hint == 3), miss)

/-- A fill that nothing waits for: its bank reads the line, for rope `n` or, past the ropes, the hub or the host, under a tag and a task (R258, R288). -/
def State.startFillFor (s : State) (n c i task va pa cls scope home : Nat) : State :=
  if s.reqs.any fun r => r.op == .fill && r.leader == n && (match r.tgt with | .row p _ _ _ => p / 128 == pa / 128 | _ => false) then s
  else
    { s with reqNum := s.reqNum + 1
             reqs := s.reqs ++ [{ id := s.reqNum, leader := n, ctx := c, inn := i, task := task, d := 0, op := .fill, va := va
                                  len := 0, tgt := .row pa cls scope home, done := true, miss := true, val := 0, poison := false, hint := 0
                                  born := s.cycle }] }
def State.startFill (s : State) (n va pa cls scope home : Nat) : State :=
  let l := s.leader n
  s.startFillFor n l.ctxOf l.innOf l.taskOf va pa cls scope home
/-- The number that stands for the hub and the host where a rope's number stands for a leader. -/
def hubRope : Nat := 192
/-- A line of row space is read at its home slice for `n`, under a tag and a task, and comes from its bank if it was not there (R258). -/
def State.sliceLine (s : State) (n c i task va pa cls scope home : Nat) : State :=
  let line := pa / 128
  let r := s.l2Use task { line := line, dirty := false, cls := cls, scope := scope, home := home }
  if s.inL2 line then r else r.startFillFor n c i task va (128 * line) cls scope home

/-! ### Lookups as they leave the TLBs, the L2 and the record (R246, R250, R251, R253) -/

/-- Walks of the region table of context `c` for these addresses: the reads of each different search go through the L2 once, and the scrivener
records the malformed entries that they meet (R246, R251, log entry 92). -/
def State.walkedAll (s : State) (n c i task : Nat) (vas : List Nat) : State :=
  let rtb := (s.ctx c).rtb
  (vas.map fun va => s.walkReads rtb va 13 0 4096).eraseDups.foldl (fun s ks => ks.foldl (fun s k =>
    let a := rtb + 32 * k
    s.sliceLine n c i task a a 3 0 (bankOfPa a)) s) (s.noteBad c (vas.flatMap fun va => s.walkBad c va).eraseDups)
/-- The walk for one address. -/
def State.walked (s : State) (n c i task va : Nat) : State := s.walkedAll n c i task [va]
/-- The lookups that the hub makes in context `c`, for `task` or, with 0, for itself; addresses outside the region tables' space need none. -/
def State.hubWalk (s : State) (c task : Nat) (vas : List Nat) : State :=
  s.walkedAll hubRope c (s.ctx c).inn task (vas.filter fun va => decide (va < 2 ^ 52))
/-- The second lookup of an access through a REMOTE region whose part is this one (R252). -/
def State.selfWalk (s : State) (n c i task va : Nat) (found : Option Region) : State :=
  match found.bind fun e => s.regionTarget e (va - e.vbase) with
  | some (.remote part rva _) => if part = Config.partNumber then s.walked n c i task rva else s
  | _ => s
/-- A lookup of rope `n` at `va`: the entry found becomes the most recently used, whether or not the access then faults; a walk reads
its entries through the L2 (R251). -/
def State.tlbUse (s : State) (n va : Nat) : State :=
  if scratchBase ≤ va then s else
  let l := s.leader n
  let found := s.lookup n va
  let s := if l.tlbHit va then s else s.walked n l.ctxOf l.innOf l.taskOf va
  let s := s.selfWalk n l.ctxOf l.innOf l.taskOf va found
  match found with
  | some e => s.setLeader n ((s.leader n).tlbUse e)
  | none => s
/-- The lookup that a probe of an access makes; an access that is misaligned makes none (R252). -/
def State.touch (s : State) (n va align : Nat) : State := if va % align ≠ 0 ∨ 2 ^ 52 ≤ va then s else s.tlbUse n va
/-- The same lookup as it leaves the lane bank of 8 entries and, on a miss there, the TLB. The lane bank's least recently used entry gives way: the model's
choice (R250, log entry 105). -/
def State.laneUse (s : State) (n i va : Nat) : State :=
  if scratchBase ≤ va then s else
  let old := tget [] (s.leader n).lanes (i % 32)
  match s.laneLookup n i va with
  | some e =>
    let s := if old.contains e then s else s.tlbUse n va
    let l := s.leader n
    s.setLeader n { l with lanes := tput [] l.lanes (i % 32) ((e :: old.filter fun x => x != e).take 8) }
  | none => s.tlbUse n va
/-- The row lines that `len` bytes from `pa` touch. -/
def rowLines (pa len : Nat) : List Nat := (List.range ((pa + len + 127) / 128 - pa / 128)).map fun k => pa / 128 + k
/-- An access whose data does not wait here (an engine's, a bank's, a store's) leaves its lines in the caches, and banks read those that were
in none. `bank` marks a bank's access, which no L1 holds (R297). -/
def State.useLines (s : State) (n va pa len cls scope home hint : Nat) (write : Bool) (bank : Bool := false) : State :=
  (rowLines pa len).foldl (fun s line =>
    let c : CLine := { line := line, dirty := false, cls := cls, scope := scope, home := home }
    let r := if cls = 3 then s.syncLine (s.leader n).taskOf { c with dirty := write } hint (bank && hint == 3) else if bank then s.bankLine (s.leader n).taskOf c hint write
             else if write then s.writeLine n c hint else s.readLine n c hint
    if r.2 then r.1.startFill n va (128 * line) cls scope home else r.1) s

/-- CFLUSH: the issuer's copy goes to its home slice if it was written, and is dropped (R288). -/
def State.flushLine (s : State) (n line : Nat) : State :=
  match (s.l1Set n line).find? fun c => c.line == line with
  | some c => (s.l1Drop n line).l1Out n c
  | none => s
/-- Lines of rope `n`'s L1 that `sel` selects go to their home slices, written or not, and leave the L1 (R237, R268, R292). -/
def State.flushSel (s : State) (n : Nat) (sel : CLine → Bool) : State :=
  ((s.leader n).l1.flatMap fun e => e.2.filter sel).foldl (fun s c => s.flushLine n c.line) s
/-- The written lines of rope `n`'s L1 that `sel` selects go to their home slices and stay in the L1 as clean copies (R237, R292). -/
def State.spill (s : State) (n : Nat) (sel : CLine → Bool) : State :=
  let go := (s.leader n).l1.flatMap fun e => e.2.filter fun c => c.dirty && sel c && decide (c.line < 2 ^ 60)
  let s := go.foldl (fun s c => s.l2Use (s.leader n).taskOf c) s
  let l := s.leader n
  s.setLeader n { l with l1 := tmap [] (fun _ cs => cs.map fun c => if go.contains c then { c with dirty := false } else c) l.l1 }
/-- The caches of a kill: the L1 of a rope of the dead tag holds nothing (Table 11.4). -/
def State.l1Clear (s : State) (n : Nat) : State :=
  { s.setLeader n { s.leader n with l1 := [] } with cacheOld := s.cacheOld.filter fun e => e.1 != n }

end Sys2Proof.Machine
end

