-- ==== Sys2Proof/Machine/LoadStore.lean ====
section
/-! DEFINITION. Leader loads, stores, atomics and cache control: the probe at issue, the access at its home slice, the return of its
data, remote accesses, and requests at a bank's foreign queue (R272, R273, R282 to R288, R358, R419). -/
namespace Sys2Proof.Machine

open Host (Outcome)

/-! ### Requests in flight -/

def ReqOp.isLoad : ReqOp → Bool
  | .load _ => true
  | _ => false
def ReqOp.isStore : ReqOp → Bool
  | .store _ => true
  | _ => false
def ReqOp.isAtomic : ReqOp → Bool
  | .lda | .sta _ | .amo _ _ | .cas _ _ => true
  | _ => false
def State.outstanding (s : State) (n : Nat) (p : ReqOp → Bool) : Nat := (s.reqs.filter fun r => r.leader == n && p r.op).length
/-- A word of a row-memory instruction without X (R278). -/
def heldWord (w : IWord) : Bool := w.toNat / 2 ^ 26 == 0x28 && !w.getLsbD 9
/-- Bank `g`, in the block `desc` of entry `num`, has yet to perform a row-memory instruction without X: it has not taken the entry, or one is among
the words that the block may still reach (log entry 29). -/
def State.memAhead (s : State) (g desc num : Nat) : Bool :=
  let b := s.bank g
  let words := (List.range (blockLen desc)).map fun w => tget 0 (s.leader (ropeOf g)).imem (desc % 65536 + w)
  match b.run with
  | some r =>
    if r.entry = some num then !b.tfetch && reachesWord words b.loops [r.wpos] heldWord else words.any heldWord
  | none => words.any heldWord
/-- A leader access waits for the row-memory instructions without X of the VF entries before it, until each is performed (R278).
    A bank stopped at a trap holds nobody (DEDUCED, log entry 29): its handler reads the record with LD (R394). -/
def State.heldByBanks (s : State) (n : Nat) : Bool :=
  (s.leader n).rowq.any fun e => match e.op with
    | .vf d _ _ => (List.range 32).any fun i =>
        e.open_.getLsbD i && (s.bank (bankOf n i)).trap.isNone && s.memAhead (bankOf n i) d.toNat e.num
    | _ => false
/-- A new request of leader `n`. -/
def State.newReq (s : State) (n d : Nat) (op : ReqOp) (va len : Nat) (t : Target) (done : Bool) (v : Word) (poison : Bool)
    (hint : Nat := 0) (miss : Bool := false) : State :=
  let l := s.leader n
  let r : Req := { id := s.reqNum, leader := n, ctx := l.ctxOf, inn := l.innOf, task := l.taskOf, d := d, op := op, va := va, len := len,
                   tgt := t, done := done, miss := miss, val := v, poison := poison, hint := hint, born := s.cycle }
  { s with reqs := s.reqs ++ [r], reqNum := s.reqNum + 1 }
def State.dropReq (s : State) (id : Nat) : State := { s with reqs := s.reqs.filter fun r => r.id != id }
def State.putReq (s : State) (r : Req) : State := { s with reqs := s.reqs.map fun x => if x.id = r.id then r else x }
/-- Register `d` waits for the request with number `id`. -/
def Leader.await (l : Leader) (d id : Nat) : Leader :=
  if d = 0 then l else { l with xPend := tput 0 l.xPend d id, xPoison := tput none l.xPoison d none }
/-- The extension of a loaded or old value into xd (Tables 12.1, 12.2). -/
def ReqOp.extend (op : ReqOp) (len : Nat) (v : Word) : Word :=
  let s := wordZ (sextN v.toNat (8 * len))
  let z := BitVec.ofNat 64 (v.toNat % 2 ^ (8 * len))
  match op with
  | .load true => s
  | .load false => z
  | .amo 9 _ => z
  | _ => s
/-- The region's class and own bytes decide whether an access is performed where it issues: everything but SYNC data (R266, R272). -/
def Target.atIssue : Target → Bool
  | .row _ cls _ _ => cls != 3
  | .weight _ => true
  | _ => false

/-- Write a value into xd, with or without a poison mark. -/
def State.fill (s : State) (n d : Nat) (v : Word) (poison : Option Nat) : State :=
  let l := (s.leader n).xw d v
  s.setLeader n (if d = 0 then l else { l with xPoison := tput none l.xPoison d poison })

/-- A remote access: its translation fault is reported at the instruction, so the leader waits there for the answer
(R243, R283); `ilen` is the instruction's length. -/
def State.remoteAccess (s : State) (n d : Nat) (op : ReqOp) (va len part : Nat) (t : Target) (ilen : Nat) : State :=
  match s.reqs.find? fun r => r.leader == n && r.va == va && r.op == op && (match r.tgt with | .remote .. => true | _ => false) with
  | none =>
    if 15 ≤ s.outstanding n (fun o => if op.isLoad then o.isLoad else if op.isStore then o.isStore else false) then s.stall n 8 else
    let s := s.toPart (s.leader n).ctxOf part
    let s := if op.isLoad || op == .lda then s else s.spoilStrip n
    ((s.newReq n d op va len t false 0 false).charge 0x0B (s.leader n).taskOf len).stall n (if op.isAtomic then 8 else 0x0B)
  | some r =>
    if !r.done then s.stall n (if op.isAtomic then 8 else 0x0B)
    else
      let s := s.dropReq r.id
      match r.hint with
      | 0x03 => s.trap n .misaligned (BitVec.ofNat 64 va) 0
      | 0x04 => s.trap n .regionMiss (BitVec.ofNat 64 va) 0
      | 0x05 => s.trap n .permission (BitVec.ofNat 64 va) 0
      | 0x06 => s.trap n .regionEngaged (BitVec.ofNat 64 va) 0
      | _ =>
        let s := if op.isStore || (match op with | .sta _ => true | _ => false) then s
                 else s.fill n d (op.extend len r.val) (if r.poison then some va else none)
        s.retire n ilen

/-! ### LD and ST (R282 to R285) -/

/-- The access size, and whether the load extends by sign (Table 12.1). -/
def ldSize (sz : BitVec 3) : Nat := 2 ^ (sz.toNat % 4)
/-- The effective address. -/
def effAddr (x : Word) (off : Int) (n : Nat) : Nat := (x + BitVec.ofInt 64 (off * n)).toNat
/-- A load of W-space remembers its page (R319). -/
def State.pageHint (s : State) (n w len : Nat) : Nat :=
  match s.pagesOf (s.leader n).wever w len with
  | p :: _ => 4096 * p.1 + p.2 + 1
  | [] => 0
/-- The page of a W-space load is present, and whether its rows hold the loaded bytes uncorrectable. -/
def State.reqPage (s : State) (r : Req) : Bool × Bool :=
  if r.hint = 0 then (true, false)
  else match s.frameOf ((r.hint - 1) / 4096) ((r.hint - 1) % 4096), r.tgt with
    | some f, .weight w => (true, (List.range r.len).any fun j => s.rowPoison (frameRow (stackOfPhys f.phys) f.place + w % 2 ^ 26 % 24576 + j))
    | some _, _ => (true, false)
    | none, _ => (false, false)
/-- A load's line in the caches, and whether its bank must serve it (R257 to R260). -/
def State.targetLine (s : State) (n : Nat) (t : Target) (hint : Nat) : State × Bool :=
  match t with
  | .row pa cls scope home =>
    let c : CLine := { line := pa / 128, dirty := false, cls := cls, scope := scope, home := home }
    if cls = 3 then s.syncLine (s.leader n).taskOf c hint else s.readLine n c hint
  | .weight w => (s.weightLine n (s.leader n).wever w hint, false)
  | _ => (s, false)
/-- The trap of the translation of an access at `va` (R252): those of its checks that no wait for banks comes before. With `wr` the access writes, so
that W-space and the protected parts of scratch refuse it (R316, R335, R394). -/
def State.vaTrap (s : State) (n va len : Nat) (k : AccKind) : Option State :=
  if s.heldByBanks n then none else
  match s.translate n (.leader n) va len k with
  | .error c => some ((s.touch n va len).trap n c (BitVec.ofNat 64 va) 0)
  | .ok (.weight _) => if k.wr then some ((s.tlbUse n va).trap n .permission (BitVec.ofNat 64 va) 0) else none
  | .ok (.scratch off) =>
    if k.wr && scratchProtected off len && (k.atomic || decide (0x7FF00 < off + len) || decide ((s.leader n).level.toNat < 2)) then
      some (s.trap n .permission (BitVec.ofNat 64 va) 0) else none
  | .ok _ => none
/-- The same of an access whose address register `a` carries no poison, while another source may (R390). -/
def State.vaTrapPre (s : State) (n : Nat) (a : BitVec 5) (va len : Nat) (k : AccKind) : Option State :=
  if (s.leader n).clean a.toNat then s.vaTrap n va len k else none
/-- A load: its wait for the banks, the probe, and the request. -/
def State.ldAt (s : State) (n d : Nat) (sz : BitVec 3) (va len hint : Nat) : State :=
  let k := ldSize sz
  let op := ReqOp.load (decide (sz.toNat < 4))
  if s.heldByBanks n then s.stall n 0x0B else
  match s.translate n (.leader n) va k { rd := true, wr := false, align := k } with
  | .error c => (s.touch n va k).trap n c (BitVec.ofNat 64 va) 0
  | .ok t =>
    let s := s.tlbUse n va
    let v := BitVec.ofNat 64 (leNat (s.readBytes n (.leader n) t k))
    match t with
    | .scratch _ => s.result n d (op.extend k v) len
    | .remote part _ _ => s.remoteAccess n d op va k part t len
    | _ =>
      if 15 ≤ s.outstanding n ReqOp.isLoad then s.stall n 8
      else
        let page := match t with | .weight w => s.pageHint n w k | _ => 0
        let bad := s.anyPoison n (.leader n) t k
        let (s, miss) := s.targetLine n t hint
        let s1 := s.newReq n d op va k t t.atIssue v bad page miss
        let s1 := match t with
          | .weight w => s1.wantPages (s.leader n).taskOf (s.absentPages (s.leader n).wever w k)
          | _ => s1
        (s1.setLeader n ((s1.leader n).await d s.reqNum)).retire n len
/-- A store to scratch: token records refuse it; a trap record takes only its DISP, at K (R335, R394). -/
def State.stScratch (s : State) (n off : Nat) (bs : List (BitVec 8)) (va len : Nat) : State :=
  let bad := s.trap n .permission (BitVec.ofNat 64 va) 0
  if !scratchProtected off bs.length then (s.stHeld n off bs).retire n len
  else if 0x7FF00 ≤ off ∨ (s.leader n).level.toNat < 2 then bad
  else
    let g := bankOf n ((off - 0x7FB00) / 32)
    let b := s.bank g
    let k := (off - 0x7FB00) % 32
    let s := if k ≤ 1 ∧ 1 < k + bs.length then
        let v := (bs.getD (1 - k) 0).setWidth 2
        match b.trap with
        | some t => s.setBank g { b with trap := some { t with disp := v } }
        | none => s.setBank g { b with disp := v }
      else s
    s.retire n len
def State.stAt (s : State) (n d : Nat) (sz : BitVec 3) (va len hint : Nat) : State :=
  let k := ldSize sz
  let v := s.xr n d
  let bs := leBytes k v.toNat
  if s.heldByBanks n then s.stall n 0x0B else
  match s.translate n (.leader n) va k { rd := false, wr := true, align := k } with
  | .error c => (s.touch n va k).trap n c (BitVec.ofNat 64 va) 0
  | .ok t =>
    let s := s.tlbUse n va
    match t with
    | .scratch off => s.stScratch n off bs va len
    | .remote part _ _ => s.remoteAccess n 0 (.store v) va k part t len
    | .weight _ => s.trap n .permission (BitVec.ofNat 64 va) 0
    | .row pa cls scope home =>
      if cls = 3 then
        if 15 ≤ s.outstanding n ReqOp.isStore then s.stall n 8
        else
          let (s, miss) := s.syncLine (s.leader n).taskOf { line := pa / 128, dirty := true, cls := cls, scope := scope, home := home } hint
          ((s.newReq n 0 (.store v) va k t false 0 false 0 miss).spoilStrip n).retire n len
      else ((s.storeRow n (.leader n) pa cls scope home bs).useLines n va pa k cls scope home hint true).retire n len

def execLd (d a : BitVec 5) (sz : BitVec 3) (h : BitVec 2) (o : BitVec 11) (s : State) : Outcome State Fault Refusal :=
  onLeader (.ld d a sz h o) [a.toNat] (fun n s => s.ldAt n d.toNat sz (effAddr (s.xr n a.toNat) o.toInt (ldSize sz)) 4 h.toNat) s
def execLdExt (d a : BitVec 5) (sz : BitVec 3) (h : BitVec 2) (o : BitVec 37) (s : State) : Outcome State Fault Refusal :=
  onLeader (.ldExt d a sz h o) [a.toNat] (fun n s => s.ldAt n d.toNat sz (effAddr (s.xr n a.toNat) o.toInt (ldSize sz)) 8 h.toNat) s
def execSt (d a : BitVec 5) (sz : BitVec 3) (h : BitVec 2) (o : BitVec 11) (s : State) : Outcome State Fault Refusal :=
  onLeaderC (.st d a sz h o) [a.toNat, d.toNat]
    (fun n s => s.vaTrapPre n a (effAddr (s.xr n a.toNat) o.toInt (ldSize sz)) (ldSize sz) { rd := false, wr := true, align := ldSize sz }) (fun n s => s.stAt n d.toNat sz (effAddr (s.xr n a.toNat) o.toInt (ldSize sz)) 4 h.toNat) s
def execStExt (d a : BitVec 5) (sz : BitVec 3) (h : BitVec 2) (o : BitVec 37) (s : State) : Outcome State Fault Refusal :=
  onLeaderC (.stExt d a sz h o) [a.toNat, d.toNat]
    (fun n s => s.vaTrapPre n a (effAddr (s.xr n a.toNat) o.toInt (ldSize sz)) (ldSize sz) { rd := false, wr := true, align := ldSize sz }) (fun n s => s.stAt n d.toNat sz (effAddr (s.xr n a.toNat) o.toInt (ldSize sz)) 8 h.toNat) s

/-! ### Atomics (R272, R273, R286, R287) -/

/-- f of R286 for op codes 0 to 9 on values of `w` bits. -/
def amoFn (op w old v : Nat) : Nat :=
  match op with
  | 0 => (old + v) % 2 ^ w
  | 1 => old &&& v
  | 2 => old ||| v
  | 3 => old ^^^ v
  | 4 => v
  | 5 => if sextN old w ≤ sextN v w then old else v
  | 6 => if sextN v w ≤ sextN old w then old else v
  | 7 => min old v
  | 8 => max old v
  | _ => (fpAdd fmtFP32 0 0 (old % 2 ^ 32) (v % 2 ^ 32)).1
/-- The new value an atomic writes, if it writes one. -/
def ReqOp.newValue (op : ReqOp) (len old : Nat) : Option Nat :=
  let w := 8 * len
  match op with
  | .store v => some (v.toNat % 2 ^ w)
  | .sta v => some (v.toNat % 2 ^ w)
  | .amo o v => some (amoFn o w old (v.toNat % 2 ^ w))
  | .cas e v => if old = e.toNat % 2 ^ w then some (v.toNat % 2 ^ w) else none
  | _ => none
/-- The task's working copy of a byte of a PHASED word: the snapshot until an AMO of the task's phase writes it (R273). -/
def State.amoByte (s : State) (task pa : Nat) : BitVec 8 :=
  match s.amos.find? fun a => a.task == task && a.pa == pa with
  | some a => a.value.setWidth 8
  | none => (s.heldByte task pa).getD (s.rowByte pa)
/-- Write bytes of the task's working copy. -/
def State.amoWrite (s : State) (task scope home pa : Nat) : List (BitVec 8) → State
  | [] => s
  | b :: r =>
    let rest := s.amos.filter fun a => !(a.task == task && a.pa == pa)
    State.amoWrite { s with amos := rest ++ [{ task := task, scope := scope, home := home, pa := pa, len := 1, value := b.setWidth 64 }] }
      task scope home (pa + 1) r
/-- The translation check of an atomic before the consumption of its other sources (R390). -/
def State.atomPre (s : State) (n : Nat) (a : BitVec 5) (len : Nat) (rd wr : Bool) : Option State :=
  s.vaTrapPre n a (s.xr n a.toNat).toNat len { rd := rd, wr := wr, align := len, atomic := true }
def atomLen (z : BitVec 1) : Nat := if z = 1 then 8 else 4
/-- An atomic at issue: one at a time; a scratch word at once; an LDA or STA of a PHASED region as an ordinary access. -/
def State.atomicAt (s : State) (n d : Nat) (op : ReqOp) (va len : Nat) (k : AccKind) : State :=
  if s.heldByBanks n then s.stall n 0x0B else
  match s.translate n (.leader n) va len { k with align := len, atomic := true } with
  | .error c => (s.touch n va len).trap n c (BitVec.ofNat 64 va) 0
  | .ok t =>
    let s := s.tlbUse n va
    if s.reqs.any fun r => r.leader == n && r.op.isAtomic && !r.done && (match r.tgt with | .remote .. => false | _ => true) then s.stall n 8
    else match t with
    | .scratch off =>
      if scratchProtected off len && k.wr then s.trap n .permission (BitVec.ofNat 64 va) 0
      else
        let old := leNat (s.readBytes n (.leader n) t len)
        let s := match op.newValue len old with
          | some v => s.scratchNow n off (leBytes len v)
          | none => s
        let s := match op with | .lda => s | _ => s.spoilStrip n
        match op with
        | .sta _ => s.retire n 4
        | _ => s.result n d (op.extend len (BitVec.ofNat 64 old)) 4
    | .remote part _ _ => s.remoteAccess n d op va len part t 4
    | .weight _ => s.trap n .permission (BitVec.ofNat 64 va) 0
    | .row pa cls scope home =>
      let s := match op with | .lda => s | _ => s.spoilStrip n
      match op, decide (cls = 1) with
      | .sta v, true => ((s.storeRow n (.leader n) pa cls scope home (leBytes len v.toNat)).useLines n va pa len cls scope home 0 true).retire n 4
      | .lda, true =>
        let v := BitVec.ofNat 64 (leNat (s.readBytes n (.leader n) t len))
        let bad := s.anyPoison n (.leader n) t len
        let (s, miss) := s.targetLine n t 0
        let s1 := s.newReq n d op va len t true v bad 0 miss
        (s1.setLeader n ((s1.leader n).await d s.reqNum)).retire n 4
      | _, _ =>
        let (s, miss) := s.syncLine (s.leader n).taskOf { line := pa / 128, dirty := op != .lda, cls := cls, scope := scope, home := home }
        let s1 := s.newReq n d op va len t false 0 false 0 miss
        match op with
        | .sta _ => s1.retire n 4
        | _ => (s1.setLeader n ((s1.leader n).await d s.reqNum)).retire n 4
def execLda (d a : BitVec 5) (z : BitVec 1) (s : State) : Outcome State Fault Refusal :=
  onLeader (.lda d a z) [a.toNat]
    (fun n s => s.atomicAt n d.toNat .lda (s.xr n a.toNat).toNat (atomLen z) { rd := true, wr := false, align := 1 }) s
def execSta (a b : BitVec 5) (z : BitVec 1) (s : State) : Outcome State Fault Refusal :=
  onLeaderC (.sta a b z) [a.toNat, b.toNat] (fun n s => s.atomPre n a (atomLen z) false true)
    (fun n s => s.atomicAt n 0 (.sta (s.xr n b.toNat)) (s.xr n a.toNat).toNat (atomLen z) { rd := false, wr := true, align := 1 }) s
def execAmo (d a b : BitVec 5) (z : BitVec 1) (o : BitVec 4) (s : State) : Outcome State Fault Refusal :=
  onLeaderC (.amo d a b z o) [a.toNat, b.toNat] (fun n s => s.atomPre n a (atomLen z) true true)
    (fun n s => s.atomicAt n d.toNat (.amo o.toNat (s.xr n b.toNat)) (s.xr n a.toNat).toNat (atomLen z) { rd := true, wr := true, align := 1 }) s
def execCas (d a b : BitVec 5) (z : BitVec 1) (s : State) : Outcome State Fault Refusal :=
  onLeaderC (.cas d a b z) [a.toNat, b.toNat, d.toNat] (fun n s => s.atomPre n a (atomLen z) true true)
    (fun n s => s.atomicAt n d.toNat (.cas (s.xr n d.toNat) (s.xr n b.toNat)) (s.xr n a.toNat).toNat (atomLen z)
                  { rd := true, wr := true, align := 1 }) s

/-! ### At the slice, the foreign queue and the port -/

/-- The 8-byte word that a request names: of row space, or of another part. -/
def Target.word : Target → Nat × Nat
  | .row pa _ _ _ => (0, pa / 8)
  | .remote p va _ => (p + 1, va / 8)
  | .weight w => (2 ^ 60, w / 8)
  | .scratch o => (2 ^ 61, o / 8)
/-- An older request of the same leader to the same 8-byte word, by whatever region it came, has not been performed (R272). -/
def State.olderSameWord (s : State) (r : Req) : Bool :=
  s.reqs.any fun q => q.leader == r.leader && decide (q.id < r.id) && !q.done && q.tgt.word == r.tgt.word
/-- Perform a request at its home slice after its tag check: a dead tag's request is dropped, and a response that the fabric no longer takes is
dropped where it enters (R272, R273, R358). -/
def State.perform (s : State) (r : Req) : State :=
  match r.tgt with
  | .row pa cls scope home =>
    if !s.liveAt 1 r.ctx r.inn then
      let k := sliceOf pa
      { s.dropReq r.id with hub := { s.hub with sliceStale := tput 0 s.hub.sliceStale k (tget 0 s.hub.sliceStale k + 1) } }
    else if r.done ∨ r.miss ∨ s.olderSameWord r then s
    else
      let phased := decide (cls = 1)
      let bytes := (List.range r.len).map fun k => if phased then s.amoByte r.task (pa + k) else s.rowByte (pa + k)
      let bad := (List.range r.len).any fun k => s.rowPoison (pa + k)
      let old := leNat bytes
      let s1 := match r.op.newValue r.len old with
        | some v => if phased then s.amoWrite r.task scope home pa (leBytes r.len v) else s.writeRows pa (leBytes r.len v)
        | none => s
      if r.op.isStore || (match r.op with | .sta _ => true | _ => false) || !s.liveAt 7 r.ctx r.inn then s1.dropReq r.id
      else s1.putReq { r with done := true, val := BitVec.ofNat 64 old, poison := bad }
  | _ => s
def State.req? (s : State) (id : Nat) : Option Req := s.reqs.find? fun r => r.id == id
def execSlicePerform (id : Nat) (s : State) : Outcome State Fault Refusal :=
  onEvent (fun s => match s.req? id with
    | some r => s.perform r
    | none => s) s
/-- The request's line has come from its bank. -/
def State.arrived (s : State) (r : Req) : State :=
  match r.op with
  | .fill => s.dropReq r.id
  | _ => let r := { r with miss := false }
         if r.done then s.putReq r else (s.putReq r).perform r
/-- FOREIGN_REQUEST: a request whose line is not in L2 reaches its bank. A closed idle slot is opened under a permit, read and precharged; the
open row is served from its sense amplifiers; any other row of an open slot waits in the foreign queue, and those of one slot are served in
the order of their arrival (R116, R280, R302, R308, R309). -/
def State.foreign (s : State) (g id : Nat) : State :=
  match s.req? id with
  | none => s
  | some r => match r.tgt with
    | .row pa _ _ _ =>
      if bankOfPa pa ≠ g ∨ r.miss = false then s else
      let b := s.bank g
      let k := slotOfPa pa
      let q := rowOfPa pa
      let sl := b.slot k
      let out := fun (s : State) => s.setBank g { s.bank g with foreign := (s.bank g).foreign.filter fun f => f.1 != id }
      let queued := fun (s : State) => if b.foreign.any fun f => f.1 == id then s
        else s.setBank g { s.bank g with foreign := (s.bank g).foreign ++ [(id, s.cycle)] }
      if !s.liveAt 2 r.ctx r.inn then out ((s.dropReq id).setBank g { b with fqStale := b.fqStale + 1 })
      else if sl.row = q ∧ (sl.st = .openClean ∨ sl.st = .openDirty ∨ sl.st = .commitPending) then out (s.arrived r)
      else if sl.st = .closed ∧ sl.busy = false ∧
          ((b.foreign.takeWhile fun f => f.1 != id).all fun f => (s.reqRow f.1).all fun p => slotOfPa p != k) then
        match s.permitTake g (keyForeign k) tRCD with
        | none => queued (s.permitAsk g (keyForeign k))
        | some s =>
          let s := s.charge 0 r.task 1
          let s := if r.op == .diag then s.activate g k q else ((s.activate g k q).senseRow g k q).1
          out ((s.setSlot g k { s.slot g k with busy := true, until_ := s.cycle + tRAS + tRP }).arrived r)
      else queued s
    | _ => s
def execForeignRequest (g id : Nat) (s : State) : Outcome State Fault Refusal := onEvent (fun s => s.foreign g id) s
/-- The domain port to a part, one of 16 (R11); 16 or more says that the part is unreachable (R419). -/
def State.portOf (s : State) (part : Nat) : Nat := tget 0 s.hub.routes part
/-- The response to a request whose incarnation is no longer live at the port it reaches, that of its leader or the domain port it came by, is
discarded and counted there (R358); the bytes that crossed a port are charged to CTX 0 (R379). -/
def State.orphaned (s : State) (r : Req) : State :=
  let s1 := s.dropReq r.id
  match r.tgt with
  | .remote part _ _ =>
    let k := s.portOf part
    { s1 with hub := { s.hub with portOrphan := tput 0 s.hub.portOrphan k (tget 0 s.hub.portOrphan k + 1) } }.charge 0x0B 0 r.len
  | _ =>
    let l := s.leader r.leader
    s1.setLeader r.leader { l with orphan := l.orphan + 1 }
/-- The port at which the request's response arrives still takes it for live: the domain port of a remote one, else the leader's. -/
def State.portLive (s : State) (r : Req) : Bool :=
  s.liveAt (match r.tgt with | .remote .. => 5 | _ => 0) r.ctx r.inn
/-- LOAD_RETURN: the data of a performed access reaches its register, marking it poisoned if uncorrectable; an answer of another
part brings its value `v`, with cause 0x10 an uncorrectable one, or the cause of its fault (R243, R284). -/
def State.loadReturn (s : State) (id : Nat) (v : Word) (cause : Nat) : State :=
  match s.req? id with
  | none => s
  | some r =>
    match r.tgt with
    | .remote .. => if r.done then s else if !s.portLive r then s.orphaned r else
        s.putReq { r with done := true, val := v, hint := if 3 ≤ cause ∧ cause ≤ 6 then cause else 0, poison := cause == 0x10 }
    | _ =>
      let wgt : Bool := match r.tgt with | .weight _ => true | _ => false
      let pg := if wgt then s.reqPage r else (true, false)
      if !r.done || r.miss || !pg.1 || r.op == .fill || r.op == .diag then s
      else if !s.portLive r then s.orphaned r
      else
        let t := (s.dropReq id).usePages (if wgt && r.hint != 0 then [((r.hint - 1) / 4096, (r.hint - 1) % 4096)] else [])
        let n := r.leader
        if r.d ≠ 0 ∧ tget 0 (s.leader n).xPend r.d = id then
          t.fill n r.d (r.op.extend r.len r.val) (if r.poison || pg.2 then some r.va else none) else t
def execLoadReturn (id : Nat) (v : Word) (cause : Nat) (s : State) : Outcome State Fault Refusal :=
  onEvent (fun s => s.loadReturn id v cause) s
/-- REMOTE_TIMEOUT: the part is unreachable, or the request is undelivered after 200 µs; a read comes back poisoned, a write or atomic is
dropped and recorded (R419). -/
def execRemoteTimeout (id : Nat) (s : State) : Outcome State Fault Refusal :=
  onEvent (fun s => match s.req? id with
    | some r => match r.tgt with
      | .remote part _ _ =>
        if r.done || (decide (s.portOf part < 16) && decide (s.cycle < r.born + 500000)) then s else
        let s := s.putReq { r with done := true, val := 0, poison := true, hint := 0 }
        if r.op.isLoad then s else s.record 5 r.ctx r.inn r.task [BitVec.ofNat 64 part, BitVec.ofNat 64 r.va]
      | _ => s
    | none => s) s
/-- ORPHAN_RESPONSE: the issuer's incarnation is dead when its answer comes; the answer is discarded at the domain port it came by, or at the
leader's port, and counted there (R358). -/
def execOrphanResponse (id : Nat) (s : State) : Outcome State Fault Refusal :=
  onEvent (fun s => match s.req? id with
    | some r => if s.portLive r then s else s.orphaned r
    | none => s) s
/-- What the request of another part does: `kind` 0 reads, 1 writes, 2 to 11 is the AMO of code `kind` − 2, 12 an LDA, 13 an STA, and from 14
on a CAS that expects `kind` − 14. -/
def remoteOp (kind : Nat) (v : Word) : ReqOp :=
  match kind with
  | 0 => .load false
  | 1 => .store v
  | 12 => .lda
  | 13 => .sta v
  | k => if k < 12 then .amo (k - 2) v else .cas (BitVec.ofNat 64 (k - 14)) v
def remoteKind (kind len : Nat) : AccKind :=
  { rd := kind != 1 && kind != 13, wr := kind != 0 && kind != 12, atomic := decide (2 ≤ kind), align := len }
/-- The task of this part that runs under a tag, to which the work of the tag's requests from other parts is charged: the lowest-numbered that has
not ended; 0 when none does. -/
def State.taskOfTag (s : State) (ctx inn : Nat) : Nat :=
  ((s.tasks.find? fun e => e.2.ctx == ctx && e.2.inn == inn && e.2.rcd != [] && !e.2.ended).map fun e => e.1).getD 0
/-- The answer to agent `a` of another part under a tag goes out: a cause, or 0 with the data and whether it is uncorrectable (R243). -/
def State.answer (s : State) (a ctx inn cause : Nat) (v : Word) (bad : Bool) : State :=
  { s with hub := { s.hub with answers := s.hub.answers ++ [{ agent := a, ctx := ctx, inn := inn, cause := cause, value := v, poison := bad }] } }
/-- A byte that agent `agent` of another part reads under a tag: its own latest unpublished store, which its requests left here under task 0, else
what any agent of another task reads (R266, R273). -/
def State.remoteByte (s : State) (agent ctx inn cls pa : Nat) : BitVec 8 :=
  match lastPend (fun p => p.visibleTo agent 0) s.pend pa with
  | some b => b
  | none => s.viewByte agent (tagTask (agent / 8192) ctx inn) cls pa
def State.remotePoison (s : State) (agent ctx inn cls pa : Nat) : Bool :=
  poisonOver (fun p => p.visibleTo agent 0) s.pend pa (s.viewPoison agent (tagTask (agent / 8192) ctx inn) cls pa)
/-- REMOTE_REQUEST on row memory: performed at the home slice, whose line comes from its bank when it is not there (R258, R302). A write to PHASED
or STREAMED data waits for its publication, and an atomic on PHASED data is performed on the working copy of the tag's other parts (R270, R271,
R273). -/
def State.remoteRow (s : State) (agent ctx inn va len kind : Nat) (v : Word) (pa cls scope home : Nat) : State :=
  let t := tagTask (agent / 8192) ctx inn
  let k := remoteKind kind len
  let op := remoteOp kind v
  let work := decide (cls = 1) && (match op with | .amo _ _ | .cas _ _ => true | _ => false)
  let old := leNat ((List.range len).map fun j => if work then s.amoByte t (pa + j) else s.remoteByte agent ctx inn cls (pa + j))
  let bad := (List.range len).any fun j => s.remotePoison agent ctx inn cls (pa + j)
  let pay := s.taskOfTag ctx inn
  let r := s.syncLine pay { line := pa / 128, dirty := k.wr, cls := cls, scope := scope, home := home }
  let s := (if r.2 then r.1.startFillFor hubRope ctx inn pay va (128 * (pa / 128)) cls scope home else r.1).charge 0x0B pay len
  let s := match op.newValue len old with
    | none => s
    | some w =>
      if work then s.amoWrite t scope home pa (leBytes len w)
      else if cls ≠ 3 then
        let p : PStore := { agent := agent, ctx := ctx, inn := inn, task := 0, kind := .store, cmd := 0, done := true, seen := true, cls := cls,
                            scope := scope, home := home, pa := pa, data := leBytes len w, strip := false }
        { s with pend := s.pend ++ [p] }
      else s.writeRows pa (leBytes len w)
  s.answer agent ctx inn 0 (op.extend len (BitVec.ofNat 64 old)) bad
/-- REMOTE_REQUEST: an access by agent number `agent` of another part is translated here through the region table of its context, performed
and answered (R243, R263, R359). A tag on the remote tag list is dropped. A read of W-space is answered once its page is staged: a page that is
absent is asked for, and the request stays with the port until then (R319). -/
def State.remoteRequest (s : State) (agent ctx inn va len kind : Nat) (v : Word) : State :=
  let part := agent / 8192
  let k := remoteKind kind len
  if s.hub.remoteTags.contains (part, ctx, inn) then
    let k := s.portOf part
    { s with hub := { s.hub with portStale := tput 0 s.hub.portStale k (tget 0 s.hub.portStale k + 1) } }
  else if ¬(len = 1 ∨ len = 2 ∨ len = 4 ∨ len = 8) then s
  else if va % len ≠ 0 then s.answer agent ctx inn 0x03 0 false
  else
    let found := s.walk ctx va
    let s := s.walked hubRope ctx inn (s.taskOfTag ctx inn) va
    match found with
    | none => s.answer agent ctx inn 0x04 0 false
    | some e => match s.probeRegion ctx (.leader hubRope) e va len k with
      | .error c => s.answer agent ctx inn c.code 0 false
      | .ok (.weight w) =>
        let ep := s.weights.epoch
        let gone := s.absentPages ep w len
        if gone ≠ [] then
          let s := s.wantPages (s.taskOfTag ctx inn) gone
          { s with hub := { s.hub with asks := s.hub.asks ++ [(agent, ctx, inn, va, len)] } }
        else (s.usePages (s.pagesOf ep w len)).answer agent ctx inn 0 (BitVec.ofNat 64 (leNat ((List.range len).map fun j => s.weightByte ep (w + j))))
          ((List.range len).any fun j => s.weightPoison ep (w + j))
      | .ok (.row pa cls scope home) => s.remoteRow agent ctx inn va len kind v pa cls scope home
      | .ok _ => s.answer agent ctx inn 0x04 0 false
def execRemoteRequest (agent ctx inn va len kind : Nat) (v : Word) (s : State) : Outcome State Fault Refusal :=
  onEvent (fun s => s.remoteRequest agent ctx inn va len kind v) s

/-! ### Cache control (R261, R288) -/

/-- A cache instruction on the line that holds `va`, of row space or of W-space. -/
def State.lineOp (s : State) (n va len : Nat) (k : AccKind) (f : State → Nat → State) : State :=
  match s.translate n (.leader n) va 1 k with
  | .error c => (s.touch n va 1).trap n c (BitVec.ofNat 64 va) 0
  | .ok t =>
    let s := s.tlbUse n va
    match t with
    | .row pa _ _ _ => (f s (pa / 128)).retire n len
    | .weight w => (match s.physOf (w / 2 ^ 26) (s.leader n).wever with
      | some ph => (f s (wLine ph (w % 2 ^ 26))).retire n len
      | none => s.retire n len)
    | _ => s.retire n len
/-- CDISCARD: what the issuing agent itself wrote to the line and has not published is dropped, and its L1 copy; an engine's shadow is not the
issuer's own line (R261, R276). -/
def State.discardLine (s : State) (n line : Nat) : State :=
  let keep := s.pend.flatMap fun (p : PStore) => if p.agent == leaderAgent n && !p.strip && p.kind == PKind.store then p.cut (128 * line) 128 else [p]
  (({ s with pend := keep } : State).l1Drop n line).forget n line
/-- CFLUSH: the issuer's written line goes to its home slice and stays unpublished there, which no read can tell (R270, R288). -/
def State.cflushAt (s : State) (n va len : Nat) : State :=
  s.lineOp n va len { rd := true, wr := false, align := 1 } (fun s l => s.flushLine n l)
def State.cdiscardAt (s : State) (n va len : Nat) : State :=
  s.lineOp n va len { rd := false, wr := true, discard := true, align := 1 } (fun s l => s.discardLine n l)
/-- PFL starts the fill of its line, of the caches that its hint names; a fault makes it do nothing (R288). A W-space line's page is used
where it is staged, and asked for where it is not (R319, R321). -/
def State.pflAt (s : State) (n va len hint : Nat) : State :=
  match s.translate n (.leader n) va 1 { rd := true, wr := false, align := 1 } with
  | .ok t =>
    let s := s.tlbUse n va
    let s := match t with
      | .row pa cls scope home => s.useLines n va pa 1 cls scope home hint false
      | .weight w => ((s.targetLine n t hint).1.usePages (s.pagesOf (s.leader n).wever (w / 128 * 128) 128)).wantPages (s.leader n).taskOf
          (s.absentPages (s.leader n).wever (w / 128 * 128) 128)
      | _ => s
    s.retire n len
  | .error _ => (s.touch n va 1).retire n len
def execPfl (a : BitVec 5) (h : BitVec 2) (o : BitVec 11) (s : State) : Outcome State Fault Refusal :=
  onLeader (.pfl a h o) [a.toNat] (fun n s => s.pflAt n (effAddr (s.xr n a.toNat) o.toInt 128) 4 h.toNat) s
def execPflExt (a : BitVec 5) (h : BitVec 2) (o : BitVec 37) (s : State) : Outcome State Fault Refusal :=
  onLeader (.pflExt a h o) [a.toNat] (fun n s => s.pflAt n (effAddr (s.xr n a.toNat) o.toInt 128) 8 h.toNat) s
def execCflush (a : BitVec 5) (o : BitVec 11) (s : State) : Outcome State Fault Refusal :=
  onLeader (.cflush a o) [a.toNat] (fun n s => s.cflushAt n (effAddr (s.xr n a.toNat) o.toInt 128) 4) s
def execCflushExt (a : BitVec 5) (o : BitVec 37) (s : State) : Outcome State Fault Refusal :=
  onLeader (.cflushExt a o) [a.toNat] (fun n s => s.cflushAt n (effAddr (s.xr n a.toNat) o.toInt 128) 8) s
def execCdiscard (a : BitVec 5) (o : BitVec 11) (s : State) : Outcome State Fault Refusal :=
  onLeader (.cdiscard a o) [a.toNat] (fun n s => s.cdiscardAt n (effAddr (s.xr n a.toNat) o.toInt 128) 4) s
def execCdiscardExt (a : BitVec 5) (o : BitVec 37) (s : State) : Outcome State Fault Refusal :=
  onLeader (.cdiscardExt a o) [a.toNat] (fun n s => s.cdiscardAt n (effAddr (s.xr n a.toNat) o.toInt 128) 8) s

end Sys2Proof.Machine
end

