-- ==== Sys2Proof/Machine/Vmem.lean ====
section
/-! DEFINITION. The row-memory instructions: the probe pass, the element accesses of the unit-stride, indexed and segment forms, and the
peer forms (R294 to R300). -/
namespace Sys2Proof.Machine

open Host (Outcome)

/-- One access of an element: its address and bytes, and the register bytes it moves. `scale` marks the scale word of an MX segment,
of which only the lowest byte moves (R298); `via` names the element whose lane bank translates (R253). -/
structure VUnit where
  va    : Nat
  len   : Nat
  reg   : Nat
  off   : Nat
  scale : Bool := false
  via   : Option Nat := none
  deriving DecidableEq, Repr

/-- An active element, record or segment: the word of vb its address needs when that is poisoned, its probes (address and bytes), and
its accesses. -/
structure VEl where
  el     : Nat
  bad    : Option Nat := none
  probes : List (Nat × Nat)
  units  : List VUnit
  deriving DecidableEq, Repr

/-- A row-memory instruction as it finds the bank: checks 1 and 2 of R145, its row operands in the order of check 3, element size in the
registers, the alignment of its addresses, its active elements, whether it stores, orders its elements, and the index register. -/
structure VForm where
  okLim : Bool
  regs  : List (Nat × Bool)
  es    : Nat
  align : Nat
  els   : List VEl
  store : Bool
  ord   : Bool
  vb    : Nat := 0
  idx   : Bool := false     -- its probes go through the lane banks (R253)
  mx    : Bool := false     -- MX segments

/-- An element address modulo 2^64 (R294). -/
def elAddr (base : Word) (o : Nat) : Nat := (base.toNat + o) % 2 ^ 64

/-! ### The forms -/

/-- VLD and VST (Table 12.6). -/
def vldForm (d p e : BitVec 3) (o : Bool) (y : BitVec 4) (store : Bool) (b : Bank) : VForm :=
  let s := esizeOf (effFmt b.vt e)
  let base := b.yr y.toNat
  { okLim := decide (b.vl * s ≤ rowLimit b.vt), regs := [(d.toNat, !store)], es := s, align := s, store := store, ord := o
    els := (activeEls (b.pr p.toNat) b.vl s).map fun i =>
      let va := elAddr base (i * s)
      { el := i, probes := [(va, s)], units := [{ va := va, len := s, reg := d.toNat, off := s * i }] } }
/-- The word of register `k` that holds bytes from `off`, if it is poisoned. -/
def Bank.poisonedAt (b : Bank) (k off : Nat) : Option Nat := if (b.slot k).poison.getLsbD (off / 8) then some (off / 8) else none
/-- VLDX and VSTX: index x_i is the unsigned value of size t = max(s, 4). -/
def vldxForm (d v p e : BitVec 3) (o : Bool) (y : BitVec 4) (store : Bool) (b : Bank) : VForm :=
  let s := esizeOf (effFmt b.vt e)
  let t := max s 4
  let base := b.yr y.toNat
  { okLim := decide (b.vl * s ≤ rowLimit b.vt ∧ b.vl * t ≤ rowLimit b.vt), regs := [(v.toNat, false), (d.toNat, !store)], es := s
    align := s, store := store, ord := o, vb := v.toNat, idx := true
    els := (activeEls (b.pr p.toNat) b.vl s).map fun i =>
      let va := elAddr base (rowGet (b.slot v.toNat).latch t i)
      { el := i, bad := b.poisonedAt v.toNat (t * i), probes := [(va, s)]
        units := [{ va := va, len := s, reg := d.toNat, off := s * i, via := some i }] } }
/-- The field shape of VLDSEG and VSTSEG (R298). -/
def segFieldForm (d v p e : BitVec 3) (o : Bool) (y : BitVec 4) (store : Bool) (b : Bank) : VForm :=
  let s := esizeOf (effFmt b.vt e)
  let nf := v.toNat + 1
  let base := b.yr y.toNat
  { okLim := decide (b.vl * s ≤ rowLimit b.vt ∧ 2 ≤ nf ∧ d.toNat + nf - 1 ≤ 7)
    regs := (List.range nf).map fun f => (d.toNat + f, !store), es := s, align := s, store := store, ord := o
    els := (activeEls (b.pr p.toNat) b.vl s).map fun i =>
      let at_ := fun f => elAddr base ((i * nf + f) * s)
      { el := i, probes := (List.range nf).map fun f => (at_ f, s)
        units := (List.range nf).map fun f => { va := at_ f, len := s, reg := d.toNat + f, off := s * i } } }
/-- The MX shape: segment j of 4w + 4 bytes, its element bytes in vd, its scale byte in scale lane 0 of v(d + 1). -/
def segMxForm (d v p : BitVec 3) (o : Bool) (y : BitVec 4) (store : Bool) (b : Bank) : VForm :=
  let w := mxWidth (vtEF b.vt)
  let base := b.yr y.toNat
  let pr := b.pr p.toNat
  { okLim := decide (b.vl ≤ rowLimit b.vt ∧ v = 1 ∧ d.toNat ≤ 6 ∧ b.vl % (4 * w) = 0)
    regs := [(d.toNat, !store), (d.toNat + 1, !store)], es := 1, align := 4, store := store, ord := o, mx := true
    els := ((List.range (b.vl / (4 * w))).filter fun j => pr.getLsbD (4 * w * j)).map fun j =>
      let va := elAddr base (j * (4 * w + 4))
      { el := j, probes := [(va, 4 * w + 4)]
        units := ((List.range w).map fun k => { va := va + 4 * k, len := 4, reg := d.toNat, off := 4 * w * j + 4 * k }) ++
                 [{ va := va + 4 * w, len := 4, reg := d.toNat + 1, off := j, scale := true }] } }
/-- The shape that the effective format chooses; any other format fails check 2. -/
def segForm (d v p e : BitVec 3) (o : Bool) (y : BitVec 4) (store : Bool) (b : Bank) : VForm :=
  let F := effFmt b.vt e
  if F < 0x0C then segFieldForm d v p e o y store b
  else if e = 0 ∧ F ≤ 0x11 then segMxForm d v p o y store b
  else { okLim := false, regs := [], es := 1, align := 1, els := [], store := store, ord := o }

/-! ### The probe pass (R295) -/

/-- An access of another part: its fault, if any, is the other part's to say (R243): one of the causes of R252, or none. -/
def State.remoteFault (s : State) (va : Nat) : Option Cause :=
  match (s.openAt 3 va).toNat with
  | 0 => some .regionMiss
  | 1 => some .permission
  | 2 => some .regionEngaged
  | _ => none
/-- The region entry that an access finds, by the lane bank of its element or in the TLB (R250, R253). -/
def State.viaLookup (s : State) (g : Nat) (via : Option Nat) (va : Nat) : Option Region :=
  match via with
  | some i => s.laneLookup (ropeOf g) i va
  | none => s.lookup (ropeOf g) va
/-- The same for the probe of element `i`. -/
def State.vlookup (s : State) (g : Nat) (f : VForm) (i va : Nat) : Option Region := s.viaLookup g (if f.idx then some i else none) va
/-- The kind of the form's accesses. -/
def VForm.kind (f : VForm) : AccKind := { rd := !f.store, wr := f.store, align := f.align }
/-- The fault of one probed access of element `i`. -/
def State.vfault (s : State) (g : Nat) (f : VForm) (i va len : Nat) : Option Cause :=
  match s.translateBy (s.vlookup g f i va) (ropeOf g) (.bank g) va len f.kind with
  | .error c => some c
  | .ok (.remote _ rva _) => s.remoteFault rva
  | .ok _ => none
/-- Insert by key, after equal keys. -/
def insertKey {α : Type} (k : Nat) (v : α) : List (Nat × α) → List (Nat × α)
  | [] => [(k, v)]
  | (a, w) :: r => if k < a then (k, v) :: (a, w) :: r else (a, w) :: insertKey k v r
/-- The probes of an element, lowest address first (R295). -/
def VEl.inOrder (e : VEl) : List (Nat × Nat) := (e.probes.foldl (fun acc p => insertKey p.1 p acc) []).map fun x => x.2
/-- The fault of an element: its cause and TVAL. -/
def State.elFault (s : State) (g : Nat) (f : VForm) (e : VEl) : Option (Cause × Word) :=
  match e.bad with
  | some w => some (.ueConsumed, (s.slot g f.vb).wordAddr g f.vb w)
  | none => e.inOrder.findSome? fun p => (s.vfault g f e.el p.1 p.2).map fun c => (c, BitVec.ofNat 64 p.1)
/-- The fault of the lowest faulting element. -/
def State.vprobe (s : State) (g : Nat) (f : VForm) : Option (Nat × Cause × Word) :=
  f.els.findSome? fun e => (s.elFault g f e).map fun x => (e.el, x.1, x.2)
/-- What the probe pass leaves in the lane banks and the TLB: every probe that is aligned is looked up, whatever it finds (R251, R253). -/
def State.vtouch (s : State) (g : Nat) (f : VForm) : State :=
  f.els.foldl (fun s e => if e.bad.isSome then s else e.probes.foldl (fun s p =>
    if p.1 % f.align ≠ 0 ∨ 2 ^ 52 ≤ p.1 then s
    else if f.idx then s.laneUse (ropeOf g) e.el p.1 else s.tlbUse (ropeOf g) p.1) s) s
/-- The regions that the form's accesses touch. -/
def State.vregions (s : State) (g : Nat) (f : VForm) : List Region :=
  (f.els.flatMap fun e => e.probes.filterMap fun p => s.vlookup g f e.el p.1).eraseDups

/-! ### The element accesses (R296) -/

/-- Where an access goes, once its probe has passed. -/
def State.unitAt (s : State) (g : Nat) (u : VUnit) (k : AccKind) : Except Cause Target :=
  s.translateBy (s.viaLookup g u.via u.va) (ropeOf g) (.bank g) u.va u.len k
/-- The bytes and poison that a load finds at `va`. -/
def State.unitRead (s : State) (g : Nat) (u : VUnit) : List (BitVec 8) × Bool :=
  match s.unitAt g u { rd := true, wr := false, align := 1 } with
  | .ok (.remote _ rva _) => ((List.range u.len).map fun k => s.openAt 8 (2 ^ 53 + rva + k), s.openAt 1 (2 ^ 54 + rva) == 1)
  | .ok t => (s.readBytes (ropeOf g) (.bank g) t u.len, s.anyPoison (ropeOf g) (.bank g) t u.len)
  | .error _ => (List.replicate u.len 0, false)
/-- Write the bytes of one access. A store to another part spoils the strip (R285). -/
def State.unitWrite (s : State) (g : Nat) (u : VUnit) (bs : List (BitVec 8)) : State :=
  let n := ropeOf g
  match s.unitAt g u { rd := false, wr := true, align := 1 } with
  | .ok (.row pa cls scope home) => s.storeRow n (.bank g) pa cls scope home bs
  | .ok (.remote part ..) =>
    (s.toPart (s.leader n).ctxOf part).spoilStrip n
  | _ => s
/-- The data of a store that the spine delivered poisoned reaches memory poisoned (R303, R313): the write just made of `len` bytes at `pa`. -/
def State.storedBad (s : State) (g pa len : Nat) : State :=
  let bad := BitVec.ofNat 1536 (2 ^ ((pa + len + 7) / 8 - pa / 8) - 1)
  match s.pend.getLast? with
  | some p => if p.agent == bankAgent g && p.pa == pa && p.data.length == len then { s with pend := s.pend.dropLast ++ [{ p with pois := bad }] }
              else s.markPoison (pa / 8) bad
  | none => s.markPoison (pa / 8) bad
/-- One access of a store, whose words `ue` of its registers the spine delivers poisoned. -/
def State.unitStore (s : State) (g : Nat) (u : VUnit) (bs : List (BitVec 8)) (ue : BitVec 1536) : State :=
  let t := s.unitWrite g u bs
  if (List.range u.len).any fun k => ue.getLsbD ((u.off + k) / 8) then
    match s.unitAt g u { rd := false, wr := true, align := 1 } with
    | .ok (.row pa ..) => t.storedBad g pa u.len
    | _ => t
  else t
/-- The lines of the form's accesses in the L2, under its hint (R297). -/
def State.vlines (s : State) (g : Nat) (f : VForm) (hint : Nat) : State :=
  (f.els.flatMap fun e => e.units).foldl (fun s u =>
    match s.unitAt g u { f.kind with align := 1 } with
    | .ok (.row pa cls scope home) => s.useLines (ropeOf g) u.va pa u.len cls scope home hint f.store true
    | .ok (.remote part ..) => (s.toPart (s.leader (ropeOf g)).ctxOf part).charge 0x0B (s.leader (ropeOf g)).taskOf u.len
    | .ok (.weight w) => match s.physOf (w / 2 ^ 26) (s.bank g).wever with
      | some ph => (s.bankLine (s.leader (ropeOf g)).taskOf { line := wLine ph (w % 2 ^ 26), dirty := false, cls := 4, scope := 0, home := 0 } hint false).1
      | none => s
    | _ => s) s
/-- What the register bytes of an access hold, as stored. -/
def Bank.unitData (b : Bank) (u : VUnit) : List (BitVec 8) :=
  let r := (b.slot u.reg).latch
  if u.scale then [rowGetByte r u.off, 0, 0, 0] else (List.range u.len).map fun k => rowGetByte r (u.off + k)
/-- The elements in an order that the spec leaves open (R296). -/
def State.anyOrder {α : Type} (s : State) (els : List α) : List α :=
  (els.zipIdx.foldr (fun e acc => insertKey (s.openAt 16 (2 ^ 55 + e.2)).toNat e.1 acc) []).map fun x => x.2
/-- The bytes that the form moves, and its active elements (Table 12.7). -/
def VForm.moved (f : VForm) : Nat := (f.els.flatMap fun e => e.units).foldl (fun n u => n + u.len) 0
/-- The cycles that the data moves for. -/
def VForm.sweep (f : VForm) : Nat := if f.idx then (f.els.length + 31) / 32 else (f.moved + 383) / 384
/-- The cycle of the last chunk of a form issued at `now` (Table 12.7). -/
def VForm.done (f : VForm) (now : Nat) : Nat := now + 1 + 40 + f.sweep + (if f.mx then 6 else 4)

/-- The loaded units of one register: writes, and the words that receive poison. -/
def loadWrites (es : Nat) (us : List (VUnit × List (BitVec 8) × Bool)) (k : Nat) : RowW :=
  let mine := us.filter fun u => u.1.reg == k
  { k := k, es := es
    vs := mine.flatMap fun u =>
      if u.1.scale then
        [(u.1.off, if leNat (u.2.1.drop 1) = 0 then (u.2.1.getD 0 0).toNat else 0xFF)]
      else if es = u.1.len then [(u.1.off / es, leNat u.2.1)]
      else u.2.1.zipIdx.map fun b => (u.1.off + b.2, b.1.toNat)
    carry := mine.flatMap fun u => if u.2.2 then wordsOf [(u.1.off, if u.1.scale then 1 else u.1.len)] else [] }
/-- Perform the loads. -/
def State.vload (s : State) (g : Nat) (f : VForm) : State :=
  let us := (f.els.flatMap fun e => e.units).map fun u => (u, s.unitRead g u)
  let nv := us.any fun u => u.1.scale && decide (leNat (u.2.1.drop 1) ≠ 0)
  let o : LaneOut := { rows := f.regs.filterMap fun r => if r.2 then some (loadWrites f.es us r.1) else none, fl := if nv then flNV else 0 }
  s.setBank g ((s.bank g).laneOut o (f.done s.cycle) true)
/-- Perform the stores, with O in rising order. Words that the spine has yet to deliver poisoned to the bank's next store go with this one (R313). -/
def State.vstore (s : State) (g : Nat) (f : VForm) : State :=
  let b := s.bank g
  let els := if f.ord then f.els else s.anyOrder f.els
  let s := if b.sendUe = 0 then s else s.setBank g { b with sendUe := 0 }
  els.foldl (fun s e => e.units.foldl (fun s u => s.unitStore g u (b.unitData u) b.sendUe) s) s
/-- A lane instruction has yet to read or write a register that the instruction names, or four row-memory instructions are in flight
(R297). -/
def State.vbusy (s : State) (g : Nat) (regs : List (Nat × Bool)) : Bool :=
  regs.any (fun r => (s.slot g r.1).laneBusy s.cycle) || decide (4 ≤ ((s.bank g).vmems.filter fun t => decide (s.cycle < t)).length)
/-- The scoreboard after a row-memory instruction: its own place in flight until `done`; a reader of a loaded register waits for its chunk, a
writer of a stored one until the store has read it (R297). -/
def Bank.inFlight (b : Bank) (now read done : Nat) (regs : List (Nat × Bool)) : Bank :=
  let b := regs.foldl (fun b r => let sl := b.slot r.1
    b.setSlot r.1 (if r.2 then { sl with useAt := max sl.useAt (done - read + 1) } else { sl with rdAt := max sl.rdAt (now + 1 + read) })) b
  { b with vmems := (b.vmems.filter fun t => decide (now < t)) ++ [done] }
/-- The staging pages of a form's W-space elements (R319). -/
def State.vpages (s : State) (g : Nat) (f : VForm) : List (Nat × Nat) :=
  f.els.flatMap fun e => e.probes.flatMap fun p =>
    match s.translateBy (s.vlookup g f e.el p.1) (ropeOf g) (.bank g) p.1 p.2 { rd := true, wr := false, align := 1 } with
    | .ok (.weight w) => s.pagesOf (s.bank g).wever w p.2
    | _ => []
/-- A row-memory instruction that is no peer form: the checks of R145, the probe pass, the engagement of PRIVATE regions that it stores to,
then the accesses. -/
def State.vmem (s : State) (ws : List IWord) (g hint : Nat) (mk : Bank → VForm) : State :=
  let b := s.bank g
  let f := mk b
  let n := ropeOf g
  if !f.okLim then s.bankTrap g .illegal (wordsVal ws) 0
  else match s.rowsChk g f.regs with
    | .wait => s.bstall g 1
    | .bad c v e => let t := s.bankTrap g c v e
                    if c = .permission then t.useFree else t
    | .ok =>
      if s.vbusy g f.regs then s.bstall g 1
      else match s.vprobe g f with
      | some (el, .ueConsumed, v) => (s.vtouch g f).bankConsume g .ueConsumed v (BitVec.ofNat 64 el)
      | some (el, c, v) => (s.vtouch g f).bankTrap g c v (BitVec.ofNat 64 el)
      | none =>
        let needs := if f.store then f.els.flatMap fun e => e.units.map fun u => (u.reg, e.el, u.off, if u.scale then 1 else u.len) else []
        match b.firstPoison needs with
        | some (r, w, el) => (s.vtouch g f).bankConsume g .ueConsumed ((b.slot r).wordAddr g r w) (BitVec.ofNat 64 el)
        | none =>
          let pages := if f.store then [] else s.vpages g f
          let gone := pages.filter fun p => !s.staged p.1 p.2
          let own := if f.store then s.vregions g f else []
          if gone ≠ [] then (s.wantPages (s.leader n).taskOf gone).bstall g 1
          else if own.any fun e => s.engaging g e || s.readsPend g e then (own.foldl (fun s e => s.engage g e) s).bstall g 1
          else
            let t := (((s.usePages pages).vtouch g f).vlines g f hint)
            let t := (if f.store then t.vstore g f else t.vload g f).beats n (s.leader n).taskOf (beatsOf f.moved)
            (t.setBank g ((t.bank g).inFlight s.cycle f.sweep (f.done s.cycle) f.regs)).bretire g 4

def execVld (d p e : BitVec 3) (o x : BitVec 1) (y : BitVec 4) (h : BitVec 2) (s : State) : Outcome State Fault Refusal :=
  onBank (.vld d p e o x y h) (fun g s => s.vmem (encode (.vld d p e o x y h)) g h.toNat (vldForm d p e (o == 1) y false)) s
def execVst (d p e : BitVec 3) (o x : BitVec 1) (y : BitVec 4) (h : BitVec 2) (s : State) : Outcome State Fault Refusal :=
  onBank (.vst d p e o x y h) (fun g s => s.vmem (encode (.vst d p e o x y h)) g h.toNat (vldForm d p e (o == 1) y true)) s
def execVldx (d b p e : BitVec 3) (o x : BitVec 1) (y : BitVec 4) (h : BitVec 2) (s : State) : Outcome State Fault Refusal :=
  onBank (.vldx d b p e o x y h) (fun g s => s.vmem (encode (.vldx d b p e o x y h)) g h.toNat (vldxForm d b p e (o == 1) y false)) s
def execVstx (d b p e : BitVec 3) (o x : BitVec 1) (y : BitVec 4) (h : BitVec 2) (s : State) : Outcome State Fault Refusal :=
  onBank (.vstx d b p e o x y h) (fun g s => s.vmem (encode (.vstx d b p e o x y h)) g h.toNat (vldxForm d b p e (o == 1) y true)) s
def execVldseg (d n p e : BitVec 3) (o x : BitVec 1) (y : BitVec 4) (h : BitVec 2) (s : State) : Outcome State Fault Refusal :=
  onBank (.vldseg d n p e o x y h) (fun g s => s.vmem (encode (.vldseg d n p e o x y h)) g h.toNat (segForm d n p e (o == 1) y false)) s
def execVstseg (d n p e : BitVec 3) (o x : BitVec 1) (y : BitVec 4) (h : BitVec 2) (s : State) : Outcome State Fault Refusal :=
  onBank (.vstseg d n p e o x y h) (fun g s => s.vmem (encode (.vstseg d n p e o x y h)) g h.toNat (segForm d n p e (o == 1) y true)) s

/-! ### Peer forms (R299) -/

/-- Where an index of a peer form points: package bank and byte. -/
structure PeerAt where
  el   : Nat
  bank : Nat
  byte : Nat
  deriving DecidableEq, Repr
/-- The target of element `i`; none when the index itself, the rope's binding or the byte is at fault. -/
def State.peerTarget (s : State) (g vb es i : Nat) : Option PeerAt :=
  let x := rowGet (s.slot g vb).latch 4 i
  let byte := x % 2 ^ 14
  let rope := x / 2 ^ 19 % 256
  if 2 ^ 27 ≤ x ∨ 192 ≤ rope ∨ s.granted (x / 2 ^ 14 % 32) = false then none
  else if !((s.leader rope).bind.any fun (b : Binding) => (b.ctx, b.inn) == s.bankTag g) then none
  else if byte % es ≠ 0 ∨ rowLimit (s.bank g).vt < byte + es then none
  else some { el := i, bank := bankOf rope (x / 2 ^ 14 % 32), byte := byte }
/-- What the target register allows: access, a fault, or a wait for an opening register. -/
def State.peerChk (s : State) (g vk : Nat) (write : Bool) (t : PeerAt) : Chk :=
  let sl := s.seenSlot t.bank vk
  if (sl.ctx, sl.inn) ≠ s.bankTag g then .bad .rowState 0 0
  else match sl.st with
    | .opening => .wait
    | .openClean | .openDirty => if write && sl.wp then .bad .permission 0 0 else .ok
    | .commitPending => if write then .bad .rowState 0 0 else .ok
    | _ => .bad .rowState 0 0
/-- The cycle of the last access of a peer form issued at `now`: by the farthest target that it reaches (Table 12.7). -/
def peerDone (now g n : Nat) (ts : List PeerAt) : Nat :=
  if ts.any fun t => t.bank / 768 != g / 768 then now + 260 + (n + 7) / 8
  else if ts.any fun t => ropeOf t.bank != ropeOf g then now + 60 + (n + 7) / 8
  else now + 20 + (n + 31) / 32
/-- The fault mask: the bit that governs each active element is its fault, every other bit stays. -/
def faultMask (old : PredBits) (es : Nat) (act : List Nat) (bad : Nat → Bool) : PredBits :=
  act.foldl (fun p i => putBits p (es * i) 1 (if bad i then 1 else 0)) old
/-- VLDX.peer and VSTX.peer. -/
def State.peer (s : State) (ws : List IWord) (g : Nat) (d vk v p e : BitVec 3) (ord store : Bool) (m : BitVec 3) : State :=
  let b := s.bank g
  let es := esizeOf (effFmt b.vt e)
  let act := activeEls (b.pr p.toNat) b.vl es
  let regs := [(v.toNat, false), (d.toNat, !store)]
  if rowLimit b.vt < b.vl * es ∨ rowLimit b.vt < b.vl * 4 then s.bankTrap g .illegal (wordsVal ws) 0
  else match s.rowsChk g regs with
    | .wait => s.bstall g 1
    | .bad c tv te => let t := s.bankTrap g c tv te
                      if c = .permission then t.useFree else t
    | .ok =>
      if s.vbusy g regs then s.bstall g 1
      else match b.firstPoison (elNeeds v.toNat 4 act) with
      | some (r, w, el) => s.bankConsume g .ueConsumed ((b.slot r).wordAddr g r w) (BitVec.ofNat 64 el)
      | none =>
        let ts := act.filterMap fun i => s.peerTarget g v.toNat es i
        if ts.any fun t => s.peerChk g vk.toNat store t == .wait then s.bstall g 1
        else
          let good := ts.filter fun t => s.peerChk g vk.toNat store t == .ok
          let mask := faultMask (b.pr m.toNat) es act fun i => !good.any fun t => t.el == i
          let done := peerDone s.cycle g act.length good
          let fly := fun (s : State) => (s.setBank g ((s.bank g).inFlight s.cycle ((act.length + 31) / 32) done regs)).beats (ropeOf g)
            (s.leader (ropeOf g)).taskOf (beatsOf (es * act.length))
          if store then
            match b.firstPoison (elNeeds d.toNat es (good.map fun t => t.el)) with
            | some (r, w, el) => s.bankConsume g .ueConsumed ((b.slot r).wordAddr g r w) (BitVec.ofNat 64 el)
            | none =>
              let put := fun (s : State) (t : PeerAt) =>
                let tb := s.bank t.bank
                let here := ropeOf t.bank == ropeOf g
                let s := s.setBank t.bank (tb.setSlot vk.toNat ((tb.slot vk.toNat).outWrite done
                  ((List.range es).map fun j => (t.byte + j, (rowGetByte (b.slot d.toNat).latch (es * t.el + j)).toNat)) (here && tb.strip.isSome)))
                if here then s else s.spoilStrip (ropeOf g)
              let s := (if ord then good else s.anyOrder good).foldl put s
              (fly (s.setBank g ((s.bank g).pw m.toNat mask))).bretire g 4
          else
            let val := fun i => match good.find? fun t => t.el == i with
              | some t => rowGet (s.slot t.bank vk.toNat).latch es (t.byte / es)
              | none => 0
            let carry := good.flatMap fun t =>
              if (wordsOf [(t.byte, es)]).any fun w => (s.slot t.bank vk.toNat).poison.getLsbD w then wordsOf [(es * t.el, es)] else []
            let o : LaneOut := { rows := [{ k := d.toNat, es := es, vs := act.map fun i => (i, val i), carry := carry }]
                                 p := some (m.toNat, mask, byteMask (act.map fun i => (es * i, 1))) }
            (fly (s.setBank g (b.laneOut o done true))).bretire g 4
def execVldxPeer (d a b p e : BitVec 3) (o x : BitVec 1) (m : BitVec 3) (s : State) : Outcome State Fault Refusal :=
  onBank (.vldxPeer d a b p e o x m) (fun g s => s.peer (encode (.vldxPeer d a b p e o x m)) g d a b p e (o == 1) false m) s
def execVstxPeer (d a b p e : BitVec 3) (o x : BitVec 1) (m : BitVec 3) (s : State) : Outcome State Fault Refusal :=
  onBank (.vstxPeer d a b p e o x m) (fun g s => s.peer (encode (.vstxPeer d a b p e o x m)) g d a b p e (o == 1) true m) s

end Sys2Proof.Machine
end

