-- ==== Sys2Proof/Machine/Publish.lean ====
section
/-! DEFINITION. Belays, PUBLISH, cairns and triggers: their instructions, their markers at the banks, their completion points, and the
strip rewind (R31 to R33, R113, R264 to R276, R289 to R293, R352 to R354, R397 to R401). -/
namespace Sys2Proof.Machine

open Host (Outcome)

/-! ### The parties of a belay (R264) -/

/-- The saved frame of rope `r` of task `t`. -/
def State.savedFrame (s : State) (t r : Nat) : Option Frame :=
  s.frames.findSome? fun e => match e.2 with
    | some f => if f.v && f.task == t && f.rope == r then some f else none
    | none => none
/-- The leader thread of rope `r` of task `t`: saved, bound, or not yet started. -/
def State.thread (s : State) (t r : Nat) : Leader :=
  match s.savedFrame t r with
  | some f => f.leader
  | none => if (s.leader r).bind.isSome && (s.leader r).taskOf == t then s.leader r else Leader.reset
def State.setThread (s : State) (t r : Nat) (l : Leader) : State :=
  if (s.savedFrame t r).isSome then
    { s with frames := s.frames.map fun (e : Nat × Option Frame) => match e.2 with
      | some f => if f.v && f.task == t && f.rope == r then (e.1, some { f with leader := l }) else e
      | none => e }
  else if (s.leader r).bind.isSome && (s.leader r).taskOf == t then s.setLeader r l else s
/-- The widest domain of a task's hierarchy (R24, R290). -/
def Task.widest (t : Task) : Nat :=
  (List.range (bits (t.dw 0) 48 46 + 1)).foldl (fun m k => max m (bits (t.dw (8 + k)) 2 0)) 0

/-! ### BELAY, BELAY.RED, PUBLISH (R289 to R292) -/

/-- The level check of R290. -/
def State.belayTrap (s : State) (n level : Nat) : Option State :=
  if (s.leader n).arrival.isNone && decide ((s.task (s.leader n).taskOf).widest < level) then some (s.trap n .illegal (BitVec.ofNat 64 level) 0)
  else none
/-- The leader's part of a belay: its issue, its wait, and its end. `fn` is what a differing reduction reports. -/
def State.belay (s : State) (n level fn : Nat) (red : Option (Nat × Nat × Word)) : State :=
  let l := s.leader n
  match l.arrival with
  | none =>
    if (s.task l.taskOf).widest < level then s.trap n .illegal (BitVec.ofNat 64 level) 0
    else if s.rowqFull n then s.stall n 5
    else if l.commitWait.isSome then s.stall n 0x0B
    else
      let s := s.place n (.belay level) s.grantedMask (s.commitMask n) 0
      (s.setLeader n { s.leader n with
        arrival := some { level := level, red := red, done := false, bad := false, engines := l.engDone, insts := [] } }).stall n
          (if l.strip.isSome then 0x0B else 1)
  | some a =>
    if !a.done then s.stall n (if l.strip.isSome then 0x0B else 1)
    else
      let s := s.setLeader n { l with arrival := none }
      if a.bad then s.trap n .illegal (BitVec.ofNat 64 fn) 0 else s.retire n 4
def execBelay (k : BitVec 3) (s : State) : Outcome State Fault Refusal :=
  onLeader (.belay k) [] (fun n s => s.belay n k.toNat (32 * k.toNat) none) s
def execBelayRed (d a : BitVec 5) (k : BitVec 3) (r : BitVec 5) (s : State) : Outcome State Fault Refusal :=
  onLeaderC (.belayRed d a k r) [a.toNat] (fun n s => s.belayTrap n k.toNat) (fun n s =>
    s.belay n k.toNat (256 + 32 * k.toNat + r.toNat) (some (r.toNat, d.toNat, s.xr n a.toNat))) s
/-- PUBLISH (R292): the leader's written PHASED lines up to the level go to their home slices and stay unpublished there, which no read can
tell. -/
def execPublish (k : BitVec 3) (s : State) : Outcome State Fault Refusal :=
  onLeader (.publish k) [] (fun n s => (s.spill n fun c => c.cls == 1 && decide (c.scope ≤ k.toNat)).retire n 4) s

/-! ### Markers at a bank (R31, R113, R149) -/

/-- The write-backs that a publishing event releases at bank `g`: registers of the bank's task held with this PUB, up to the scope. -/
def State.releasePub (s : State) (g pub level : Nat) : State :=
  s.setBank g ((List.range 8).foldl (fun b k =>
    let sl := b.slot k
    if sl.st = .commitPending ∧ sl.cw = 2 ∧ sl.pub = pub ∧ sl.scope ≤ level ∧ (sl.ctx, sl.inn) = s.bankTag g
    then b.setSlot k { sl with cw := 0 } else b) (s.bank g))
/-- The bank's flags go to its leader and are cleared (R149). -/
def State.mergeFlags (s : State) (g : Nat) : State :=
  let b := s.bank g
  let l := s.leader (ropeOf g)
  let s := s.setLeader (ropeOf g) { l with csr := { l.csr with fflags := l.csr.fflags ||| b.fflags, vxsat := l.csr.vxsat || b.vxsat } }
  s.setBank g { b with fflags := 0, vxsat := false }
/-- The bank reaches a strip commit that the entry carries. -/
def State.reachCommit (s : State) (g num : Nat) : State :=
  let r := ropeOf g
  s.setLeader r ((s.leader r).editEntry num fun x => { x with commit := x.commit &&& ~~~(1#32 <<< rbiOf g) })
/-- The bank's marker fires: what the bank has held back of its PRIVATE regions is their contents from now on, and no region that it owns is engaged
any longer, whichever task engaged it (R255, R266). -/
def State.firePrivate (s : State) (g : Nat) : State :=
  let t := (s.leader (ropeOf g)).taskOf
  let c := (s.bankTag g).1
  let s := s.publish t (fun p => p.task == t && p.agent == bankAgent g && p.cls == 0 && !p.strip) (fun _ => false)
  s.setCtx c { s.ctx c with engaged := (s.ctx c).engaged.filter fun e => e.2.2 != g }
/-- BELAY_MARKER_FIRE: the marker commits the strip first, releases the write-backs of its scope, and fires once every write-back
under way has ended. -/
def State.belayMarker (s : State) (g : Nat) : State :=
  match s.headEntry g with
  | none => s
  | some e => match e.op with
    | .belay level =>
      if e.commit.getLsbD (rbiOf g) then s.reachCommit g e.num
      else if !e.sync then s
      else
        let s := s.releasePub g 1 level
        if (s.bank g).writingBack then s else ((s.mergeFlags g).firePrivate g).taken g e.num true
    | _ => s
def execBelayMarkerFire (g : Nat) (s : State) : Outcome State Fault Refusal := onEvent (fun s => s.belayMarker g) s
/-- CAIRN_MARKER_FIRE: the arrival of a CAIRN or TRIGGER releases the held write-backs of STREAMED rows. -/
def State.cairnMarker (s : State) (g : Nat) : State :=
  match s.headEntry g with
  | none => s
  | some e => match e.op with
    | .cairn _ =>
      let s := s.releasePub g 2 5
      if (s.bank g).writingBack then s else s.taken g e.num true
    | _ => s
def execCairnMarkerFire (g : Nat) (s : State) : Outcome State Fault Refusal := onEvent (fun s => s.cairnMarker g) s

/-! ### The completion of a belay (R265, R269, R276, R290, R291) -/

/-- The tree of R79 over the contributions in agent order. -/
def contribRound {α : Type} (op : α → α → α) : List α → List α
  | a :: b :: r => op a b :: contribRound op r
  | l => l
def contribFold {α : Type} (op : α → α → α) : Nat → List α → Option α
  | 0, l => l.head?
  | n + 1, l => contribFold op n (contribRound op l)
/-- One step of a reduction on values with flags. -/
def redStep (op : Nat) (a b : Word × FFlags) : Word × FFlags :=
  let f := a.2 ||| b.2
  let x := a.1
  let y := b.1
  match op with
  | 0 => (x + y, f)
  | 1 => (x &&& y, f)
  | 2 => (x ||| y, f)
  | 3 => (x ^^^ y, f)
  | 4 => (if x.toInt ≤ y.toInt then x else y, f)
  | 5 => (if x.toInt ≤ y.toInt then y else x, f)
  | 6 => (if x.toNat ≤ y.toNat then x else y, f)
  | 7 => (if x.toNat ≤ y.toNat then y else x, f)
  | _ => let r := fpAdd fmtFP64 0 0 x.toNat y.toNat; (BitVec.ofNat 64 r.1, f ||| r.2)
/-- The reduced value of the contributions in increasing agent number. -/
def reduceAll (op : Nat) (vs : List Word) : Word × FFlags := (contribFold (redStep op) 8 (vs.map fun v => (v, 0))).getD (0, 0)

/-- The party has arrived at a belay of this level, which it waits for. -/
def Leader.arrivedAt (l : Leader) (level : Nat) : Bool := l.arrival.any fun a => !a.done && a.level == level
/-- The belay's markers have fired at the banks of rope `r` that lie in instance `inst`; at rope level or wider all of them do (R31). -/
def Leader.firedAt (l : Leader) (r level inst : Nat) : Bool :=
  !(l.rowq.any fun e => match e.op with
    | .belay _ => (List.range 32).any fun i => e.open_.getLsbD i && (decide (2 ≤ level) || instanceOf level (bankOf r i) == inst)
    | _ => false)
/-- The parties of rope `n`'s belay at a level: the task's ropes in the instance whose threads have not halted. -/
def State.partiesOf (s : State) (t n level : Nat) : List Nat :=
  (s.ropesOf t).filter fun r => sameInstance level r n && !(s.task t).halts.contains r
/-- The instances that a belay of rope `n` completes: each bank or bank group of the rope, or the one instance that holds it (R264, R290). -/
def State.belayInsts (s : State) (n level : Nat) : List Nat :=
  if level < 2 then (((List.range 32).filter fun i => s.granted i).map fun i => instanceOf level (bankOf n i)).eraseDups
  else [instanceOf level (bankOf n 0)]
/-- The agent lies in the instance, of which rope `n` is a part: at bank and bank-group level the rope's leader lies in every one (R264). -/
def agentIn (level inst n a : Nat) : Bool :=
  if level < 2 then agentRope a == n && (decide (6144 ≤ a % 8192) || instanceOf level (a % 8192) == inst) else sameInstance level (agentRope a) n
/-- The write is one that the belay publishes in instance `inst`: a store of an agent of the task there to a PHASED region that the belay covers,
or, with `whole`, of a leader to its PRIVATE region; a shadow of a command completed before its leader's arrival; of a halted thread its STREAMED
writes too; a write of the host or of another part under the task's tag (R264, R269, R276, R413). -/
def State.belaySel (s : State) (t n level inst : Nat) (whole : Bool) (p : PStore) : Bool :=
  let r := agentRope p.agent
  let cov := inInstance level inst p.scope p.home
  let halted := (s.task t).halts.contains r
  let cls := p.cls == 1 || (halted && p.cls == 2)
  if p.task = 0 then p.ctx == (s.task t).ctx && p.inn == (s.task t).inn && p.cls == 1 && cov
  else p.task == t && agentIn level inst n p.agent && !p.strip &&
  match p.kind with
  | .store => (cls && cov) || (p.cls == 0 && whole && (halted || decide (6144 ≤ p.agent % 8192)))
  | .shadow => cls && cov && p.done && match (s.thread t r).arrival with
      | some a => decide (p.due ≤ a.engines) || halted
      | none => halted
/-- The registers that banks of the task's halted ropes still hold for publication, of regions that the belay covers, are published with it
(R264). -/
def State.haltedRows (s : State) (t level inst : Nat) : State :=
  ((s.ropesOf t).filter fun r => (s.task t).halts.contains r).foldl (fun s r => (List.range 32).foldl (fun s i => (List.range 8).foldl (fun s k =>
    let g := bankOf r i
    let sl := s.slot g k
    if sl.st = .commitPending ∧ sl.cw = 2 ∧ sl.task = t ∧ (sl.ctx, sl.inn) = ((s.task t).ctx, (s.task t).inn) ∧ inInstance level inst sl.scope sl.home
    then s.latchDue g k else s) s) s) s
/-- The working copy is one that a belay of task `t` publishes in the instance: the task's own, or one that an agent of another part made under the
task's tag (R273). -/
def State.belayAmo (s : State) (t level inst : Nat) (x : AmoCopy) : Bool :=
  (x.task == t || (decide (2 ^ 40 ≤ x.task) && tagOf x.task == ((s.task t).ctx, (s.task t).inn))) && inInstance level inst x.scope x.home
/-- The contents of one instance's belay: what it publishes, and the phase that ends there (R265, R269). -/
def State.belayPublish (s : State) (t n level inst : Nat) (whole : Bool) : State :=
  ((s.haltedRows t level inst).publish t (s.belaySel t n level inst whole) (s.belayAmo t level inst)).endPhase t (inInstance level inst)
/-- The banks of rope `r` that lie in the instance read the weight version `ep` from now on, those of a saved thread in its frame (R275). -/
def State.bankEpochs (s : State) (t r level inst ep : Nat) : State :=
  let mine := fun (g : Nat) => ropeOf g == r && (decide (2 ≤ level) || instanceOf level g == inst)
  if (s.savedFrame t r).isSome then
    { s with frames := s.frames.map fun (e : Nat × Option Frame) => match e.2 with
      | some f => if f.v && f.task == t && f.rope == r then
          (e.1, some { f with banks := f.banks.map fun b => if mine b.1 then (b.1, { b.2 with wever := ep }) else b }) else e
      | none => e }
  else if (s.leader r).bind.isSome && (s.leader r).taskOf == t then
    (List.range 32).foldl (fun s i => if mine (bankOf r i) then s.setBank (bankOf r i) { s.bank (bankOf r i) with wever := ep } else s) s
  else s
/-- A party at the completion of an instance: its banks there read the current weight version, and its leader returns no cached clean line of a
region that the belay covers (R268, R275). -/
def State.belayParty (s : State) (t r level inst : Nat) : State :=
  (s.bankEpochs t r level inst s.weights.epoch).flushSel r fun c => c.cls == 4 || (c.cls == 1 && inInstance level inst c.scope c.home)
/-- What the completion does to a party's leader. -/
def Leader.belayed (l : Leader) (epoch : Nat) (lead : Option Nat) (v : Word) (fl : FFlags) : Leader :=
  match l.arrival with
  | none => l
  | some a =>
    let l := { l with wever := epoch }
    match a.red with
    | none => { l with arrival := some { a with done := true } }
    | some (op, d, _) =>
      if lead = some op then
        let l := l.xw d v
        { l with arrival := some { a with done := true }, csr := { l.csr with fflags := l.csr.fflags ||| fl } }
      else { l with arrival := some { a with done := true, bad := true } }
/-- The reduction that the parties' leaders receive: the operation of the lowest-numbered BELAY.RED, the value and its flags (R291). -/
def State.belayRed (s : State) (t : Nat) (ps : List Nat) : Option Nat × Word × FFlags :=
  let reds := ps.filterMap fun r => (s.thread t r).arrival.bind fun (x : Arrival) => x.red
  let lead := reds.head?.map fun x => x.1
  (lead, reduceAll (lead.getD 0) ((reds.filter fun x => some x.1 == lead).map fun x => x.2.2))
/-- The first instance of the belay that rope `n` waits at whose parties have all arrived and whose markers have all fired. -/
def State.belayReady (s : State) (n : Nat) (a : Arrival) : Option Nat :=
  let t := (s.leader n).taskOf
  let ps := s.partiesOf t n a.level
  if a.done || !s.boundLive n || !ps.all (fun r => (s.thread t r).arrivedAt a.level) then none
  else (s.belayInsts n a.level).find? fun i => !a.insts.contains i && ps.all fun r => (s.thread t r).firedAt r a.level i
/-- The end of the belay at the leader of rope `r`; what a reduction leaves in x registers and FFLAGS of a saved thread reaches its frame (R405). -/
def State.endBelay (s : State) (t r : Nat) (red : Option Nat × Word × FFlags) : State :=
  let l := (s.thread t r).belayed s.weights.epoch red.1 red.2.1 red.2.2
  let u := s.setThread t r l
  if (s.savedFrame t r).isSome then
    (u.frameDws t r 0x1000 (((List.range 31).map fun k => l.xr (k + 1)) ++ (List.range 31).map fun k => l.markDw (k + 1))).frameDws t r
      (0x1000 + 8 * 92) [l.csr.fflags.setWidth 64]
  else u
/-- BELAY_COMPLETION of the belay that rope `n` waits at: an instance whose last marker has fired completes, its publications taking effect at one
point; with the last instance the leaders of the parties go on, a reduction delivered (R265, R290, R291). A dead incarnation's belay never
completes (R281). -/
def State.belayDone (s : State) (n : Nat) : State :=
  match (s.leader n).arrival with
  | none => s
  | some a => match s.belayReady n a with
    | none => s
    | some inst =>
      let t := (s.leader n).taskOf
      let ps := s.partiesOf t n a.level
      let whole := (s.belayInsts n a.level).all fun i => i == inst || a.insts.contains i
      let red := s.belayRed t ps
      let s := ps.foldl (fun s r => s.belayParty t r a.level inst) (s.belayPublish t n a.level inst whole)
      if whole then ps.foldl (fun s r => s.endBelay t r red) s
      else s.setLeader n { s.leader n with arrival := some { a with insts := a.insts ++ [inst] } }
def execBelayCompletion (n : Nat) (s : State) : Outcome State Fault Refusal := onEvent (fun s => s.belayDone n) s

/-! ### CAIRN and TRIGGER (R353, R354) -/

/-- Place the markers of a CAIRN or TRIGGER and record what its point will do. -/
def State.placeCairn (s : State) (n : Nat) (trigger : Bool) (h cairn : Nat) (seals : Bool) : State :=
  let l := s.leader n
  let s := s.place n (.cairn (l.rowNum + 1)) s.grantedMask 0 0
  s.setLeader n { s.leader n with cairns := l.cairns ++
    [{ num := l.rowNum + 1, trigger := trigger, h := h, cairn := cairn, seals := seals, engines := l.engDone,
       strip := l.strip.map fun x => x.entry }] }
/-- The own checks of CAIRN (R353), in order; with `all` off only those of operands that carry no poison. -/
def State.cairnTrap (s : State) (n : Nat) (a b : BitVec 5) (all : Bool) : Option State :=
  let l := s.leader n
  let h := s.xr n a.toNat
  let w := s.xr n b.toNat
  if (all || l.clean a.toNat) && decide (2 ^ 48 ≤ h.toNat) then some (s.trap n .illegal h 0)
  else if (all || l.clean b.toNat) && decide (bits w 62 6 ≠ 0) then some (s.trap n .illegal w 0)
  else none
def execCairn (a b : BitVec 5) (s : State) : Outcome State Fault Refusal :=
  onLeaderC (.cairn a b) [a.toNat, b.toNat] (fun n s => s.cairnTrap n a b false) (fun n s =>
    let h := s.xr n a.toNat
    let w := s.xr n b.toNat
    match s.cairnTrap n a b true with
    | some t => t
    | none =>
    if s.rowqFull n then s.stall n 5
    else (s.placeCairn n false h.toNat (bits w 5 0) (bit w 63)).retire n 4) s
def execTrigger (s : State) : Outcome State Fault Refusal :=
  onLeader .trigger [] (fun n s => if s.rowqFull n then s.stall n 5 else (s.placeCairn n true 0 0 false).retire n 4) s

/-- The rope's oldest CAIRN or TRIGGER, when every condition of R353 holds for its point; a dead incarnation's has none (R281). -/
def State.cairnReady (s : State) (n : Nat) : Option CairnPend :=
  let l := s.leader n
  match l.cairns with
  | [] => none
  | c :: _ => if c.strip.isNone && s.boundLive n && !(l.rowq.any fun e => e.num == c.num) then some c else none
/-- The publication of a point: the rope's STREAMED stores that came before it in the rope's order and lie outside the strip store buffer, and its
engines' completed writes (R271, R276). -/
def State.cairnPublish (s : State) (n : Nat) (c : CairnPend) : State :=
  let t := (s.leader n).taskOf
  let s := (s.spill n fun x => x.cls == 2).publish t (fun p => p.task == t && agentRope p.agent == n && p.cls == 2 && !p.strip &&
    (if p.kind == .store then decide (p.ord < c.num) else p.done && decide (p.due ≤ c.engines))) (fun _ => false)
  s.setLeader n { s.leader n with cairns := (s.leader n).cairns.drop 1 }
/-- H ← max(H, H′) and the seal, unless the cairn is sealed. -/
def Cairn.advance (c : Cairn) (h : Nat) (seals : Bool) : Cairn := if c.sealed then c else { h := max c.h h, sealed := seals }
/-- CAIRN_POINT. An advance or a sealing wakes the leaders that wait for an event of the cairn (R234). -/
def State.cairnPoint (s : State) (n : Nat) : State :=
  match s.cairnReady n with
  | some c =>
    if c.trigger then s else
    let t := (s.leader n).taskOf
    let s := s.cairnPublish n c
    let old := (s.task t).cairn c.cairn
    let new := old.advance c.h c.seals
    (s.setTask t { s.task t with cairns := tput Cairn.reset (s.task t).cairns c.cairn new }).wakeDeps fun p k =>
      p == t && k == c.cairn && new != old
  | none => s
def execCairnPoint (n : Nat) (s : State) : Outcome State Fault Refusal := onEvent (fun s => s.cairnPoint n) s
/-- TRIGGER_POINT: the first one sets the thread's trigger flag. -/
def State.triggerPoint (s : State) (n : Nat) : State :=
  match s.cairnReady n with
  | some c =>
    if !c.trigger then s else
    let t := (s.leader n).taskOf
    let s := s.cairnPublish n c
    let k := s.task t
    s.setTask t { k with trigs := if k.trigs.contains n then k.trigs else k.trigs ++ [n] }
  | none => s
def execTriggerPoint (n : Nat) (s : State) : Outcome State Fault Refusal := onEvent (fun s => s.triggerPoint n) s
/-- Every thread of task `t` has reached a trigger point, halted, been killed or been stopped. -/
def State.triggered (s : State) (t : Nat) : Bool :=
  let k := s.task t
  k.ended || (decide (k.frames ≠ []) && k.frames.all fun e => k.trigs.contains e.1 || k.halts.contains e.1)
/-- The tasks that a task's valid dependency entries name. -/
def Task.deps (k : Task) : List Nat := ((List.range 8).map fun e => k.dw (24 + e)).filterMap fun w => if bit w 63 then some (bits w 47 16) else none
/-- TRIGGER_DEPENDANT_START: a trigger-mode dependant may start. -/
def State.dependantStart (s : State) (t : Nat) : State :=
  let k := s.task t
  if k.rcd ≠ [] ∧ bit (k.dw 0) 51 ∧ k.started = false ∧ k.deps.all (fun d => s.triggered d) then s.setTask t { k with started := true }
  else s
def execTriggerDependantStart (t : Nat) (s : State) : Outcome State Fault Refusal := onEvent (fun s => s.dependantStart t) s

/-! ### The strip rewind (R399) -/

/-- Register `k` as a rewind owes it: open on row `q` of its region as it stands now. -/
def State.rowTemplate (s : State) (g k q : Nat) : Slot :=
  match (s.bank g).rowRegion g k q with
  | some e => (s.slot g k).openedBy (s.leader (ropeOf g)) q e
  | none => { s.slot g k with row := q, sw := false, ds := false, cc := false, cw := 0, cr := 0 }
/-- One register at a rewind: `r` is its state, row and CC when the strip opened, at cycle `t`; `dest` marks a destination of the failing
instruction. Closing is by PRED, reopening by PRED and then ACT (R399). -/
def State.rewindSlot (s : State) (g k : Nat) (r : RowSt × Nat × Bool) (t : Nat) (dest : Bool) : State :=
  let sl := s.seenSlot g k
  let closedNow := decide (sl.st = .closed ∨ sl.st = .closing)
  if r.1 = .commitPending then s.setSlot g k { sl with cc := r.2.2 }
  else if r.1 = .closed ∨ r.1 = .closing then (if closedNow then s else s.owe g k Slot.reset false)
  else if sl.sw || closedNow || decide (t ≤ sl.actAt) || decide (sl.row ≠ r.2.1) || decide (sl.poison ≠ 0) || dest then
    s.owe g k (s.rowTemplate g k r.2.1) false
  else s
/-- A bank at a rewind: its pending trap is cleared, and where the strip has taken effect it goes back to its checkpoint. -/
def State.rewindBank (s : State) (g num : Nat) (dest : List (Nat × Nat)) : State :=
  let b := s.bank g
  match b.strip with
  | none => s.setBank g { b with trap := none, lastTrap := none, disp := 0 }
  | some st =>
    let s := s.setBank g { b with trap := none, lastTrap := none, disp := 0, y := st.y, p := st.p, vt := st.vt, vl := st.vl, lq := st.lq, loops := [], tfetch := false,
                                  run := none, resume := (false, 0), waits := false, multi := none, wave := 0, entryNum := num }
    (List.range 8).foldl (fun s k => s.rewindSlot g k (st.regs.getD k (.closed, 0, false)) st.at_ (dest.contains (g, k))) s
/-- The requests that discarded VRD entries would have answered. -/
def discardedReqs (q : List RowEntry) : List Nat :=
  q.filterMap fun e => match e.op with | .vrd _ _ r => some r | _ => none
/-- The leader at a rewind. -/
def Leader.rewound (l : Leader) (st : LStrip) : Leader :=
  let gone := discardedReqs (l.rowq.filter fun e => decide (st.entry < e.num))
  let l := { l with xPend := l.xPend.filter fun e => !gone.contains e.2 }
  let l := st.xs.foldl (fun (l : Leader) e => let m := l.xw e.1 e.2.1; { m with xPoison := tput none m.xPoison e.1 e.2.2 }) l
  { l with
    loops := st.loops, gates := st.gates, level := st.level, mm := st.mm, bmr := st.bmr, pc := st.addr
    rowq := l.rowq.filter fun e => decide (e.num ≤ st.entry)
    cairns := l.cairns.filter fun c => c.strip != some st.entry
    nextStrip := none, commitWait := none, arrival := none, wfeAt := none, stalled := false, hop := false, rewind := none
    strip := some { st with rewound := true, spoiled := false, bytes := 0, scr := [], dest := [] } }
/-- STRIP_REWIND. -/
def State.stripRewind (s : State) (n : Nat) : State :=
  let l := s.leader n
  match l.rewind, l.strip with
  | some _, some st =>
    if l.act || !l.run || l.killed then s else
    let s := s.setLeader n (l.rewound st)
    let s := { s with pend := s.pend.filter fun p => !(p.strip && p.task == l.taskOf && agentRope p.agent == n) }
    (List.range 32).foldl (fun s i => s.rewindBank (bankOf n i) st.entry st.dest) s
  | _, _ => s
def execStripRewind (n : Nat) (s : State) : Outcome State Fault Refusal := onEvent (fun s => s.stripRewind n) s

end Sys2Proof.Machine
end

