-- ==== Sys2Proof/Machine/Engine.lean ====
section
/-! DEFINITION. What the arrays, drains and copy engines share: operand descriptors, row runs, reads and writes of their four spaces, and
the end of an engine command (R187 to R189, R193, R276, R333 to R335, R342). -/
namespace Sys2Proof.Machine

open Host (Outcome)

/-! ### Operand descriptors (Table 7.8) -/

def dSpace (D : Word) : Nat := bits D 63 62
def dFmt (D : Word) : Nat := bits D 61 57
def dBank (D : Word) : Nat := bits D 56 52
def dVk (D : Word) : Nat := bits D 51 49
def dVs (D : Word) : Nat := bits D 48 46
def dLane (D : Word) : Nat := bits D 45 42
def dOff (D : Word) : Nat := bits D 41 28
def dAddr (D : Word) : Nat := bits D 51 0
/-- Bytes of a row register in a run (R189). -/
def runRow (prot : Bool) : Nat := if prot then 6144 else 12288
/-- Granted banks of every rope: the rope bank indices below this number (R318). -/
def State.grantedBanks (s : State) : Nat := 2 * (16 - reservedTiers s.hub.staging)
/-- The descriptor's own rules (R187, R189, R318) when the operand covers `len` bytes of a run and `gb` banks are granted. -/
def descWordOk (D : Word) (gb : Nat) (prot : Bool) (len : Nat) : Bool :=
  match dSpace D with
  | 2 => decide (bits D 27 0 = 0 ∧ dOff D % 96 = 0 ∧ dOff D < runRow prot ∧ dBank D < gb
                 ∧ dBank D * runRow prot + dOff D + len ≤ gb * runRow prot)
  | sp => decide (dBank D = 0 ∧ dAddr D % 4 = 0) && (sp != 1 || decide (dAddr D < 0x80000)) && (sp != 3 || decide (dAddr D < 2 ^ 42))

/-! ### Outcomes of an engine's access -/

/-- A register is still opening or a staging page is absent, or the access faults. -/
inductive EngErr where
  | wait (pages : List (Nat × Nat))
  | fault (c : Cause)
  deriving DecidableEq, Repr

/-- A run of bytes with the poison of each. -/
abbrev EngBytes := List (BitVec 8 × Bool)

/-- Cut `len` bytes from `va` at 128-byte boundaries, within which a translation is linear. -/
def cutLines : Nat → Nat → Nat → List (Nat × Nat)
  | 0, _, _ => []
  | fuel + 1, va, len => if len = 0 then [] else
      let k := min len (128 - va % 128)
      (va, k) :: cutLines fuel (va + k) (len - k)
def lineParts (va len : Nat) : List (Nat × Nat) := cutLines (len / 128 + 2) va len

/-- A byte at a target as the engines of leader `n` read it, from weight epoch `ep`. -/
def State.engByte (s : State) (n ep : Nat) (t : Target) : BitVec 8 × Bool :=
  match t with
  | .weight w => (s.weightByte ep w, s.weightPoison ep w)
  | .remote _ va _ => (s.openAt 8 (2 ^ 53 + va), s.openAt 1 (2 ^ 54 + va) == 1)
  | .scratch o => (s.scratchByte n o, false)
  | _ => (s.readByte n (.leader n) t, s.readPoison n (.leader n) t)
/-- The fault of an engine's access to virtual memory, probed as the issuing leader (R252, R342). -/
def State.vaProbe (s : State) (n va len align : Nat) (write : Bool) : Option Cause :=
  match s.translate n (.leader n) va len { rd := !write, wr := write, align := align } with
  | .error c => some c
  | .ok (.remote _ rva _) => s.remoteFault rva
  | .ok (.scratch o) => if write && scratchProtected o len then some .permission else none
  | .ok (.weight _) => if write then some .permission else none
  | .ok _ => none
/-- An engine's access to virtual memory goes through the rope's TLB and its L1 (Table 7.8, R250, R257). -/
def State.vaTouch (s : State) (n ep va len : Nat) (write : Bool) : State :=
  (lineParts va len).foldl (fun s p =>
    let s := s.tlbUse n p.1
    match s.translate n (.leader n) p.1 p.2 { rd := !write, wr := write, align := 1 } with
    | .ok (.row pa cls scope home) => s.useLines n p.1 pa p.2 cls scope home 0 write
    | .ok (.weight w) => s.weightLine n ep w 0
    | .ok (.remote part ..) => (s.toPart (s.leader n).ctxOf part).charge 0x0B (s.leader n).taskOf p.2
    | _ => s) s
/-- The lookups of an engine's probes (R250, R251). -/
def State.vaWalk (s : State) (n va len : Nat) : State :=
  (lineParts va len).foldl (fun s p => if p.1 < 2 ^ 52 then s.tlbUse n p.1 else s) s
/-- Bytes of virtual memory, already probed. -/
def State.vaBytes (s : State) (n ep va len : Nat) : EngBytes :=
  (lineParts va len).flatMap fun p =>
    match s.translate n (.leader n) p.1 p.2 { rd := true, wr := false, align := 1 } with
    | .ok t => (List.range p.2).map fun k => s.engByte n ep (t.plus k)
    | .error _ => (List.range p.2).map fun k => (s.openByte n (2 ^ 58 + p.1 + k), false)
/-- The range lies in the W-space image of a WEIGHT region of the leader's context (R188). -/
def Region.coversW (e : Region) (w len : Nat) : Bool := e.ok && e.cls == 4 && decide (e.wbase ≤ w) && decide (w + len ≤ e.wbase + e.len)
def State.weightRegion (s : State) (n w len : Nat) : Bool :=
  ((s.leader n).tlb.any fun e => e.coversW w len) ||
  (List.range 4096).any fun i => (s.regionEntry (s.ctx (s.leader n).ctxOf).rtb i).coversW w len

/-- The piece of a run `o` bytes past its start: rope bank index and byte. -/
def runAt (D : Word) (prot : Bool) (o : Nat) : Nat × Nat :=
  (dBank D + (dOff D + o) / runRow prot, (dOff D + o) % runRow prot)
/-- The banks that bytes `[o, o + len)` of a run touch. -/
def runBanks (D : Word) (prot : Bool) (o len : Nat) : List Nat :=
  if len = 0 then [] else
  let a := (runAt D prot o).1
  (List.range ((runAt D prot (o + len - 1)).1 + 1 - a)).map fun k => a + k
/-- The check of a row register that an engine reads or writes (Table 5.1, R193). -/
def State.engReg (s : State) (n i k : Nat) (write : Bool) : Option EngErr :=
  match s.rowChk (bankOf n i) k write with
  | .ok => none
  | .wait => some (.wait [])
  | .bad c _ _ => some (.fault c)
def State.runProbe (s : State) (n : Nat) (D : Word) (prot : Bool) (k o len : Nat) (write : Bool) : Option EngErr :=
  (runBanks D prot o len).findSome? fun i => s.engReg n i k write
def State.runBytes (s : State) (n : Nat) (D : Word) (prot : Bool) (o len : Nat) : EngBytes :=
  (List.range len).map fun j =>
    let p := runAt D prot (o + j)
    let sl := s.slot (bankOf n p.1) (dVk D)
    (rowGetByte sl.latch p.2, sl.poison.getLsbD (p.2 / 8))

/-- The probe of `len` source bytes at offset `o` from a descriptor. -/
def State.srcProbe (s : State) (n : Nat) (prot : Bool) (D : Word) (o len align : Nat) : Option EngErr :=
  match dSpace D with
  | 0 => (s.vaProbe n ((dAddr D + o) % 2 ^ 64) len align false).map .fault
  | 1 => if (dAddr D + o) % 2 ^ 64 + len ≤ 0x80000 then (if (dAddr D + o) % align ≠ 0 then some (.fault .misaligned) else none)
         else some (.fault .regionMiss)
  | 2 => s.runProbe n D prot (dVk D) o len false
  | _ => let w := (dAddr D + o) % 2 ^ 64
         if w % align ≠ 0 then some (.fault .misaligned)
         else if s.weightRegion n w len then none else some (.fault .regionMiss)
/-- Source bytes, already probed. -/
def State.srcBytes (s : State) (n ep : Nat) (prot : Bool) (D : Word) (o len : Nat) : EngBytes :=
  match dSpace D with
  | 0 => s.vaBytes n ep ((dAddr D + o) % 2 ^ 64) len
  | 1 => (List.range len).map fun k => (s.scratchByte n ((dAddr D + o) % 2 ^ 64 + k), false)
  | 2 => s.runBytes n D prot o len
  | _ => (List.range len).map fun k => s.engByte n ep (.weight ((dAddr D + o) % 2 ^ 64 + k))
/-- The staging pages of a source. -/
def State.srcPages (s : State) (n ep : Nat) (D : Word) (o len : Nat) : List (Nat × Nat) :=
  match dSpace D with
  | 0 => (lineParts ((dAddr D + o) % 2 ^ 64) len).flatMap fun p =>
      match s.translate n (.leader n) p.1 p.2 { rd := true, wr := false, align := 1 } with
      | .ok (.weight w) => s.pagesOf ep w p.2
      | _ => []
  | 3 => s.pagesOf ep ((dAddr D + o) % 2 ^ 64) len
  | _ => []
/-- The probe of a source piece, then the staging pages that it lacks. -/
def State.srcCheck (s : State) (n ep : Nat) (prot : Bool) (D : Word) (o len align : Nat) : Option EngErr :=
  (s.srcProbe n prot D o len align).orElse fun _ =>
    let gone := (s.srcPages n ep D o len).filter fun p => !s.staged p.1 p.2
    if gone = [] then none else some (.wait gone)
/-- The bytes of a source piece, already checked; an uncorrectable word is consumed. -/
def State.srcRead (s : State) (n ep : Nat) (prot : Bool) (D : Word) (o len : Nat) : Except Cause (List (BitVec 8)) :=
  let bs := s.srcBytes n ep prot D o len
  if bs.any fun b => b.2 then .error .ueConsumed else .ok (bs.map fun b => b.1)
/-- What the probes of a command's addresses find together: the first fault, else the pages and registers that it waits for (R193). -/
def firstFault (rs : List (Option EngErr)) : Option EngErr :=
  match rs.findSome? fun r => match r with | some (.fault c) => some c | _ => none with
  | some c => some (.fault c)
  | none =>
    let ws := rs.filterMap fun r => match r with | some (.wait ps) => some ps | _ => none
    if ws.isEmpty then none else some (.wait ws.flatten)

/-- These pieces of a source were read: their staging pages, and their lines in the caches (R257, R321). -/
def State.useSrc (s : State) (n ep : Nat) (D : Word) (os : List (Nat × Nat)) : State :=
  let s := s.usePages (os.flatMap fun o => s.srcPages n ep D o.1 o.2)
  if dSpace D = 0 then os.foldl (fun s o => s.vaTouch n ep ((dAddr D + o.1) % 2 ^ 64) o.2 false) s else s
/-- These pieces of an operand were probed: a piece of W-space that no TLB entry covers was looked for in the whole table (R188, R246). -/
def State.walkDesc (s : State) (n : Nat) (D : Word) (os : List (Nat × Nat)) : State :=
  let c := (s.leader n).ctxOf
  if dSpace D = 0 then os.foldl (fun s o => s.vaWalk n ((dAddr D + o.1) % 2 ^ 64) o.2) s
  else if dSpace D = 3 ∧ (os.any fun o => !((s.leader n).tlb.any fun e => e.coversW ((dAddr D + o.1) % 2 ^ 64) o.2)) then s.noteBad c (s.badList c)
  else s

/-! ### Writes -/

/-- The probe of `len` destination bytes at offset `o`. Register `k` of a run may differ from VK (a scale register). -/
def State.dstProbe (s : State) (n : Nat) (prot : Bool) (D : Word) (o len align : Nat) : Option EngErr :=
  match dSpace D with
  | 0 => (s.vaProbe n ((dAddr D + o) % 2 ^ 64) len align true).map .fault
  | 1 => let a := (dAddr D + o) % 2 ^ 64
         if 0x80000 < a + len then some (.fault .regionMiss)
         else if a % align ≠ 0 then some (.fault .misaligned)
         else if scratchProtected a len then some (.fault .permission) else none
  | 2 => s.runProbe n D prot (dVk D) o len true
  | _ => some (.fault .permission)
/-- One linear piece of an engine write by command `num` of leader `n` (R276): PHASED and STREAMED bytes stay with the command until
published; SYNC bytes are written; bytes of a PRIVATE region of the leader are its own latest store, which others find after its belay
(R266); a remote part's bytes leave the part. -/
def State.engPut (s : State) (n num : Nat) (t : Target) (bs : List (BitVec 8)) : State :=
  let l := s.leader n
  match t with
  | .row pa cls scope home =>
    let p : PStore :=
      { agent := leaderAgent n, ctx := l.ctxOf, inn := l.innOf, task := l.taskOf, kind := .store, cmd := 0, done := true, seen := true
        cls := cls, scope := scope, home := home, ord := l.rowNum, pa := pa, data := bs, strip := false }
    if cls = 1 ∨ cls = 2 then
      { s with pend := s.pend ++ [{ p with kind := .shadow, cmd := num, done := false, seen := false, ord := 0
                                           isCopy := l.copyRun.any fun r => r.cmd.num == num }] }
    else if cls = 0 then { s with pend := s.pend ++ [p] }
    else s.writeRows pa bs
  | .scratch o => s.storeScratch n o bs
  | .remote part .. =>
    s.toPart l.ctxOf part
  | .weight _ => s
/-- Write bytes of virtual memory, already probed. -/
def State.vaPut (s : State) (n num va : Nat) (bs : List (BitVec 8)) : State :=
  (lineParts va bs.length).foldl (fun s p =>
    match s.translate n (.leader n) p.1 p.2 { rd := false, wr := true, align := 1 } with
    | .ok t => (s.engPut n num t ((bs.drop (p.1 - va)).take p.2)).vaTouch n 0 p.1 p.2 true
    | .error _ => s) s
/-- Bytes into register `k` of bank index `i`: a lane write for Table 5.1 (R151, R199, R276). -/
def State.regPut (s : State) (n i k at_ : Nat) (bs : List (BitVec 8)) : State :=
  let g := bankOf n i
  let b := s.bank g
  s.setBank g (b.setSlot k ((b.slot k).outWrite s.cycle (bs.zipIdx.map fun e => (at_ + e.2, e.1.toNat)) false))
/-- Bytes into a run from offset `o`. -/
def State.runPut (s : State) (n : Nat) (D : Word) (prot : Bool) (o : Nat) (bs : List (BitVec 8)) : State :=
  (runBanks D prot o bs.length).foldl (fun s i =>
    let lo := max o (i * runRow prot - (dBank D * runRow prot + dOff D))
    let hi := min (o + bs.length) ((i + 1) * runRow prot - (dBank D * runRow prot + dOff D))
    s.regPut n i (dVk D) ((runAt D prot lo).2) ((bs.drop (lo - o)).take (hi - lo))) s
/-- Destination bytes, already probed. -/
def State.dstPut (s : State) (n num : Nat) (prot : Bool) (D : Word) (o : Nat) (bs : List (BitVec 8)) : State :=
  match dSpace D with
  | 0 => s.vaPut n num ((dAddr D + o) % 2 ^ 64) bs
  | 1 => s.storeScratch n ((dAddr D + o) % 2 ^ 64) bs
  | 2 => s.runPut n D prot o bs
  | _ => s

/-! ### The end of an engine command -/

/-- The command `num` of leader `n` has ended: its writes are complete. When it failed its shadows, the writes to PHASED regions, are dropped; what it
wrote elsewhere stands (R276, R343). -/
def State.engineEnd (s : State) (n num : Nat) (ok : Bool) : State :=
  let l := s.leader n
  let mine := fun (p : PStore) => p.agent == leaderAgent n && p.task == l.taskOf && p.kind == .shadow && p.cmd == num
  let pend := if ok then s.pend.map fun p => if mine p then { p with done := true, due := l.engDone + 1 } else p
              else (s.pend.filter fun p => !(mine p && p.cls == 1)).map fun p => if mine p then { p with done := true, due := l.engDone + 1 } else p
  ({ s with pend := pend }).setLeader n { l with engDone := l.engDone + 1 }
/-- The flags that a command of thread (`task`, rope `n`) of incarnation (`c`, `i`) raised reach its issuer: FFLAGS, or the flag word of its
frame while it is switched out; those of a dead incarnation are dropped (R221, R405). -/
def State.chargeFlags (s : State) (c i task n : Nat) (fl : FFlags) : State :=
  if !s.live c i then s else
  let l := s.leader n
  if l.bind.isSome && l.taskOf == task then s.setLeader n { l with csr := { l.csr with fflags := l.csr.fflags ||| fl } }
  else
    let hit := fun (f : Frame) => f.v && f.rope == n && f.task == task
    let all := (s.frames.findSome? fun e => e.2.bind fun f => if hit f then some (f.flags ||| fl) else none).getD 0
    ({ s with frames := s.frames.map fun (e : Nat × Option Frame) => match e.2 with
        | some f => if hit f then (e.1, some { f with flags := f.flags ||| fl }) else e
        | none => e } : State).frameDws task n 24 [all.setWidth 64]
/-- The same for VXSAT. -/
def State.chargeSat (s : State) (c i task n : Nat) (sat : Bool) : State :=
  let l := s.leader n
  if sat && s.live c i && l.bind.isSome && l.taskOf == task then s.setLeader n { l with csr := { l.csr with vxsat := true } } else s
/-- The rest of a scale lane of register `k` of bank index `i` past byte `at_` reads zero once a planar conversion has filled it (R75). -/
def State.laneRest (s : State) (n i k at_ : Nat) : State :=
  if at_ % 768 = 0 then s else s.regPut n i k at_ (List.replicate (768 - at_ % 768) 0)
/-- A token of leader `n` ends, DONE or in FAULT (Table 15.2); the engine writes the record in one step. -/
def State.tokenEnd (s : State) (n t : Nat) (st : TokSt) (code cause : Nat) (idx aux : Word) : State :=
  let l := s.leader n
  s.setLeader n { l.setTok t { l.tok t with st := st, code := code, cause := cause, idx := idx, aux := aux } with wfeEv := true }
/-- A token is free for an issue that names it (Table 15.2). -/
def Token.free (t : Token) : Bool := t.st == .idle || t.st == .done || t.st == .fault
/-- Token `t` is named by an issue, with the number of the engine command that it stands for; a LAUNCH is none (R334, R345). The leader has placed an
engine entry or a launch: an open strip cannot be rewound (R400). -/
def State.tokenIssue (s : State) (n t kind : Nat) : State :=
  let s := s.spoilStrip n
  let l := s.leader n
  s.setLeader n { l.setTok t { Token.reset with st := .queued, kind := kind, seq := l.seq + 1, num := if kind = 4 then 0 else l.cmdNum + 1 } with seq := l.seq + 1 }

end Sys2Proof.Machine
end

