-- ==== Sys2Proof/Machine/Tile.lean ====
section
/-! DEFINITION. The arithmetic of an array: pairings, operand units and images, the block update with its monitors, the split FP64
update, and the drain of one accumulator word (R78, R80, R81, R178, R181, R183, R190, R199, R210 to R213). -/
namespace Sys2Proof.Machine

/-! ### Pairings and sizes (Tables 7.1, 7.2, 7.9) -/

/-- A pairing: its number, N, and its accumulator mode. -/
def pairing (fa fb : Nat) : Option (Nat × Nat × Nat) :=
  let mx8 := fun f => f == 0x0C || f == 0x0D || f == 0x11
  let mx6 := fun f => f == 0x0E || f == 0x0F
  let bpiLow := fun f => decide (0x13 ≤ f) && decide (f ≤ 0x1F) && decide (bpiPlanes f ≤ 4)
  let bpiHigh := fun f => decide (0x13 ≤ f) && decide (f ≤ 0x1F) && decide (5 ≤ bpiPlanes f)
  if fa = 0x00 ∧ fb = 0x00 then some (1, 192, 2)
  else if fa = 0x08 ∧ fb = 0x08 then some (2, 192, 0)
  else if mx8 fa && (mx8 fb || bpiHigh fb) then some (3, 192, 0)
  else if mx6 fa && mx6 fb then some (4, 192, 0)
  else if fa = 0x10 ∧ (fb = 0x10 ∨ bpiLow fb) then some (5, 384, 1)
  else if fa = 0x0B ∧ fb = 0x0B then some (6, 192, 3)
  else none
def isAFmt (f : Nat) : Bool := f == 0x00 || f == 0x08 || f == 0x0B || (decide (0x0C ≤ f) && decide (f ≤ 0x11))
def isBpi (f : Nat) : Bool := decide (0x13 ≤ f) && decide (f ≤ 0x1F)
def isBFmt (f : Nat) : Bool := isAFmt f || isBpi f
/-- The K step of an A format: K elements in one activation row. -/
def kStep (fa : Nat) : Nat := match fa with | 0x08 => 48 | 0x0E => 128 | 0x0F => 128 | 0x10 => 192 | _ => 96
/-- The K block of a B format. -/
def kBlock (fb : Nat) : Nat := match fb with | 0x08 => 48 | 0x0E => 128 | 0x0F => 128 | 0x10 => 192 | _ => 96
/-- Scales per column of an image. -/
def imgScales (fb : Nat) : Nat :=
  if fb = 0x0E ∨ fb = 0x0F then 4 else if fb = 0x10 then 6 else if fb = 0x00 ∨ fb = 0x08 ∨ fb = 0x0B then 0 else 3
/-- Image bytes (IB). -/
def imgBytes (fb : Nat) : Nat := if fb = 0x0B then 147456 else 18432 + 192 * imgScales fb
/-- Bytes of one A unit: in memory, and in a run. An FP64 unit is 768 bytes in a run too, as Table 7.9's K block, where R190 says 96 of every
unit (log entry 68). -/
def unitMem (fa : Nat) : Nat :=
  match fa with | 0x00 => 96 | 0x08 => 96 | 0x0E => 112 | 0x0F => 112 | 0x10 => 120 | 0x0B => 768 | _ => 108
def unitRun (fa : Nat) : Nat := if fa = 0x0B then 768 else 96
/-- Column groups of a B format that the plane takes; the mirrored half of a protected context is not loaded (R180). -/
def imgGroups (fb : Nat) (prot : Bool) : Nat := if (fb = 0x10 ∨ (isBpi fb ∧ bpiPlanes fb ≤ 4)) ∧ prot = false then 2 else 1
/-- K blocks of each group that one plane holds. -/
def imgBlocks (fb : Nat) : Nat := if isBpi fb ∧ bpiPlanes fb ≤ 4 then 2 else 1
/-- Row limit of a mode, and the first line and number of lines of `n` rows from `r` (Table 7.5). -/
def rowLimitOf (mode : Nat) : Nat := match mode with | 1 => 256 | 3 => 128 | _ => 512
def linesOf (mode r n : Nat) : Nat × Nat := match mode with | 1 => (2 * r, 2 * n) | 3 => (4 * r, 4 * n) | _ => (r, n)

/-! ### Operands -/

/-- The elements of one unit or column: raw codes, and one scale for each 32 of them (none for an unscaled format). -/
structure Opnd where
  q  : List Nat
  sc : List Nat
  nv : Bool := false
  deriving DecidableEq, Repr

/-- Bits of an element in a unit or an image. -/
def elBits (f : Nat) : Nat := match f with | 0x00 => 8 | 0x08 => 16 | 0x0B => 64 | _ => mxWidth f
/-- The elements packed in bytes (R74). -/
def unpackEls (w : Nat) (bs : List (BitVec 8)) : List Nat :=
  let v := leNat bs
  (List.range (8 * bs.length / w)).map fun i => v / 2 ^ (w * i) % 2 ^ w
/-- The value of an element before its scale. -/
def elVal (f q : Nat) : FVal :=
  match f with
  | 0x00 => fOfInt (sextN q 8)
  | 0x08 => fpVal fmtBF16 q
  | 0x0B => fpVal fmtFP64 q
  | _ => packedElem f q
/-- The values of an operand. -/
def Opnd.vals (o : Opnd) (f : Nat) : List FVal :=
  o.q.zipIdx.map fun e => match o.sc[e.2 / 32]? with
    | some sc => scaled sc (elVal f e.1)
    | none => elVal f e.1
/-- A unit as it lies in memory: segments of a scaled format, each with its scale word (R74, R190). -/
def unitOfMem (f : Nat) (bs : List (BitVec 8)) : Opnd :=
  if f = 0x00 ∨ f = 0x08 ∨ f = 0x0B then { q := unpackEls (elBits f) bs, sc := [] }
  else
    let w := mxWidth f
    let segs := (List.range (bs.length / (4 * w + 4))).map fun j => (bs.drop (j * (4 * w + 4))).take (4 * w + 4)
    let word := fun (sg : List (BitVec 8)) => leNat (sg.drop (4 * w))
    { q := segs.flatMap fun sg => unpackEls w (sg.take (4 * w))
      sc := segs.map fun sg => if word sg < 256 then word sg else 0xFF
      nv := segs.any fun sg => decide (256 ≤ word sg) }
/-- A unit of planar bytes with its scales. -/
def unitOfRun (f : Nat) (bs scs : List (BitVec 8)) : Opnd := { q := unpackEls (elBits f) bs, sc := scs.map fun b => b.toNat }

/-- Bytes `[a, a + n)` of a memory. -/
def memSlice (m : Mem) (a n : Nat) : List (BitVec 8) := memBytes (window m a n) a n
/-- Where image `m` of a plane keeps its data and its scales. -/
def imgData (fb m : Nat) : Nat := if imgBlocks fb = 2 then 9216 * m else 18432 * m
def imgScale (fb m : Nat) : Nat := 36864 + m * (192 * imgScales fb)
/-- The eight-bit element `k` of a bit-plane column from the bytes of its sections. -/
def planeBits (secs : List (List (BitVec 8))) (k : Nat) : Nat :=
  secs.zipIdx.foldl (fun acc e => acc + if (e.1.getD (k / 8) 0).getLsbD (k % 8) then 2 ^ (7 - e.2) else 0) 0
/-- Column `c` of image `m` of a plane (R181). -/
def Plane.column (p : Plane) (fb m c : Nat) : Opnd :=
  let sc := if imgScales fb = 0 then [] else (memSlice p.data (imgScale fb m + imgScales fb * c) (imgScales fb)).map fun b => b.toNat
  if isBpi fb then
    let secs := (List.range (bpiPlanes fb)).map fun j => memSlice p.data (imgData fb m + 2304 * j + 12 * c) 12
    { q := (List.range 96).map fun k => planeBits secs k, sc := sc }
  else { q := unpackEls (elBits fb) (memSlice p.data (imgData fb m + 96 * c) 96), sc := sc }
/-- Column `c` of an image as its bytes lie in memory, all eight sections of a bit-plane image. -/
def imageColumn (fb c : Nat) (img : Mem) : Opnd :=
  let sc := if imgScales fb = 0 then [] else (memSlice img (18432 + imgScales fb * c) (imgScales fb)).map fun b => b.toNat
  if isBpi fb then
    let secs := (List.range 8).map fun j => memSlice img (2304 * j + 12 * c) 12
    { q := (List.range 96).map fun k => planeBits secs k, sc := sc }
  else if fb = 0x0B then { q := unpackEls 64 (memSlice img (768 * c) 768), sc := [] }
  else { q := unpackEls (elBits fb) (memSlice img (96 * c) 96), sc := sc }

/-! ### The block update (R80) -/

/-- The exact sum of finite values. A sum of 0 is +0, also when every product is −0: the spec states no sign for it (log entry 61). -/
def exactSum (vs : List (Int × Int)) : FVal :=
  let e : Int := vs.foldl (fun m v => min m v.2) (0 : Int)
  let z : Int := vs.foldl (fun acc v => acc + v.1 * (2 ^ (v.2 - e).toNat : Nat)) (0 : Int)
  .fin (decide (z < 0)) z.natAbs (if z = 0 then 0 else e)
/-- S_b of one K block: NaN with a NaN operand, an undefined product, or infinite products of both signs. -/
def blockSum (as bs : List FVal) : FVal :=
  let ps := List.zipWith (fun a b => (fMul a b).1) as bs
  if ps.any fun p => p.isNan then .nan
  else
    let pos := ps.any fun p => p == .inf false
    let neg := ps.any fun p => p == .inf true
    if pos && neg then .nan else if pos then .inf false else if neg then .inf true
    else exactSum (ps.map fun p => match p with
      | .fin n m e => ((if n then -1 else 1) * (m : Int), e)
      | _ => (0, 0))
/-- The monitor counts of an assayed tile's narrow pass (R210). -/
structure Mon where
  sat : Nat := 0
  ufl : Nat := 0
  can : Nat := 0
  deriving DecidableEq, Repr
def Mon.add (a b : Mon) : Mon := { sat := min 0xFFFF (a.sat + b.sat), ufl := min 0xFFFF (a.ufl + b.ufl), can := min 0xFFFF (a.can + b.can) }
/-- An FP32 pattern is finite; its ⌊log2⌋, none for a zero. -/
def finite32 (x : Nat) : Bool := x % 2 ^ 31 < 0x7F800000
def exp32 (x : Nat) : Option Int :=
  match fpVal fmtFP32 x with
  | .fin _ m e => if m = 0 then none else some (floorLog2 m e)
  | _ => none
/-- The largest exponent of the nonzero products of a block. -/
def maxProdExp (as bs : List FVal) : Option Int :=
  (List.zipWith (fun a b => (fMul a b).1) as bs).foldl (fun acc p => match p with
    | .fin _ m e => if m = 0 then acc else some (match acc with | none => floorLog2 m e | some x => max x (floorLog2 m e))
    | _ => acc) none
def maxOpt (a b : Option Int) : Option Int :=
  match a, b with
  | none, x => x
  | x, none => x
  | some x, some y => some (max x y)
/-- One FP32 accumulator word by one K block: the new word, its flags and its monitor events (R80, R211 to R213). -/
def blockUpdate (shift acc : Nat) (as bs : List FVal) : Nat × FFlags × Mon :=
  let S := blockSum as bs
  let t := roundFp fmtFP32 0 0 S
  let n := fpAdd fmtFP32 0 0 acc t.1
  let sat := decide (finite32 acc ∧ finite32 n.1 = false)
  let nz := match S with | .fin _ m _ => decide (m ≠ 0) | _ => false
  let ufl := nz && decide (t.1 % 2 ^ 31 < 2 ^ 23)
  let ref := maxOpt (exp32 acc) (maxProdExp as bs)
  let can := decide (shift ≠ 0) && finite32 acc && finite32 t.1 && finite32 n.1 &&
    match ref with
    | none => false
    | some r => match exp32 n.1 with
      | none => true
      | some e => decide (e ≤ r - shift)
  (n.1, (if S.isNan then flNV else 0) ||| t.2 ||| n.2, { sat := if sat then 1 else 0, ufl := if ufl then 1 else 0, can := if can then 1 else 0 })
/-- An INT32 accumulator word by one K block. -/
def blockUpdateInt (acc : Nat) (as bs : List Nat) : Nat :=
  wrapZ (sextN acc 32 + (List.zipWith (fun a b => sextN a 8 * sextN b 8) as bs).foldl (· + ·) 0) 32

/-! ### Operand events (R211, R212) -/

/-- An element at the largest finite magnitude of its format, and one in its smallest step. -/
def satCode (f q : Nat) : Bool :=
  if isBpi f ∨ f = 0x11 then q == 127 || q == 129
  else match fmtOf f with
    | some F => q % 2 ^ (F.w - 1) == maxPat F
    | none => false
def uflCode (f q : Nat) : Bool :=
  if isBpi f then q != 0 && q / 2 ^ (8 - bpiPlanes f) == 0
  else if f = 0x11 then q == 1 || q == 255
  else match fmtOf f with
    | some F => let m := q % 2 ^ (F.w - 1)
                m != 0 && decide (m < 2 ^ (F.p - 1))
    | none => false
/-- The operand entries of one unit or column. -/
def Opnd.events (o : Opnd) (f : Nat) : Mon :=
  let live := o.q.zipIdx.filter fun e => o.sc.getD (e.2 / 32) 0 != 0xFF
  { sat := (live.filter fun e => satCode f e.1).length, ufl := (live.filter fun e => uflCode f e.1).length }

/-! ### Split FP64 (R81, R202) -/

/-- ⌊log2⌋ of the largest nonzero finite element. -/
def maxExp64 (vs : List FVal) : Option Int :=
  vs.foldl (fun acc v => match v with
    | .fin _ m e => if m = 0 then acc else some (match acc with | none => floorLog2 m e | some x => max x (floorLog2 m e))
    | _ => acc) none
/-- The signed slices of an element: digits of M base 128, most significant first, with its sign. -/
def sliceDigits (s : Nat) (E : Int) (v : FVal) : List Int :=
  match v with
  | .fin n m e =>
    let fr := asFrac m (e + (7 * s - 1 : Nat) - E)
    let M := fr.1 / fr.2
    (List.range s).map fun i => (if n then -1 else 1) * ((M / 128 ^ (s - 1 - i) % 128 : Nat) : Int)
  | _ => List.replicate s 0
/-- The marked word that stands for NaN. -/
def markedF : Int := -(2 ^ 127)
/-- Truncation toward zero of z × 2^k. -/
def truncScale (z k : Int) : Int := if 0 ≤ k then z * (2 ^ k.toNat : Nat) else Int.tdiv z (2 ^ (-k).toNat : Nat)
/-- One K block into a mode-3 word: the new F and its flags. `T / 2^G` is truncated before it is added, a choice where R81 may also be read as
truncating the sum (log entry 62). -/
def splitUpdate (s : Nat) (G F : Int) (as bs : List FVal) : Int × FFlags :=
  let special := fun (v : FVal) => match v with | .fin .. => false | _ => true
  if as.any special || bs.any special then (markedF, flNV)
  else if F = markedF then (F, 0)
  else match maxExp64 as, maxExp64 bs with
    | some ea, some eb =>
      let da := as.map (sliceDigits s ea)
      let db := bs.map (sliceDigits s eb)
      let sum : Int := (List.zipWith (fun (x y : List Int) =>
        (List.range s).foldl (fun acc i => (List.range (s - i)).foldl (fun acc j =>
          acc + x.getD i 0 * y.getD j 0 * (128 ^ (2 * s - 2 - i - j) : Nat)) acc) 0) da db).foldl (· + ·) 0
      let F' := F + truncScale sum (ea + eb + 2 - (14 * s : Nat) - G)
      let hi : Int := 2 ^ 127 - 1
      if hi < F' then (hi, flOF) else if F' < -hi then (-hi, flOF) else (F', 0)
    | _, _ => (F, 0)
/-- The value a mode-3 word drains to (R81), rounded without VT.FZ's flush of outputs, of which R81 says nothing (log entry 63). -/
def splitDrain (G F : Int) : Nat × FFlags :=
  if F = markedF then (fmtFP64.cnan, 0) else roundFp fmtFP64 0 0 (.fin (decide (F < 0)) F.natAbs G)

/-! ### The drain of one word (R199) -/

/-- The word on its way through a drain: the exact INT32 of the accumulator, or an FP32 pattern. -/
inductive DrainV where
  | int (z : Int)
  | fp (b : Nat)
  deriving DecidableEq, Repr
def DrainV.val : DrainV → FVal
  | .int z => fOfInt z
  | .fp b => fpVal fmtFP32 b
/-- Exact comparison of the clamp, −0 below +0 (R155). -/
def drainLt (x y : FVal) : Bool :=
  fLt x y || (match x, y with
    | .fin true 0 _, .fin false 0 _ => true
    | _, _ => false)
/-- The functions of a drain: scale, bias, ReLU, clamp, with their parameters. -/
structure DrainFn where
  sc    : Option Nat := none
  bi    : Option Nat := none
  relu  : Bool := false
  clamp : Option (Nat × Nat) := none
  deriving DecidableEq, Repr
/-- scale, bias, ReLU and clamp of one word, with their flags. -/
def drainFn (fn : DrainFn) (v : DrainV) : DrainV × FFlags :=
  let r1 : DrainV × FFlags := match fn.sc with
    | none => (v, 0)
    | some c => let m := fMul v.val (fpVal fmtFP32 c)
                let r := roundFp fmtFP32 0 0 m.1
                (.fp r.1, snanFlag fmtFP32 c ||| (match v with | .fp b => snanFlag fmtFP32 b | _ => 0) ||| m.2 ||| r.2)
  let r2 : DrainV × FFlags := match fn.bi with
    | none => r1
    | some c => let m := fAdd 0 r1.1.val (fpVal fmtFP32 c)
                let r := roundFp fmtFP32 0 0 m.1
                (.fp r.1, r1.2 ||| snanFlag fmtFP32 c ||| (match r1.1 with | .fp b => snanFlag fmtFP32 b | _ => 0) ||| m.2 ||| r.2)
  let v3 := if fn.relu && !r2.1.val.isNan then
      (if fLt (.fin false 0 0) r2.1.val then r2.1 else match r2.1 with | .int _ => .int 0 | .fp _ => .fp 0)
    else r2.1
  let v4 := match fn.clamp with
    | none => v3
    | some (lo, hi) =>
      if v3.val.isNan then v3 else
      let a := if !(fpVal fmtFP32 lo).isNan && drainLt v3.val (fpVal fmtFP32 lo) then DrainV.fp lo else v3
      if !(fpVal fmtFP32 hi).isNan && drainLt (fpVal fmtFP32 hi) a.val then DrainV.fp hi else a
  (v4, r2.2)
/-- Conversion of a drained word to a non-packed format (R78). -/
def drainConv (f mode fz : Nat) (v : DrainV) : Nat × FFlags :=
  if isIntCode f then
    let w := 8 * esizeOf f
    match v with
    | .int z => let r := if isSignedCode f then satS z w else satU z w
                (wrapZ r.1 w, 0)
    | .fp b => fpToInt mode (isSignedCode f) w (fpIn fmtFP32 fz b)
  else match fmtOf f with
    | some F => let r := roundFp F mode fz (match v with | .int z => fOfInt z | .fp b => fpIn fmtFP32 fz b)
                (r.1, (match v with | .fp b => snanFlag fmtFP32 b | _ => 0) ||| r.2)
    | none => (0, 0)
/-- An INT32 word drained into an integer format saturates: VXSAT. -/
def drainSat (f : Nat) (v : DrainV) : Bool :=
  match v with
  | .int z => isIntCode f && (if isSignedCode f then (satS z (8 * esizeOf f)).2 else (satU z (8 * esizeOf f)).2)
  | .fp _ => false

end Sys2Proof.Machine
end

