-- ==== Sys2Proof/Machine/Matrix.lean ====
section
/-! DEFINITION. The matrix instructions at the leader, the arrays' streams and their switch points, plane loads, streams, drains and
accumulator transfers, and the tiles with their verdicts (R178 to R224). -/
namespace Sys2Proof.Machine

open Host (Outcome)

/-! ### Issue checks (R192 and the operand-word rules it names) -/

/-- The first of several (holds, value) rules that fails: the offending register's value. Which of several failing words TVAL names is the order of
these lists, the model's choice (R192, log entry 101). -/
def firstBad (rs : List (Bool × Word)) : Option Word := (rs.find? fun r => !r.1).map fun r => r.2
/-- AROW, SROW, MODE, ZF and G of an accumulator word (Table 7.10). -/
def accRow (W : Word) : Nat := bits W 8 0
def accSrow (W : Word) : Nat := bits W 40 32
def accMode (W : Word) : Nat := bits W 11 10
def accZf (W : Word) : Bool := bit W 9
def accG (W : Word) : Int := sextN (bits W 63 52) 12
/-- The rules of R191 on an accumulator word for `m` rows. -/
def accOk (W : Word) (m : Nat) (assay : Bool) : Bool :=
  let lim := rowLimitOf (accMode W)
  decide (bits W 51 41 = 0 ∧ bits W 31 12 = 0) && (accMode W == 3 || bits W 63 52 == 0) && decide (accRow W + m ≤ lim) &&
  (if assay then decide (accSrow W + m ≤ lim ∧ (accRow W + m ≤ accSrow W ∨ accSrow W + m ≤ accRow W)) else accSrow W == 0)
/-- The rules of R191 on a line word. -/
def lineWordOk (W : Word) : Bool := decide (bits W 63 18 = 0 ∧ bits W 8 0 + bits W 17 9 ≤ 511)
/-- MLDS (R196). -/
def mldsBad (gb : Nat) (prot : Bool) (B G : Word) : Option Word :=
  let f := dFmt B
  let gs := imgGroups f prot
  let top := (gs - 1) * G.toNat + imgBlocks f * imgBytes f
  firstBad [(isBFmt f && f != 0x0B, B), (decide (G.toNat % 4 = 0) && (gs == 2 || G == 0), G),
            (dSpace B != 2 || (dVs B == 0 && dLane B == 0), B), (descWordOk B gb prot top, B)]
/-- MSTR (R197). -/
def mstrBad (gb : Nat) (prot : Bool) (A S W : Word) : Option Word :=
  let m := bits S 9 0
  firstBad [(isAFmt (dFmt A) && dFmt A != 0x0B, A), (descWordOk A gb prot (96 * m), A),
            (decide (bits S 39 10 = 0 ∧ 1 ≤ m ∧ m ≤ 512 ∧ bits S 63 40 % 4 = 0) && (dSpace A != 2 || bits S 63 40 == 0), S),
            (accMode W != 3 && accOk W m false, W)]
/-- Bytes of one drained row of `n` columns: those in memory, and the data bytes in a run (R199). -/
def drainRowMem (f n : Nat) : Nat :=
  if isBpi f then n + n / 32 else if 0x0C ≤ f then n / 32 * (4 * mxWidth f + 4) else n * esizeOf f
def drainRowRun (f n : Nat) : Nat :=
  if isBpi f then n + n / 32 else if 0x0C ≤ f then n * mxWidth f / 8 else n * esizeOf f
/-- Columns of a mode, half of them in a protected context. -/
def drainCols (mode : Nat) (prot : Bool) : Nat := (if mode = 1 then 384 else 192) / (if prot then 2 else 1)
/-- MDRAIN (R199). `fn` is its function bits. -/
def mdrainBad (gb : Nat) (prot : Bool) (D W : Word) (fn : Nat) : Option Word :=
  let f := dFmt D
  let mode := bits W 21 20
  let m := bits W 9 0
  firstBad [(f != 0x12 && dSpace D != 3 && (mode != 3 || f == 0x0B), D),
            (descWordOk D gb prot (m * drainRowRun f (drainCols mode prot)), D),
            (decide (bits W 27 22 = 0 ∧ bits W 10 10 = 0 ∧ 1 ≤ m ∧ m ≤ 512 ∧ bits W 19 11 + m ≤ rowLimitOf mode)
              && (mode != 3 || fn == 0) && (dSpace D != 2 || bits W 51 28 == 0), W)]
/-- MACLD and MACST (R198). -/
def macBad (gb : Nat) (prot : Bool) (D W : Word) : Option Word :=
  firstBad [(decide (dSpace D < 2) && dFmt D == 0 && descWordOk D gb prot 0, D), (lineWordOk W, W)]
/-- The steps of the ladder (R200). -/
def ladder (n w : Nat) : Bool :=
  (n == 0x10 && w == 0x0C) || ((n == 0x0E || n == 0x0F) && w == 0x0C) || (n == 0x0C && w == 0x08) || ((n == 0x15 || n == 0x1C) && w == 0x19)
/-- One side of an assayed tile: identical descriptors, or a step of the ladder. -/
def sideOk (n w : Word) : Bool :=
  n == w || (ladder (dFmt n) (dFmt w) && (!isBpi (dFmt n) || (dSpace n == dSpace w && dAddr n == dAddr w)))
/-- The rules on one pass of a tile that reads `gs` column groups of images: its descriptors, pairing and K (R190, R200, R201). -/
def passBad (gb : Nat) (prot : Bool) (gs : Nat) (A B S : Word) : Option Word :=
  let fa := dFmt A
  let fb := dFmt B
  let kt := bits S 39 16
  let m := bits S 9 0
  firstBad [(isAFmt fa, A), ((pairing fa fb).isSome, B),
            (decide (0 < kt ∧ kt % kStep fa = 0 ∧ kt % kBlock fb = 0), S),
            (descWordOk A gb prot (m * (kt / kStep fa) * unitRun fa), A),
            (dSpace B != 2 || (dVs B == 0 && dLane B == 0), B),
            (descWordOk B gb prot (gs * (kt / kBlock fb) * imgBytes fb), B)]
/-- Pairing number of two descriptors; 0 for none. -/
def pairNum (A B : Word) : Nat := match pairing (dFmt A) (dFmt B) with | some p => p.1 | none => 0
/-- The replay of a tile runs once per column group: the narrow pairing is 5, the wide one is not (R201). -/
def groupedReplay (an aw bn bw : Word) : Bool := pairNum an bn == 5 && pairNum aw bw != 5
/-- MTILE (R191, R200). -/
def mtileBad (gb : Nat) (prot assay : Bool) (an aw bn bw S W : Word) : Option Word :=
  let m := bits S 9 0
  let mode := match pairing (dFmt an) (dFmt bn) with | some p => p.2.2 | none => 4
  (firstBad [(assay || aw == 0, aw), (assay || bw == 0, bw), (decide (bits S 63 40 = 0 ∧ bits S 15 10 = 0 ∧ 1 ≤ m ∧ m ≤ 512), S)]).orElse fun _ =>
  (passBad gb prot (imgGroups (dFmt bn) prot) an bn S).orElse fun _ =>
  (firstBad [(accMode W == mode && accOk W m assay, W)]).orElse fun _ =>
  if !assay then none else
  (firstBad [(sideOk an aw && (an != aw || bn != bw), aw), (sideOk bn bw, bw)]).orElse fun _ =>
  passBad gb prot (if groupedReplay an aw bn bw && !prot then 2 else imgGroups (dFmt bw) prot) aw bw S

/-- A matrix command as leader `n` captures it: FRM, VXRM, VT and the tag; an assayed MTILE takes ABR.mj and SHIFT as well (R192, R209). -/
def Leader.capture (l : Leader) (n kind arr : Nat) (ops : List Word) (flags : Nat) (tok : Option Nat) : MatCmd where
  kind := kind
  arr := arr
  ops := ops
  flags := flags
  pc := l.pc
  frm := l.csr.frm
  vxrm := l.csr.vxrm
  vt := l.csr.vt
  abr := if kind = 7 then (match arr with | 0 => l.csr.abr0 | 1 => l.csr.abr1 | 2 => l.csr.abr2 | _ => l.csr.abr3) else 0
  shift := if kind = 7 then l.csr.acan.toNat else 0
  ctx := l.ctxOf
  inn := l.innOf
  task := l.taskOf
  leader := n
  tok := tok
  num := l.cmdNum + 1
/-- A matrix command that has passed its checks enters the matrix queue (R192, R332). -/
def State.enqueueMat (s : State) (n kind arr : Nat) (ops : List Word) (flags : Nat) : State :=
  let s := s.spoilStrip n
  let l := s.leader n
  let c := l.capture n kind arr ops flags none
  (s.setLeader n { l with matq := l.matq ++ [c], cmdNum := l.cmdNum + 1 }).retire n 4
/-- The issue of a matrix command: its checks, the wait for room, the entry. -/
def State.matIssue (s : State) (n kind arr : Nat) (ops : List Word) (flags : Nat) (bad : Option Word) : State :=
  match bad with
  | some v => s.trap n .illegal v 0
  | none => if 32 ≤ (s.leader n).matq.length then s.stall n 6 else s.enqueueMat n kind arr ops flags
def Leader.prot (l : Leader) : Bool := vtPROT l.csr.vt || l.protOf

def execMlds (m : BitVec 2) (a b : BitVec 5) (p : BitVec 1) (s : State) : Outcome State Fault Refusal :=
  onLeaderP (encMlds m a b p) [a.toNat, b.toNat] (fun n s => s.ownTrap n [a.toNat, b.toNat]
      (mldsBad s.grantedBanks (s.leader n).prot (s.xr n a.toNat) (s.xr n b.toNat))) (fun n s =>
    let B := s.xr n a.toNat
    let G := s.xr n b.toNat
    s.matIssue n 0 m.toNat [B, G] p.toNat (mldsBad s.grantedBanks (s.leader n).prot B G)) s
def execMstr (m : BitVec 2) (a b c : BitVec 5) (l p : BitVec 1) (s : State) : Outcome State Fault Refusal :=
  onLeaderP (encMstr m a b c l p) [a.toNat, b.toNat, c.toNat] (fun n s => s.ownTrap n [a.toNat, b.toNat, c.toNat]
      (mstrBad s.grantedBanks (s.leader n).prot (s.xr n a.toNat) (s.xr n b.toNat) (s.xr n c.toNat))) (fun n s =>
    let A := s.xr n a.toNat
    let S := s.xr n b.toNat
    let W := s.xr n c.toNat
    s.matIssue n 1 m.toNat [A, S, W] (p.toNat + 2 * l.toNat) (mstrBad s.grantedBanks (s.leader n).prot A S W)) s
def execMzero (m : BitVec 2) (a : BitVec 5) (s : State) : Outcome State Fault Refusal :=
  onLeaderW (encMzero m a) [a.toNat] (fun n s =>
    let W := s.xr n a.toNat
    s.matIssue n 2 m.toNat [W] 0 (firstBad [(lineWordOk W, W)])) s
/-- With no function bit set the xc field must be zero; the word is then illegal, before any operand is read (R55, R199). -/
def execMdrain (m : BitVec 2) (a b c : BitVec 5) (q r u t : BitVec 1) (s : State) : Outcome State Fault Refusal :=
  let fn := t.toNat + 2 * u.toNat + 4 * r.toNat + 8 * q.toNat
  if fn = 0 ∧ c ≠ 0 then .next (s.illegalAt (wordsVal (encMdrain m a b c q r u t)))
  else onLeaderP (encMdrain m a b c q r u t) [a.toNat, b.toNat, c.toNat] (fun n s => s.ownTrap n [a.toNat, b.toNat]
      (mdrainBad s.grantedBanks (s.leader n).prot (s.xr n a.toNat) (s.xr n b.toNat) fn)) (fun n s =>
    let D := s.xr n a.toNat
    let W := s.xr n b.toNat
    s.matIssue n 3 m.toNat [D, W, s.xr n c.toNat] fn (mdrainBad s.grantedBanks (s.leader n).prot D W fn)) s
def execMacld (m : BitVec 2) (a b : BitVec 5) (s : State) : Outcome State Fault Refusal :=
  onLeaderP (encMacld m a b) [a.toNat, b.toNat] (fun n s => s.ownTrap n [a.toNat, b.toNat]
      (macBad s.grantedBanks (s.leader n).prot (s.xr n a.toNat) (s.xr n b.toNat))) (fun n s =>
    let D := s.xr n a.toNat
    let W := s.xr n b.toNat
    s.matIssue n 4 m.toNat [D, W] 0 (macBad s.grantedBanks (s.leader n).prot D W)) s
def execMacst (m : BitVec 2) (a b : BitVec 5) (s : State) : Outcome State Fault Refusal :=
  onLeaderP (encMacst m a b) [a.toNat, b.toNat] (fun n s => s.ownTrap n [a.toNat, b.toNat]
      (macBad s.grantedBanks (s.leader n).prot (s.xr n a.toNat) (s.xr n b.toNat))) (fun n s =>
    let D := s.xr n a.toNat
    let W := s.xr n b.toNat
    s.matIssue n 5 m.toNat [D, W] 0 (macBad s.grantedBanks (s.leader n).prot D W)) s
/-- The six registers of an MTILE. -/
def groupRegs (g k : Nat) : List Nat := (List.range k).map fun i => g + i
def State.tileOps (s : State) (n g : Nat) : List Word := (groupRegs g 6).map fun r => s.xr n r
def tileBad (gb : Nat) (prot assay : Bool) (o : List Word) : Option Word :=
  mtileBad gb prot assay (o.getD 0 0) (o.getD 1 0) (o.getD 2 0) (o.getD 3 0) (o.getD 4 0) (o.getD 5 0)
def execMtile (m : BitVec 2) (g : BitVec 5) (s : State) : Outcome State Fault Refusal :=
  onLeaderP (encMtile m g) (groupRegs g.toNat 6) (fun n s => s.ownTrap n (groupRegs g.toNat 6)
      (tileBad s.grantedBanks (s.leader n).prot false (s.tileOps n g.toNat))) (fun n s =>
    let o := s.tileOps n g.toNat
    s.matIssue n 6 m.toNat o 0 (tileBad s.grantedBanks (s.leader n).prot false o)) s
/-- The tile's sequence number on its leader and array (R426). -/
def State.nextTile (s : State) (n arr : Nat) : State :=
  let l := s.leader n
  s.setLeader n { l with tileSeq := tput 0 l.tileSeq arr (tget 0 l.tileSeq arr + 1) }
def execMtileAs (m : BitVec 2) (g : BitVec 5) (s : State) : Outcome State Fault Refusal :=
  onLeaderP (encMtileAs m g) (groupRegs g.toNat 6) (fun n s => s.ownTrap n (groupRegs g.toNat 6)
      (tileBad s.grantedBanks (s.leader n).prot true (s.tileOps n g.toNat))) (fun n s =>
    let o := s.tileOps n g.toNat
    match tileBad s.grantedBanks (s.leader n).prot true o with
    | some v => s.trap n .illegal v 0
    | none => if 32 ≤ (s.leader n).matq.length then s.stall n 6
              else (s.nextTile n m.toNat).enqueueMat n 7 m.toNat o (tget 0 (s.leader n).tileSeq m.toNat + 1)) s

/-! ### Streams (R192, R204, R205) -/

def MatCmd.op (c : MatCmd) (k : Nat) : Word := c.ops.getD k 0
def MatCmd.isTile (c : MatCmd) : Bool := decide (6 ≤ c.kind)
def MatCmd.assay (c : MatCmd) : Bool := c.kind == 7
def MatCmd.prot (c : MatCmd) : Bool := vtPROT c.vt
/-- Rows the command streams. -/
def MatCmd.rows (c : MatCmd) : Nat := if c.kind = 1 then bits (c.op 1) 9 0 else if c.isTile then bits (c.op 4) 9 0 else 0
/-- The head command of stream `k`. -/
def Array_.head (a : Array_) (k : Nat) : Option MatCmd :=
  match k with | 0 => a.stream0.head? | 1 => a.stream1 | 2 => a.stream2 | _ => a.stream3
def Array_.popHead (a : Array_) (k : Nat) : Array_ :=
  match k with
  | 0 => { a with stream0 := a.stream0.drop 1 }
  | 1 => { a with stream1 := none }
  | 2 => { a with stream2 := none }
  | _ => { a with stream3 := none }
def Array_.tile (a : Array_) (k : Nat) : Option Tile := tget none a.tiles k
def Array_.setTile (a : Array_) (k : Nat) (t : Option Tile) : Array_ := { a with tiles := tput none a.tiles k t }
def Array_.plane (a : Array_) (p : Nat) : Plane := if p = 0 then a.p0 else a.p1
def Array_.setPlane (a : Array_) (p : Nat) (v : Plane) : Array_ := if p = 0 then { a with p0 := v } else { a with p1 := v }
/-- The accumulator lines that a command names: first line and count. -/
def MatCmd.lines (c : MatCmd) : List (Nat × Nat) :=
  match c.kind with
  | 0 => []
  | 1 => [linesOf (accMode (c.op 2)) (accRow (c.op 2)) c.rows]
  | 2 => [(bits (c.op 0) 8 0, bits (c.op 0) 17 9 + 1)]
  | 3 => [linesOf (bits (c.op 1) 21 20) (bits (c.op 1) 19 11) (bits (c.op 1) 9 0)]
  | 4 | 5 => [(bits (c.op 1) 8 0, bits (c.op 1) 17 9 + 1)]
  | k =>
    let W := c.op 5
    linesOf (accMode W) (accRow W) c.rows :: (if k = 7 then [linesOf (accMode W) (accSrow W) c.rows] else [])
def linesMeet (a b : List (Nat × Nat)) : Bool := a.any fun x => b.any fun y => decide (x.1 < y.1 + y.2 ∧ y.1 < x.1 + x.2)
/-- A tile of another stream is under way that `f` selects. -/
def Array_.otherTile (a : Array_) (k : Nat) (f : MatCmd → Bool) : Bool :=
  (List.range 4).any fun j => j != k && (a.tile j).isSome && (a.head j).any f
/-- Plane `p` carries no claim of another stream. -/
def Array_.planeFree (a : Array_) (p k : Nat) : Bool := match (a.plane p).claim with | none => true | some j => j == k
/-- The stream's next command or step can start (R186, R197, R201, R202, R205, R346). -/
def Array_.ready (a : Array_) (k : Nat) : Bool :=
  match a.head k with
  | none => false
  | some c =>
    let free := !a.otherTile k fun d => linesMeet c.lines d.lines
    match c.kind with
    | 0 => a.planeFree (c.flags % 2) k
    | 1 => free && a.planeFree (c.flags % 2) k && (a.plane (c.flags % 2)).st == 2
    | 2 | 3 | 4 | 5 => free
    | _ => a.planeFree 0 k && a.planeFree 1 k && ((a.tile k).isSome ||
        (free && !(c.assay && a.otherTile k fun d => d.assay)
              && !(dFmt (c.op 0) == 0x0B && a.otherTile k fun d => dFmt (d.op 0) == 0x0B)))
/-- Steps left in the current pass of a tile. -/
def stepsOf (c : MatCmd) (pass : Nat) : Nat := bits (c.op 4) 39 16 / kStep (dFmt (if pass = 2 then c.op 1 else c.op 0))
/-- Remaining rows (R205). -/
def Array_.remaining (a : Array_) (k : Nat) : Nat :=
  match a.head k with
  | none => 0
  | some c => if c.isTile then
      c.rows * (match a.tile k with | some t => stepsOf c t.pass - t.kstep | none => stepsOf c 0)
    else c.rows
/-- The task of the command is being stopped for a budget: nothing more of it starts, and no tile of it commits (R393). -/
def State.stopped (s : State) (c : MatCmd) : Bool := (s.task c.task).stop != 0
/-- MATRIX_QUEUE_HANDOFF: the head of the matrix queue goes to its array when the stream-0 buffer has room. -/
def State.handoff (s : State) (n : Nat) : State :=
  let l := s.leader n
  match l.matq with
  | [] => s
  | c :: r =>
    if !s.live c.ctx c.inn || s.stopped c then s else
    let i := 4 * n + c.arr
    let a := s.array i
    let started := a.cur == some 0 || (a.tile 0).isSome
    if a.stream0.length < (if started then 3 else 2) then
      (s.setArray i { a with stream0 := a.stream0 ++ [c] }).setLeader n { l with matq := r, matRun := l.matRun ++ [c] }
    else s
def execMatrixQueueHandoff (n : Nat) (s : State) : Outcome State Fault Refusal := onEvent (fun s => s.handoff n) s

/-! ### The end of a command -/

/-- The claims of stream `k` on both planes end. -/
def Array_.release (a : Array_) (k : Nat) : Array_ :=
  let f := fun (p : Plane) => if p.claim = some k then { p with claim := none } else p
  { a with p0 := f a.p0, p1 := f a.p1 }
/-- ASYNC_FAULT's TVAL (R193). -/
def asyncVal (c : Cause) (arr k : Nat) (pc : Word) : Word :=
  BitVec.ofNat 64 (c.code * 2 ^ 56 + arr * 2 ^ 54 + k * 2 ^ 52 + pc.toNat % 2 ^ 18)
/-- The command at the head of stream `k` of array `i` ends, with the fault that ended it if any (R193, R204). -/
def State.matEnd (s : State) (i k : Nat) (r : Option Cause) : State :=
  let a := s.array i
  match a.head k with
  | none => s
  | some c =>
    let n := c.leader
    let a := { (a.popHead k).setTile k none with cur := none }
    let a := if c.isTile then a.release k else a
    let s := (s.setArray i a).engineEnd n c.num r.isNone
    let l := s.leader n
    let s := s.setLeader n { l with matRun := l.matRun.filter fun d => d.num != c.num, follow := l.follow.filter fun d => d.num != c.num }
    match r with
    | none => match c.tok with
      | some t => s.tokenEnd n t .done 0 0 0 0
      | none => s
    | some e =>
      if k = 0 then
        let l := s.leader n
        let gone := (s.array i).stream0.map fun d => d.num
        let s := s.setLeader n { l with async := l.async ++ [(asyncVal e c.arr k c.pc, BitVec.ofNat 64 s.cycle)]
                                        matRun := l.matRun.filter fun d => !gone.contains d.num
                                        matq := l.matq.filter fun d => d.arr != c.arr }
        s.setArray i { s.array i with stream0 := [] }
      else match c.tok with
        | some t => s.tokenEnd n t .fault 8 e.code 0 0
        | none => s

/-! ### Accumulator lines (R183 to R185) -/

def Array_.line (a : Array_) (L : Nat) : Line := tget Line.reset a.lines L
def Array_.setLine (a : Array_) (L : Nat) (v : Line) : Array_ := { a with lines := tput Line.reset a.lines L v }
/-- Word `w` of a line as stored, decoded. -/
def Line.word (l : Line) (w : Nat) : Word × EccResult :=
  let d := memDw l.data (8 * w)
  match l.ecc.find? fun e => e.1 == w with
  | none => (d, .clean)
  | some e => let r := eccDecode d e.2; (r.1, r.2.1)
/-- The 4-byte unit `u`; a unit at or beyond VLEN reads as zero. -/
def Line.unit (l : Line) (u : Nat) : Nat :=
  if u < l.vlen then bits (l.word (u / 2)).1 (if u % 2 = 0 then 31 else 63) (if u % 2 = 0 then 0 else 32) else 0
def Line.units (l : Line) : List Nat := (List.range 192).map fun u => l.unit u
/-- A word below VLEN is uncorrectable; corrected words below VLEN. -/
def Line.bad (l : Line) : Nat := (l.ecc.filter fun e => decide (2 * e.1 < l.vlen) && (l.word e.1).2 == .uncorrectable).length
def Line.fixed (l : Line) : Nat := (l.ecc.filter fun e => decide (2 * e.1 < l.vlen) && (l.word e.1).2 == .corrected).length
/-- Write units from `u` upward. -/
def Line.put (l : Line) (u : Nat) (vs : List Nat) : Line :=
  { vlen := max l.vlen (u + vs.length), dirty := true, data := memPut l.data (4 * u) (vs.flatMap fun v => leBytes 4 v)
    ecc := l.ecc.filter fun e => decide (2 * e.1 + 2 ≤ u) || decide (u + vs.length ≤ 2 * e.1) }
/-- VLEN ← 0. -/
def Line.zero (l : Line) : Line := { l with vlen := 0, data := [], ecc := [] }
def Array_.zeroLines (a : Array_) (lo n : Nat) : Array_ := (List.range n).foldl (fun a k => a.setLine (lo + k) (a.line (lo + k)).zero) a
/-- The 192-word units of the lines of row `r` of a mode. -/
def Array_.rowUnits (a : Array_) (mode r : Nat) : List Nat :=
  (List.range (linesOf mode r 1).2).flatMap fun k => (a.line ((linesOf mode r 1).1 + k)).units
/-- The 128-bit words of a mode-3 row. -/
def rowF (us : List Nat) : List Int :=
  (List.range (us.length / 4)).map fun w => sextN (((us.drop (4 * w)).take 4).foldr (fun u acc => u + 2 ^ 32 * acc) 0) 128
def fUnits (F : Int) : List Nat := let v := wrapZ F 128; [v % 2 ^ 32, v / 2 ^ 32 % 2 ^ 32, v / 2 ^ 64 % 2 ^ 32, v / 2 ^ 96]
/-- Write units into the lines from `L`, 192 to a line. -/
def Array_.putLines (a : Array_) (L : Nat) (us : List Nat) : Array_ :=
  (List.range ((us.length + 191) / 192)).foldl (fun a k => a.setLine (L + k) ((a.line (L + k)).put 0 ((us.drop (192 * k)).take 192))) a
/-- The lines a command reads hold an uncorrectable word; the error counters count what decoding finds (R185, Table 17.2). -/
def Array_.countLines (a : Array_) (ls : List (Nat × Nat)) : Array_ :=
  let each := ls.flatMap fun x => (List.range x.2).map fun k => a.line (x.1 + k)
  { a with ce := a.ce + each.foldl (fun n l => n + l.fixed) 0, ue := a.ue + each.foldl (fun n l => n + l.bad) 0 }
def Array_.badLines (a : Array_) (ls : List (Nat × Nat)) : Bool :=
  ls.any fun x => (List.range x.2).any fun k => decide (0 < (a.line (x.1 + k)).bad)
/-- The line as it is read whole: corrected words with correct codes. -/
def Line.scrubbed (l : Line) : Line :=
  { l with data := l.ecc.foldl (fun m e => if 2 * e.1 < l.vlen then memPut m (8 * e.1) (leBytes 8 (l.word e.1).1.toNat) else m) l.data, ecc := [] }
/-- Copy `n` lines; an uncorrectable word among them is consumed, and nothing is copied (R185). -/
def Array_.copyLines (a : Array_) (src dst n : Nat) : Except Array_ Array_ :=
  let b := a.countLines [(src, n)]
  if a.badLines [(src, n)] then .error b
  else .ok ((List.range n).foldl (fun b k => b.setLine (dst + k) { (a.line (src + k)).scrubbed with dirty := true }) b)
/-- Unspecified contents in the lines that a failing command was to write (R8, R185). -/
def State.spoilLines (s : State) (i : Nat) (ls : List (Nat × Nat)) : State :=
  let word := fun (L u : Nat) => leNat ((List.range 4).map fun j => s.openByte (i / 4) (2 ^ 57 + 2 ^ 24 * i + 1024 * L + 4 * u + j))
  s.setArray i (ls.foldl (fun a x => (List.range x.2).foldl (fun a k =>
    a.setLine (x.1 + k) ((a.line (x.1 + k)).put 0 ((List.range 192).map fun u => word (x.1 + k) u))) a) (s.array i))

/-! ### Planes (R181, R182, R185) -/

/-- The plane's words are stored with check bits of their own where `ecc` lists them; an uncorrectable one is consumed. -/
def Plane.wordRes (p : Plane) (w : Nat) : Word × EccResult :=
  let d := memDw p.data (8 * w)
  match p.ecc.find? fun e => e.1 == w with
  | none => (d, .clean)
  | some e => let r := eccDecode d e.2; (r.1, r.2.1)
/-- The bytes that a stream past the plane reads: the sections of a bit-plane format that it holds, and the scales of every image. -/
def Plane.reads (p : Plane) (w : Nat) : Bool :=
  (List.range (imgGroups p.fmt false * imgBlocks p.fmt)).any fun m =>
    let d := imgData p.fmt m
    let n := if isBpi p.fmt then 2304 * bpiPlanes p.fmt else 18432
    let sc := imgScale p.fmt m
    decide (d < 8 * w + 8 ∧ 8 * w < d + n ∨ sc < 8 * w + 8 ∧ 8 * w < sc + 192 * imgScales p.fmt)
def Plane.bad (p : Plane) : Nat := (p.ecc.filter fun e => p.reads e.1 && (p.wordRes e.1).2 == .uncorrectable).length
def Plane.fixed (p : Plane) : Nat := (p.ecc.filter fun e => p.reads e.1 && (p.wordRes e.1).2 == .corrected).length
/-- The plane as the array reads it: corrected words replaced by their data. -/
def Plane.corrected (p : Plane) : Plane :=
  { p with data := p.ecc.foldl (fun m e => memPut m (8 * e.1) (leBytes 8 (p.wordRes e.1).1.toNat)) p.data }
/-- An image as read: bytes by offset. -/
def toMem (o : Nat) (bs : List (BitVec 8)) : Mem := (bs.zipIdx.filter fun e => e.1 != 0).map fun e => (o + e.2, e.1)
/-- The bytes of an image that a plane load reads: offset and length (R181). -/
def imgPieces (fb : Nat) : List (Nat × Nat) :=
  if isBpi fb then [(0, 2304 * bpiPlanes fb), (18432, 576)] else [(0, imgBytes fb)]
/-- The probes and absent pages of the images at offsets `os` of a descriptor. A protected load probes and reads each image whole, the columns that it does
not keep among them: the model's choice (R180, log entry 102). -/
def State.imageCheck (s : State) (n ep : Nat) (prot : Bool) (D : Word) (os : List Nat) : Option EngErr :=
  firstFault (os.flatMap fun o => (imgPieces (dFmt D)).map fun p => s.srcCheck n ep prot D (o + p.1) p.2 4)
/-- Read the image at offset `o` of a descriptor, already checked. -/
def State.readImage (s : State) (n ep : Nat) (prot : Bool) (D : Word) (o : Nat) : Except Cause Mem :=
  (imgPieces (dFmt D)).foldl (fun acc p => match acc with
    | .error e => .error e
    | .ok m => match s.srcRead n ep prot D (o + p.1) p.2 with
      | .error e => .error e
      | .ok bs => .ok (m ++ toMem p.1 bs)) (.ok [])
def State.readImages (s : State) (n ep : Nat) (prot : Bool) (D : Word) : List Nat → Except Cause (List Mem)
  | [] => .ok []
  | o :: r => match s.readImage n ep prot D o with
    | .error e => .error e
    | .ok m => match s.readImages n ep prot D r with
      | .error e => .error e
      | .ok ms => .ok (m :: ms)
/-- The whole image, unread sections of a bit-plane tensor included, for the operand monitors (R211). -/
def State.peekImage (s : State) (n ep : Nat) (prot : Bool) (D : Word) (o : Nat) : Mem :=
  toMem 0 ((s.srcBytes n ep prot D o (imgBytes (dFmt D))).map fun b => b.1)
/-- Mirror the lower half of an image's columns into the upper half (R180). -/
def mirrorImage (fb : Nat) (m : Mem) : Mem :=
  let t := imgScales fb
  let low := fun (o : Nat) => if 18432 ≤ o then decide (o < 18432 + 96 * t)
    else if isBpi fb then decide (o % 2304 < 1152) else decide (o < 9216)
  let up := fun (o : Nat) => if 18432 ≤ o then o + 96 * t else if isBpi fb then o + 1152 else o + 9216
  let lows := m.filter fun e => low e.1
  lows.foldl (fun acc e => tput 0 acc (up e.1) e.2) lows
/-- The plane that holds these images, group by group. -/
def planeOf (fb k : Nat) (prot : Bool) (imgs : List Mem) : Plane :=
  let imgs := if prot then (if imgGroups fb false = 2 then imgs ++ imgs else imgs.map (mirrorImage fb)) else imgs
  let data := imgs.zipIdx.flatMap fun e => (e.1.filter fun x => decide (x.1 < 18432)).map fun x => (imgData fb e.2 + x.1, x.2)
  let sc := imgs.zipIdx.flatMap fun e => (e.1.filter fun x => decide (18432 ≤ x.1)).map fun x => (imgScale fb e.2 + (x.1 - 18432), x.2)
  { st := 2, fmt := fb, claim := some k, data := data ++ sc, ecc := [] }

/-! ### Streaming rows (R80, R197) -/

/-- The scale bytes of the planar unit at run offset `o`: bank index, first byte and count; none for an unscaled format (R189). -/
def unitScales (D : Word) (prot : Bool) (o : Nat) : Option (Nat × Nat × Nat) :=
  let f := dFmt D
  if f = 0x00 ∨ f = 0x08 ∨ f = 0x0B then none else
  let p := runAt D prot o
  some (p.1, 768 * dLane D + p.2 / (4 * mxWidth f), 24 / mxWidth f)
/-- The probes and absent pages of the unit at memory offset `o.1`, run offset `o.2` of an A descriptor. -/
def State.unitCheck (s : State) (n ep : Nat) (prot : Bool) (D : Word) (o : Nat × Nat) : Option EngErr :=
  if dSpace D = 2 then
    firstFault [s.srcCheck n ep prot D o.2 (unitRun (dFmt D)) 4, (unitScales D prot o.2).bind fun x => s.engReg n x.1 (dVs D) false]
  else s.srcCheck n ep prot D o.1 (unitMem (dFmt D)) 4
def State.unitsCheck (s : State) (n ep : Nat) (prot : Bool) (D : Word) (os : List (Nat × Nat)) : Option EngErr :=
  firstFault (os.map fun o => s.unitCheck n ep prot D o)
/-- Read that unit, already checked. -/
def State.readUnit (s : State) (n ep : Nat) (prot : Bool) (D : Word) (o : Nat × Nat) : Except Cause Opnd :=
  let f := dFmt D
  if dSpace D = 2 then
    match s.srcRead n ep prot D o.2 (unitRun f), unitScales D prot o.2 with
    | .error e, _ => .error e
    | .ok bs, none => .ok (unitOfRun f bs [])
    | .ok bs, some x =>
      let sl := s.slot (bankOf n x.1) (dVs D)
      if (wordsOf [(x.2.1, x.2.2)]).any fun w => sl.poison.getLsbD w then .error .ueConsumed
      else .ok (unitOfRun f bs ((List.range x.2.2).map fun b => rowGetByte sl.latch (x.2.1 + b)))
  else match s.srcRead n ep prot D o.1 (unitMem f) with
    | .error e => .error e
    | .ok bs => .ok (unitOfMem f bs)
def State.readUnits (s : State) (n ep : Nat) (prot : Bool) (D : Word) : List (Nat × Nat) → Except Cause (List Opnd)
  | [] => .ok []
  | o :: r => match s.readUnit n ep prot D o with
    | .error e => .error e
    | .ok u => match s.readUnits n ep prot D r with
      | .error e => .error e
      | .ok us => .ok (u :: us)

/-- Accumulate several results of one word. -/
def updateBlocks (int : Bool) (shift : Nat) (acc : Nat × FFlags × Mon) (as bs : List (List FVal × List Nat)) : Nat × FFlags × Mon :=
  (List.zip as bs).foldl (fun r e =>
    if int then (blockUpdateInt r.1 e.1.2 e.2.2, r.2.1, r.2.2)
    else let u := blockUpdate shift r.1 e.1.1 e.2.1
         (u.1, r.2.1 ||| u.2.1, { sat := r.2.2.sat + u.2.2.sat, ufl := r.2.2.ufl + u.2.2.ufl, can := r.2.2.can + u.2.2.can })) acc
/-- The operand blocks of a row: one, or two of 96 elements for a bit-plane B of pairing 5 (R178). -/
def rowBlocks (fa nb : Nat) (o : Opnd) : List (List FVal × List Nat) :=
  let vs := o.vals fa
  let k := o.q.length / nb
  (List.range nb).map fun b => ((vs.drop (b * k)).take k, (o.q.drop (b * k)).take k)
/-- What a stream leaves: the array, its flags and monitor events, and whether the halves of every written row agreed (R180). -/
structure Streamed where
  arr : Array_
  fl  : FFlags := 0
  mon : Mon := {}
  ok  : Bool := true
/-- One streamed row: the new words of every column over the old ones. In a protected context the upper half of the columns is computed from
the mirrored copy and compared, and only the lower half raises flags and events (R180, R210). -/
def streamRow (fa nb : Nat) (int : Bool) (shift : Nat) (half : Bool) (a : Opnd) (cols : List (List (List FVal × List Nat))) (old : List Nat) :
    List Nat × FFlags × Mon × Bool :=
  let ab := rowBlocks fa nb a
  let rs := (List.zip cols old).map fun e => updateBlocks int shift (e.2, 0, {}) ab e.1
  let ws := rs.map fun r => r.1
  let h := ws.length / 2
  let counted := if half then rs.take h else rs
  (ws, counted.foldl (fun f r => f ||| r.2.1) (if a.nv then flNV else 0), counted.foldl (fun m r => m.add r.2.2) {},
   !half || ws.take h == ws.drop h)
/-- The columns of the groups listed. -/
def planeCols (p : Plane) (fb nb : Nat) (groups : List Nat) : List (List (List FVal × List Nat)) :=
  groups.flatMap fun h => (List.range 192).map fun c => (List.range nb).map fun b =>
    let o := p.column fb (h * imgBlocks fb + b) c
    (o.vals fb, o.q)
/-- Stream the rows `us` past a plane into the lines of the rows from `row`, up to one whose halves differ. `grp` is the column group of a
grouped replay, `half` a protected context's comparison. -/
def Array_.stream (a : Array_) (p : Plane) (fa fb mode row : Nat) (grp : Option Nat) (shift : Nat) (half : Bool) (us : List Opnd) : Streamed :=
  let nb := kStep fa / kBlock fb
  let groups := match grp with
    | some _ => [0]
    | none => List.range (imgGroups fb false)
  let cols := planeCols p.corrected fb nb groups
  us.zipIdx.foldl (fun (r : Streamed) u =>
    if !r.ok then r else
    let L := (linesOf mode (row + u.2) 1).1 + grp.getD 0
    let old := match grp with
      | some _ => (r.arr.line L).units
      | none => r.arr.rowUnits mode (row + u.2)
    let x := streamRow fa nb (mode == 2) shift half u.1 cols old
    if x.2.2.2 then { arr := r.arr.putLines L x.1, fl := r.fl ||| x.2.1, mon := r.mon.add x.2.2.1 } else { r with ok := false }) { arr := a }

/-- The weight number of an issue cycle on an A format and a B format (Table 17.1). -/
def cycleWeight (fa fb : Nat) : Nat :=
  if isBpi fb then (if bpiPlanes fb ≤ 4 then 2 else 4)
  else match fa with
    | 0x10 => 2 | 0x0E => 3 | 0x0F => 3 | 0x08 => 5 | 0x0B => 6 | _ => 4
/-- `n` cycles of an array's fillers, charged to the task whose binding ended (R386); the weight of an array that ran no format is open (log
entry 42). -/
def State.fillerCharge (s : State) (i n : Nat) : State :=
  let a := s.array i
  let k := (a.ramp - 1) * n / 16
  if a.lastFmt = 0 then s.charge 0xD a.fillFor (k * (s.openAt 16 (2 ^ 56 + i)).toNat) else s.charge a.lastFmt a.fillFor k
/-- A binding that found array `i` filling ends the fillers at its first issue cycle; its ramp starts at the filler step it found (R386). -/
def State.fillersEnd (s : State) (i : Nat) : State :=
  let a := s.array i
  if a.filler then (s.fillerCharge i (s.cycle - a.rampAt)).setArray i { a with filler := false, rampAt := s.cycle } else s
/-- The array issued `m` rows for a task: its issue cycles and those of the task's array-cycle budget (R37, R218). -/
def State.arrayIssued (s : State) (i m : Nat) (fa fb : Nat) (c : MatCmd) (replay : Bool) : State :=
  let s := s.fillersEnd i
  let a := s.array i
  let t := s.task c.task
  let s := (s.setArray i { a with issue := a.issue + m, lastFmt := cycleWeight fa fb }).charge (cycleWeight fa fb) c.task m
  if t.rcd = [] then s
  else s.setTask c.task (if replay then { t with repCyc := t.repCyc + m } else { t with arrCyc := t.arrCyc + m })

/-! ### Operands of a command or step -/

/-- The offsets of an MLDS's images (R196). -/
def mldsOffsets (B G : Word) (prot : Bool) : List Nat :=
  let f := dFmt B
  (List.range (imgGroups f prot)).flatMap fun h => (List.range (imgBlocks f)).map fun b => h * G.toNat + b * imgBytes f
/-- The units of an MSTR: row m's offset in memory and in a run (R197). -/
def mstrUnits (c : MatCmd) : List (Nat × Nat) := (List.range c.rows).map fun m => (m * bits (c.op 1) 63 40, 96 * m)
/-- The parts of a drain's parameter block that its function bits need: offset and length (R199). -/
def drainParts (N fn : Nat) : List (Nat × Nat) :=
  (if fn % 2 = 1 then [(0, 4 * N)] else []) ++ (if fn / 2 % 2 = 1 then [(4 * N, 4 * N)] else []) ++ (if fn / 8 % 2 = 1 then [(8 * N, 8)] else [])
/-- The parameter block as a descriptor of virtual memory. -/
def paramDesc (va : Word) : Word := BitVec.ofNat 64 (va.toNat % 2 ^ 52)
/-- The probe of one part: the address is a virtual one of 64 bits. -/
def State.paramCheck (s : State) (n ep : Nat) (va : Word) (p : Nat × Nat) : Option EngErr :=
  if 2 ^ 52 ≤ va.toNat + p.1 then some (.fault (if (va.toNat + p.1) % 4 ≠ 0 then .misaligned else .regionMiss))
  else s.srcCheck n ep false (paramDesc va) p.1 p.2 4
/-- Where the scale bytes of planar row `m` of a run go: bank index and byte (R189). -/
def scalePlace (D : Word) (prot : Bool) (w o : Nat) : Nat × Nat :=
  let p := runAt D prot o
  (p.1, 768 * dLane D + p.2 / (4 * w))
/-- A drain as its word lays it out: mode, first row, rows, format, columns, whether it goes to a run, bytes of an output row, and where row
`r` goes (R199). -/
structure Drain where
  mode : Nat
  row  : Nat
  m    : Nat
  f    : Nat
  ncol : Nat
  run  : Bool
  rb   : Nat
  step : Nat
  deriving DecidableEq, Repr
def MatCmd.drain (c : MatCmd) : Drain :=
  let D := c.op 0
  let W := c.op 1
  let ncol := drainCols (bits W 21 20) c.prot
  let run := dSpace D == 2
  let rb := if run then drainRowRun (dFmt D) ncol else drainRowMem (dFmt D) ncol
  { mode := bits W 21 20, row := bits W 19 11, m := bits W 9 0, f := dFmt D, ncol := ncol, run := run, rb := rb
    step := if run then rb else bits W 51 28 }
/-- Its rows are planar MX data, with their scales in a lane. -/
def Drain.planar (d : Drain) : Bool := d.run && decide (0x0C ≤ d.f) && !isBpi d.f
/-- The probes of a drain: its parameters, then its output rows (R193). -/
def State.drainCheck (s : State) (n ep : Nat) (c : MatCmd) : Option EngErr :=
  let d := c.drain
  let D := c.op 0
  firstFault ((drainParts d.ncol c.flags).map (s.paramCheck n ep (c.op 2)) ++
    (List.range d.m).flatMap fun r =>
      s.dstProbe n c.prot D (r * d.step) d.rb (if 0x0C ≤ d.f then 4 else esizeOf d.f) ::
        (if d.planar then (runBanks D c.prot (r * d.step) d.rb).map fun b => s.engReg n b (dVs D) true else []))
/-- The descriptors of a pass. -/
def passA (c : MatCmd) (pass : Nat) : Word := if pass = 2 then c.op 1 else c.op 0
def passB (c : MatCmd) (pass : Nat) : Word := if pass = 2 then c.op 3 else c.op 2
/-- Issue cycles of an MSTR or of one step of the command: M rows; a step of pairing 6 issues them once for each slice pair (R202, Table 17.1). -/
def MatCmd.issueCycles (c : MatCmd) (pass : Nat) : Nat :=
  let sl := vtSLC c.vt + 3
  if c.isTile && dFmt (passB c pass) == 0x0B then c.rows * (sl * (sl + 1) / 2) else c.rows
/-- The activation rows that such a step takes from the row run `A` cross the spine, 96 bytes in an issue cycle (R17, R312). -/
def State.streamed (s : State) (i : Nat) (A : Word) (c : MatCmd) (pass : Nat) : State :=
  if dSpace A = 2 then s.beats (i / 4) c.task (beatsOf (96 * c.issueCycles pass)) else s
/-- The rows that a pass writes. -/
def tileDst (c : MatCmd) : Nat := if c.assay then accSrow (c.op 5) else accRow (c.op 5)
/-- The replay runs once per column group (R201). -/
def grouped (c : MatCmd) (pass : Nat) : Bool := pass == 2 && groupedReplay (c.op 0) (c.op 1) (c.op 2) (c.op 3)
/-- A pass loads lower halves and mirrors them. A grouped replay of a protected context does not: its second group is the mirrored copy
of the first (R180, R201). -/
def mirrored (c : MatCmd) (pass : Nat) : Bool := c.prot && !grouped c pass
/-- A tile as it starts its first pass. -/
def Tile.start (c : MatCmd) : Tile :=
  { pass := if c.assay then 1 else 0, grp := 0, kstep := 0, sat := 0, ufl := 0, can := 0, flags := 0, seq := c.flags, judged := none }
/-- The images of step `k` of a pass (R201). -/
def stepOffsets (c : MatCmd) (t : Tile) : List Nat :=
  let B := passB c t.pass
  let f := dFmt B
  let nb := kStep (dFmt (passA c t.pass)) / kBlock f
  let nkb := bits (c.op 4) 39 16 / kBlock f
  let hs := if grouped c t.pass then [if c.prot then 0 else t.grp] else List.range (imgGroups f c.prot)
  hs.flatMap fun h => (List.range nb).map fun b => (h * nkb + t.kstep * nb + b) * imgBytes f
/-- The units of step `k`: row m's offset in memory and in a run (R190). -/
def stepUnits (c : MatCmd) (t : Tile) : List (Nat × Nat) :=
  let fa := dFmt (passA c t.pass)
  let nk := stepsOf c t.pass
  (List.range c.rows).map fun m => ((m * nk + t.kstep) * unitMem fa, (m * nk + t.kstep) * unitRun fa)
/-- The images of the tile's step are in their plane already, loaded as the shadow of the step before (R201). -/
def Array_.preloaded (a : Array_) (k fb : Nat) (t : Tile) : Bool :=
  let p := a.plane (t.kstep % 2)
  decide (1 ≤ t.kstep) && fb != 0x0B && p.st == 2 && p.fmt == fb && p.claim == some k
/-- The probes of a tile's step (R193). -/
def State.stepCheck (s : State) (i k : Nat) (c : MatCmd) (t : Tile) (ep : Nat) : Option EngErr :=
  let B := passB c t.pass
  firstFault [if (s.array i).preloaded k (dFmt B) t then none else s.imageCheck c.leader ep c.prot B (stepOffsets c t),
              s.unitsCheck c.leader ep c.prot (passA c t.pass) (stepUnits c t)]
/-- The weight epoch that the next command or step of stream `k` reads: the leader's as the command starts (R188). -/
def State.cmdEpoch (s : State) (i k : Nat) (c : MatCmd) : Nat :=
  if ((s.array i).tile k).isSome || (s.array i).cur == some k then tget 0 (s.array i).eps k else (s.leader c.leader).wever
/-- What the probes of the next command or step of stream `k` find. -/
def State.cmdCheck (s : State) (i k : Nat) (c : MatCmd) : Option EngErr :=
  let n := c.leader
  let ep := s.cmdEpoch i k c
  match c.kind with
  | 0 => s.imageCheck n ep c.prot (c.op 0) (mldsOffsets (c.op 0) (c.op 1) c.prot)
  | 1 => s.unitsCheck n ep c.prot (c.op 0) (mstrUnits c)
  | 2 => none
  | 3 => s.drainCheck n ep c
  | 4 => firstFault ((List.range (bits (c.op 1) 17 9 + 1)).map fun j => s.srcCheck n ep c.prot (c.op 0) (768 * j) 768 4)
  | 5 => firstFault ((List.range (bits (c.op 1) 17 9 + 1)).map fun j => s.dstProbe n c.prot (c.op 0) (768 * j) 768 4)
  | _ => s.stepCheck i k c (((s.array i).tile k).getD (Tile.start c)) ep
/-- The lookups that those probes make (R250, R251). -/
def State.cmdWalk (s : State) (i k : Nat) (c : MatCmd) : State :=
  let n := c.leader
  match c.kind with
  | 0 => s.walkDesc n (c.op 0) ((mldsOffsets (c.op 0) (c.op 1) c.prot).map fun o => (o, imgBytes (dFmt (c.op 0))))
  | 1 => s.walkDesc n (c.op 0) ((mstrUnits c).map fun o => (o.1, unitMem (dFmt (c.op 0))))
  | 2 => s
  | 3 => let d := c.drain
         (if c.flags = 0 then s else s.walkDesc n (paramDesc (c.op 2)) (drainParts d.ncol c.flags)).walkDesc n (c.op 0)
           ((List.range d.m).map fun r => (r * d.step, d.rb))
  | 4 | 5 => s.walkDesc n (c.op 0) [(0, 768 * (bits (c.op 1) 17 9 + 1))]
  | _ => let t := ((s.array i).tile k).getD (Tile.start c)
         let B := passB c t.pass
         let A := passA c t.pass
         (s.walkDesc n B ((stepOffsets c t).map fun o => (o, imgBytes (dFmt B)))).walkDesc n A ((stepUnits c t).map fun o => (o.1, unitMem (dFmt A)))

/-! ### Switch points and plane loads -/

/-- Stream `k` is ready with its operands on hand, and its issuer lives and is not being stopped (R23, R205, R393). -/
def State.streamReady (s : State) (i k : Nat) : Bool :=
  (s.array i).ready k && match (s.array i).head k with
    | some c => s.live c.ctx c.inn && !s.stopped c && (match s.cmdCheck i k c with | some (.wait _) => false | _ => true)
    | none => false
/-- The staging pages that the next command or step of a stream still lacks are asked for (R319). -/
def State.askPages (s : State) (i k : Nat) : State :=
  match (s.array i).head k with
  | some c => if (s.array i).ready k && s.live c.ctx c.inn then
      (match s.cmdCheck i k c with | some (.wait ps) => s.wantPages c.task ps | _ => s) else s
  | none => s
/-- The stream that a switch point chooses among the ready ones: all streams of an array belong to one bind record, so their classes are
equal; an aged stream wins, the oldest first; else the fewest rows remaining, ties to the lower stream (R205). -/
def Array_.choose (a : Array_) (rs : List Nat) : Option Nat :=
  let best := fun (less : Nat → Nat → Bool) (ks : List Nat) => ks.foldl (fun acc k => match acc with
    | none => some k
    | some j => if less k j then some k else some j) (none : Option Nat)
  let age := fun k => tget 0 a.ages k
  match best (fun x y => decide (age y < age x)) (rs.filter fun k => decide (2048 ≤ age k)) with
  | some k => some k
  | none => best (fun x y => decide (a.remaining x < a.remaining y)) rs
/-- ARRAY_SWITCH_POINT: an idle array starts the chosen command or step; the others age (R205). -/
def State.switchPoint (s : State) (i : Nat) : State :=
  if (s.array i).cur.isSome then s else
  let rs := (List.range 4).filter fun k => s.streamReady i k
  let s := (List.range 4).foldl (fun s k => s.askPages i k) s
  let a := s.array i
  match a.choose rs with
  | none => s
  | some k => match a.head k with
    | none => s
    | some c =>
      let ages := (List.range 4).foldl (fun t j =>
        if j = k then tput 0 t j 0 else if rs.contains j then tput 0 t j (tget 0 t j + c.issueCycles (((s.array i).tile k).elim 0 fun t => t.pass)) else t) a.ages
      let r := s.cmdCheck i k c
      let a := { a with cur := some k, ages := ages, eps := tput 0 a.eps k (s.cmdEpoch i k c) }
      let s := s.cmdWalk i k c
      match c.kind with
      | 0 =>
        let p := c.flags % 2
        match r with
        | some (.fault e) => (s.setArray i a).matEnd i k (some e)
        | _ => s.setArray i (a.setPlane p { a.plane p with st := 1, claim := some k })
      | 1 =>
        let p := c.flags % 2
        s.setArray i (a.setPlane p { a.plane p with claim := some k })
      | _ => s.setArray i a
def execArraySwitchPoint (i : Nat) (s : State) : Outcome State Fault Refusal := onEvent (fun s => s.switchPoint i) s
/-- The stream and command that the array runs, while its issuer lives: a dead one's is discarded at its current step (R23, R223). -/
def State.curCmd (s : State) (i : Nat) : Option (Nat × MatCmd) :=
  match (s.array i).cur with
  | none => none
  | some k => match (s.array i).head k with
    | some c => if s.live c.ctx c.inn then some (k, c) else none
    | none => none

/-- Array `i` has finished the step or command that was under way: it runs none, or one that still waits for pages, or a tile whose pass has ended
(R393). -/
def State.arraySettled (s : State) (i : Nat) : Bool :=
  match s.curCmd i with
  | none => true
  | some (k, c) => (match s.cmdCheck i k c with | some (.wait _) => true | _ => false) ||
      (c.isTile && match (s.array i).tile k with | some t => decide (stepsOf c t.pass ≤ t.kstep) | none => false)

/-- PLANE_LOAD_DONE: the bytes have landed and the plane is VALID; a load that faults leaves it EMPTY and
unclaimed, the model's choice (R182, R196, log entry 99). -/
def State.loadDone (s : State) (i : Nat) : State :=
  match s.curCmd i with
  | none => s
  | some (k, c) =>
    if c.kind ≠ 0 then s else
    let a := s.array i
    let B := c.op 0
    let os := mldsOffsets B (c.op 1) c.prot
    let ep := tget 0 a.eps k
    let fail := fun (e : Cause) => (s.setArray i (a.setPlane (c.flags % 2) Plane.reset)).matEnd i k (some e)
    match s.cmdCheck i k c with
    | some (.wait ps) => s.wantPages c.task ps
    | some (.fault e) => fail e
    | none => match s.readImages c.leader ep c.prot B os with
      | .error e => fail e
      | .ok ms =>
        let s := s.useSrc c.leader ep B (os.map fun o => (o, imgBytes (dFmt B)))
        (s.setArray i (a.setPlane (c.flags % 2) (planeOf (dFmt B) k c.prot ms))).matEnd i k none
def execPlaneLoadDone (i : Nat) (s : State) : Outcome State Fault Refusal := onEvent (fun s => s.loadDone i) s

/-! ### The commands of one step -/

/-- A streamed unit was delivered poisoned over the spine: the command that reads it consumes it (R303, R313). -/
def Array_.unitLost (a : Array_) (A : Word) : Bool := a.unitUe && dSpace A == 2
/-- MSTR (R197). One that faults keeps its plane's claim, with or without .l: the model's choice (R193, log entry 103). -/
def State.runMstr (s : State) (i k : Nat) (c : MatCmd) : State :=
  let A := c.op 0
  let W := c.op 2
  let p := (s.array i).plane (c.flags % 2)
  let fa := dFmt A
  let ls := c.lines
  let ep := tget 0 (s.array i).eps k
  let ok := match pairing fa p.fmt with
    | some q => q.2.2 == accMode W
    | none => false
  let done := fun (s : State) (r : Option Cause) =>
    let a := s.array i
    let pl := a.plane (c.flags % 2)
    (s.setArray i (if c.flags / 2 % 2 = 1 then a.setPlane (c.flags % 2) { pl with claim := none } else a)).matEnd i k r
  match (if ok then s.cmdCheck i k c else some (.fault .illegal)) with
  | some (.wait ps) => s.wantPages c.task ps
  | some (.fault e) => s.matEnd i k (some e)
  | none =>
    let a := s.array i
    let lost := a.unitLost A
    let a := { a with ce := a.ce + p.fixed, ue := a.ue + p.bad, unitUe := a.unitUe && !lost }
    match s.readUnits c.leader ep c.prot A (mstrUnits c) with
    | .error e => ((s.setArray i a).spoilLines i ls).matEnd i k (some e)
    | .ok us =>
      let s := s.useSrc c.leader ep A ((mstrUnits c).map fun o => (o.1, unitMem fa))
      let a := if accZf W then ls.foldl (fun a x => a.zeroLines x.1 x.2) a else a
      let lost := lost || decide (0 < p.bad) || a.badLines ls
      let a := a.countLines ls
      if lost then ((s.setArray i a).spoilLines i ls).matEnd i k (some .ueConsumed)
      else
        let r := a.stream p fa p.fmt (accMode W) (accRow W) none 0 c.prot us
        let t := fun (a : Array_) => (((s.setArray i a).streamed i (c.op 0) c 0).arrayIssued i c.rows fa p.fmt c false).chargeFlags c.ctx c.inn c.task c.leader r.fl
        if r.ok then done (t r.arr) none else (t { r.arr with sdc := r.arr.sdc + 1 }).matEnd i k (some .sdc)

/-- MACLD and MACST move raw bits between lines and memory (R198). -/
def State.runMacld (s : State) (i k : Nat) (c : MatCmd) : State :=
  let a := s.array i
  let ep := tget 0 a.eps k
  let len := 768 * (bits (c.op 1) 17 9 + 1)
  match s.cmdCheck i k c with
  | some (.wait ps) => s.wantPages c.task ps
  | some (.fault e) => s.matEnd i k (some e)
  | none =>
    let r := s.srcRead c.leader ep c.prot (c.op 0) 0 len
    let s := (s.useSrc c.leader ep (c.op 0) [(0, len)]).charge 7 c.task (len / 768)
    match r with
    | .error e => (s.spoilLines i c.lines).matEnd i k (some e)
    | .ok bs => (s.setArray i (a.putLines (bits (c.op 1) 8 0) (unpackEls 32 bs))).matEnd i k none
/-- Unspecified bytes for rope `n`, where a command that consumed an uncorrectable word was to write (R8, R185). -/
def State.openBytes (s : State) (n key len : Nat) : List (BitVec 8) := (List.range len).map fun j => s.openByte n (key + j)
def State.runMacst (s : State) (i k : Nat) (c : MatCmd) : State :=
  let a := s.array i
  let n := bits (c.op 1) 17 9 + 1
  match s.cmdCheck i k c with
  | some (.wait _) => s
  | some (.fault e) => s.matEnd i k (some e)
  | none =>
    let lost := a.badLines c.lines
    let s := (s.setArray i (a.countLines c.lines)).charge 7 c.task n
    let bs := (List.range n).flatMap fun j => (a.line (bits (c.op 1) 8 0 + j)).units.flatMap fun u => leBytes 4 u
    let bs := if lost then s.openBytes c.leader (2 ^ 61) (768 * n) else bs
    (s.dstPut c.leader c.num c.prot (c.op 0) 0 bs).matEnd i k (if lost then some .ueConsumed else none)

/-- A drained row: the bytes written at its place, the scale bytes of planar MX data, its flags, and whether an integer saturated. -/
structure DrainRow where
  bytes  : List (BitVec 8)
  scales : List (BitVec 8) := []
  fl     : FFlags := 0
  sat    : Bool := false
/-- Bytes of packed elements of `w` bits. -/
def packBytes8 (w : Nat) (qs : List Nat) : List (BitVec 8) :=
  leBytes (w * qs.length / 8) (qs.foldr (fun v acc => v % 2 ^ w + 2 ^ w * acc) 0)
/-- One row of words through the drain (R199). -/
def drainRow (f frm fz : Nat) (run : Bool) (fns : List DrainFn) (ws : List DrainV) : DrainRow :=
  let vs := (List.zip fns ws).map fun e => drainFn e.1 e.2
  let fl := vs.foldl (fun a v => a ||| v.2) (0 : FFlags)
  if f < 0x0C then
    let qs := vs.map fun v => (drainConv f frm fz v.1, drainSat f v.1)
    { bytes := qs.flatMap fun q => leBytes (esizeOf f) q.1.1, fl := qs.foldl (fun a q => a ||| q.1.2) fl, sat := qs.any fun q => q.2 }
  else
    let vals := vs.map fun v => match v.1 with | .int z => fOfInt z | .fp b => fpIn fmtFP32 fz b
    let bl := (List.range (vals.length / 32)).map fun j => packBlock f frm fz ((vals.drop (32 * j)).take 32)
    let fl := bl.foldl (fun a b => a ||| b.2.2) fl
    let scs := bl.map fun b => BitVec.ofNat 8 b.1
    if isBpi f then
      let qs := bl.flatMap fun b => b.2.1
      { bytes := ((List.range 8).flatMap fun j => packBytes8 1 (qs.map fun q => q / 2 ^ (7 - j) % 2)) ++ scs, fl := fl }
    else if run then { bytes := packBytes8 (mxWidth f) (bl.flatMap fun b => b.2.1), scales := scs, fl := fl }
    else { bytes := bl.flatMap fun b => packBytes8 (mxWidth f) b.2.1 ++ [BitVec.ofNat 8 b.1, 0, 0, 0], fl := fl }
/-- The parameter block of a drain: per column its scale and bias, and the bounds; only the parts that the set bits need are read. -/
def State.drainParams (s : State) (n ep N fn : Nat) (va : Word) : Except Cause (List DrainFn) :=
  let rd := fun (on : Bool) (o len : Nat) =>
    if on then (match s.srcRead n ep false (paramDesc va) o len with
      | .ok bs => .ok (unpackEls 32 bs)
      | .error e => .error e) else Except.ok []
  match rd (fn % 2 == 1) 0 (4 * N), rd (fn / 2 % 2 == 1) (4 * N) (4 * N), rd (fn / 8 % 2 == 1) (8 * N) 8 with
  | .ok sc, .ok bi, .ok cl => .ok ((List.range N).map fun c =>
      { sc := sc[c]?, bi := bi[c]?, relu := fn / 4 % 2 == 1, clamp := match cl with | [lo, hi] => some (lo, hi) | _ => none })
  | .error e, _, _ => .error e
  | _, .error e, _ => .error e
  | _, _, .error e => .error e
/-- One output row goes to its place, its scales to theirs. -/
def State.putDrainRow (s : State) (c : MatCmd) (r : Nat) (bytes scales : List (BitVec 8)) : State :=
  let d := c.drain
  let D := c.op 0
  let w := mxWidth d.f
  scales.zipIdx.foldl (fun s x =>
    let p := scalePlace D c.prot w (r * d.step + 4 * w * x.2)
    s.regPut c.leader p.1 (dVs D) p.2 [x.1]) (s.dstPut c.leader c.num c.prot D (r * d.step) bytes)
/-- The scale lanes of a planar run of `len` bytes, past the last block of each register (R75). -/
def State.finishLanes (s : State) (n : Nat) (D : Word) (prot : Bool) (w len : Nat) : State :=
  (runBanks D prot 0 len).foldl (fun s i =>
    let last := min (len - 1) ((i + 1) * runRow prot - (dBank D * runRow prot + dOff D) - 1)
    let p := scalePlace D prot w last
    s.laneRest n p.1 (dVs D) (p.2 + 1)) s
/-- The halves of a drained row of a protected context differ (R180). -/
def Array_.halvesDiffer (a : Array_) (mode r : Nat) : Bool :=
  let us := a.rowUnits mode r
  us.take (us.length / 2) != us.drop (us.length / 2)
/-- MDRAIN (R199). -/
def State.runMdrain (s : State) (i k : Nat) (c : MatCmd) : State :=
  let a := s.array i
  let n := c.leader
  let d := c.drain
  match s.cmdCheck i k c with
  | some (.wait ps) => s.wantPages c.task ps
  | some (.fault e) => s.matEnd i k (some e)
  | none =>
    let ps := s.drainParams n (tget 0 a.eps k) d.ncol c.flags (c.op 2)
    let s := if c.flags = 0 then s else s.useSrc n (tget 0 a.eps k) (paramDesc (c.op 2)) (drainParts d.ncol c.flags)
    let s := (s.setArray i (a.countLines c.lines)).charge 7 c.task (c.lines.foldl (fun k e => k + e.2) 0)
    let fns := match ps with | .ok f => f | .error _ => []
    let lost := a.badLines c.lines || (match ps with | .ok _ => false | .error _ => true)
    if !lost && c.prot && (List.range d.m).any fun r => a.halvesDiffer d.mode (d.row + r) then
      (s.setArray i { s.array i with sdc := a.sdc + 1 }).matEnd i k (some .sdc)
    else
      let rows := (List.range d.m).map fun r =>
        let us := a.rowUnits d.mode (d.row + r)
        if d.mode = 3 then
          let qs := ((rowF us).take d.ncol).map fun F => splitDrain (sextN (bits (c.op 1) 63 52) 12) F
          ({ bytes := qs.flatMap fun q => leBytes 8 q.1, fl := qs.foldl (fun x q => x ||| q.2) 0 } : DrainRow)
        else drainRow d.f c.frm.toNat (vtFZ c.vt) d.run fns ((us.take d.ncol).map fun u =>
          if d.mode = 2 then DrainV.int (sextN u 32) else DrainV.fp u)
      let rows := if lost then (List.range d.m).map fun r =>
          ({ bytes := s.openBytes n (2 ^ 61 + 2 ^ 20 * r) d.rb
             scales := if d.planar then s.openBytes n (2 ^ 62 + 2 ^ 20 * r) (d.ncol / 32) else [] } : DrainRow) else rows
      let s := rows.zipIdx.foldl (fun s e => s.putDrainRow c e.2 e.1.bytes e.1.scales) s
      let s := if d.planar then s.finishLanes n (c.op 0) c.prot (mxWidth d.f) (d.m * d.rb) else s
      if lost then s.matEnd i k (some .ueConsumed)
      else ((s.chargeFlags c.ctx c.inn c.task n (rows.foldl (fun x r => x ||| r.fl) 0)).chargeSat c.ctx c.inn c.task n
              (rows.any fun r => r.sat)).matEnd i k none

/-- MATRIX_COMMAND_END: a command other than MLDS and MTILE takes effect and ends (R186). -/
def State.commandEnd (s : State) (i : Nat) : State :=
  match s.curCmd i with
  | none => s
  | some (k, c) => match c.kind with
    | 1 => s.runMstr i k c
    | 2 => (s.setArray i ((s.array i).zeroLines (bits (c.op 0) 8 0) (bits (c.op 0) 17 9 + 1))).matEnd i k none
    | 3 => s.runMdrain i k c
    | 4 => s.runMacld i k c
    | 5 => s.runMacst i k c
    | _ => s
def execMatrixCommandEnd (i : Nat) (s : State) : Outcome State Fault Refusal := onEvent (fun s => s.commandEnd i) s

/-! ### Tiles (R200 to R203, R210 to R224) -/

/-- Initialise the rows of a pass: zero with ZF, else in assay mode a copy of the accumulator rows, which it reads (R185, R201). -/
def Array_.initRows (a : Array_) (c : MatCmd) : Except Array_ Array_ :=
  let W := c.op 5
  let d := linesOf (accMode W) (tileDst c) c.rows
  if accZf W then .ok (a.zeroLines d.1 d.2)
  else if c.assay then a.copyLines (linesOf (accMode W) (accRow W) c.rows).1 d.1 d.2
  else .ok a
/-- The operand events of the units that a step of the narrow pass streams and of the images loaded in it: only the sides that step on the
ladder count (R210). -/
def unitEvents (c : MatCmd) (us : List Opnd) : Mon :=
  if c.op 0 = c.op 1 then {} else us.foldl (fun m u => m.add (u.events (dFmt (c.op 0)))) {}
def State.imageEvents (s : State) (n ep : Nat) (c : MatCmd) (os : List Nat) : Mon :=
  let fb := dFmt (c.op 2)
  let ncol := if c.prot && decide (imgGroups fb false = 1) then 96 else 192
  if c.op 2 = c.op 3 then {} else
    os.foldl (fun m o =>
      let img := s.peekImage n ep c.prot (c.op 2) o
      (List.range ncol).foldl (fun m x => m.add ((imageColumn fb x img).events fb)) m) {}
/-- A step of pairing 6: one K block, all its slice passes, up to a row whose halves differ in a protected context (R180, R202). -/
def Array_.splitStep (a : Array_) (c : MatCmd) (img : Mem) (us : List Opnd) : Streamed :=
  let sl := vtSLC c.vt + 3
  let low := (List.range (if c.prot then 96 else 192)).map fun x => (imageColumn 0x0B x img).vals 0x0B
  let cols := if c.prot then low ++ low else low
  us.zipIdx.foldl (fun (r : Streamed) u =>
    if !r.ok then r else
    let row := tileDst c + u.2
    let as := u.1.vals 0x0B
    let rs := (List.zip cols (rowF (r.arr.rowUnits 3 row))).map fun e => splitUpdate sl (accG (c.op 5)) e.2 as e.1
    let ws := rs.map fun x => x.1
    if c.prot && ws.take 96 != ws.drop 96 then { r with ok := false }
    else { r with arr := r.arr.putLines (linesOf 3 row 1).1 (ws.flatMap fun x => fUnits x)
                  fl := (if c.prot then rs.take 96 else rs).foldl (fun f x => f ||| x.2) r.fl }) { arr := a }
/-- Slice `j` of an FP64 block as a plane of one byte each, mirrored in a protected context (R180, R202). -/
def slicePlane (s j k : Nat) (prot : Bool) (img : Mem) : Plane :=
  let data := (List.range 192).flatMap fun c =>
    let vs := (imageColumn 0x0B (if prot then c % 96 else c) img).vals 0x0B
    let ds := vs.map fun v => match maxExp64 vs with | some E => (sliceDigits s E v).getD j 0 | none => 0
    toMem (96 * c) (ds.map fun d => BitVec.ofInt 8 d)
  { st := 2, fmt := 0x0B, claim := some k, data := data, ecc := [] }
/-- After a step: the next step of the pass, the next group of a grouped replay, or the end of the pass. -/
def State.afterStep (s : State) (i k : Nat) (c : MatCmd) (t : Tile) : State :=
  let a := s.array i
  if t.kstep + 1 < stepsOf c t.pass then s.setArray i { a.setTile k (some { t with kstep := t.kstep + 1 }) with cur := none }
  else if t.pass = 0 then ((s.setArray i (a.setTile k (some t))).chargeFlags c.ctx c.inn c.task c.leader t.flags).matEnd i k none
  else if grouped c t.pass && decide (t.grp = 0) then
    s.setArray i { a.setTile k (some { t with kstep := 0, grp := t.grp + 1 }) with cur := none }
  else s.setArray i (a.setTile k (some { t with kstep := t.kstep + 1 }))
/-- A tile ends in a fault: its rows stand as after its last complete step, staging rows are unspecified (R193). -/
def State.tileFail (s : State) (i k : Nat) (c : MatCmd) (e : Cause) : State :=
  let W := c.op 5
  (if c.assay then s.spoilLines i [linesOf (accMode W) (accSrow W) c.rows] else s).matEnd i k (some e)
/-- The tile of stream `k` as its next step finds it: a new tile initialises its rows, and a narrow pass zeroes the array's counts (R201,
R210). -/
def Array_.tileInit (a : Array_) (k : Nat) (c : MatCmd) : Except Array_ Array_ :=
  if (a.tile k).isSome then .ok a
  else (if c.assay then { a with sat := 0, ufl := 0, can := 0 } else a).initRows c
/-- The other plane as the shadow load of the next step leaves it: claimed, and loaded if its image is on hand (R201). -/
def State.shadowLoad (s : State) (i k : Nat) (c : MatCmd) (t : Tile) (ep : Nat) : Plane × List Nat :=
  let B := passB c t.pass
  let os := stepOffsets c t
  match s.imageCheck c.leader ep c.prot B os, s.readImages c.leader ep c.prot B os with
  | none, .ok ms => (planeOf (dFmt B) k (mirrored c t.pass) ms, os)
  | _, _ => ({ (if (s.array i).preloaded k (dFmt B) t then (s.array i).plane (t.kstep % 2) else Plane.reset) with claim := some k, st := 0 }, [])
/-- The second group of a protected context's grouped replay has ended, and its lines differ from the first group's (R180, R201). -/
def Array_.groupsDiffer (a : Array_) (c : MatCmd) (t : Tile) : Bool :=
  grouped c t.pass && c.prot && t.grp == 1 && t.kstep + 1 == stepsOf c t.pass &&
    (List.range c.rows).any fun r => a.halvesDiffer 1 (tileDst c + r)
/-- The step of a tile whose operands have been read: its stream, and the shadow load of the step after it. Step k uses plane k mod 2, plane 0 first in each
pass and group: the model's choice (R201, log entry 100). -/
def State.tileRun (s : State) (i k : Nat) (c : MatCmd) (t : Tile) (ms : List Mem) (us : List Opnd) : State :=
  let a := s.array i
  let n := c.leader
  let ep := tget 0 a.eps k
  let A := passA c t.pass
  let B := passB c t.pass
  let fa := dFmt A
  let fb := dFmt B
  let W := c.op 5
  let pre := a.preloaded k fb t
  let s := (s.useSrc n ep B (if pre then [] else (stepOffsets c t).map fun o => (o, imgBytes fb))).useSrc n ep A
    ((stepUnits c t).map fun o => (o.1, unitMem fa))
  let dst := if grouped c t.pass then (List.range c.rows).map fun r => ((linesOf (accMode W) (tileDst c + r) 1).1 + t.grp, 1)
             else [linesOf (accMode W) (tileDst c) c.rows]
  let p := if pre then a.plane (t.kstep % 2) else planeOf fb k (mirrored c t.pass) ms
  let lost := a.badLines dst || a.unitLost A || decide (0 < p.bad)
  let a := { a.countLines dst with unitUe := a.unitUe && !a.unitLost A }
  let a := { a with ce := a.ce + p.fixed, ue := a.ue + p.bad }
  if lost then (s.setArray i a).tileFail i k c .ueConsumed
  else if fb = 0x0B then
    let r := a.splitStep c (ms.getD 0 []) us
    let sl := vtSLC c.vt + 3
    let pl := fun j => slicePlane sl j k c.prot (ms.getD 0 [])
    if !r.ok then (s.setArray i { a with sdc := a.sdc + 1 }).tileFail i k c .sdc
    else ((s.setArray i ((r.arr.setPlane ((sl - 1) % 2) (pl (sl - 1))).setPlane (sl % 2) (pl (sl - 2)))).streamed i A c t.pass).arrayIssued i (c.issueCycles t.pass) fa fb c false |>.afterStep
           i k c { t with flags := t.flags ||| r.fl }
  else
    let a := a.setPlane (t.kstep % 2) p
    let shift := if t.pass = 1 then c.shift else 0
    let r := a.stream p fa fb (accMode W) (tileDst c) (if grouped c t.pass then some t.grp else none) shift (mirrored c t.pass) us
    if !r.ok || r.arr.groupsDiffer c t then (s.setArray i { a with sdc := a.sdc + 1 }).tileFail i k c .sdc
    else
      let nx := { t with kstep := t.kstep + 1 }
      let more := decide (nx.kstep < stepsOf c t.pass)
      let sh := s.shadowLoad i k c nx ep
      let s := if more then s.useSrc n ep B (sh.2.map fun o => (o, imgBytes fb)) else s
      let ev := if t.pass = 1 then ((unitEvents c us).add r.mon).add
          (s.imageEvents n ep c ((if pre then [] else stepOffsets c t) ++ if more then sh.2 else [])) else {}
      let m := Mon.add { sat := t.sat, ufl := t.ufl, can := t.can } ev
      let a := if more then r.arr.setPlane (nx.kstep % 2) sh.1 else r.arr
      let a := if t.pass = 1 then { a with sat := m.sat, ufl := m.ufl, can := m.can } else a
      (((s.setArray i a).streamed i A c t.pass).arrayIssued i c.rows fa fb c (t.pass == 2)).afterStep i k c
        { t with flags := t.flags ||| r.fl, sat := m.sat, ufl := m.ufl, can := m.can }
/-- MTILE_STEP: one step of the tile that the array has started (R201, R202). -/
def State.tileStep (s : State) (i : Nat) : State :=
  match s.curCmd i with
  | none => s
  | some (k, c) =>
    let a := s.array i
    let t := (a.tile k).getD (Tile.start c)
    if !c.isTile || decide (stepsOf c t.pass ≤ t.kstep) then s else
    let ep := tget 0 a.eps k
    let B := passB c t.pass
    match s.stepCheck i k c t ep, a.tileInit k c with
    | some (.wait ps), _ => s.wantPages c.task ps
    | _, .error a => (s.setArray i a).tileFail i k c .ueConsumed
    | some (.fault e), .ok a => (s.setArray i a).tileFail i k c e
    | none, .ok b =>
      match (if a.preloaded k (dFmt B) t then .ok [] else s.readImages c.leader ep c.prot B (stepOffsets c t)),
            s.readUnits c.leader ep c.prot (passA c t.pass) (stepUnits c t) with
      | .error e, _ => (s.setArray i b).tileFail i k c e
      | .ok _, .error e => (s.setArray i b).tileFail i k c e
      | .ok ms, .ok us => (s.setArray i b).tileRun i k c t ms us
def execMtileStep (i : Nat) (s : State) : Outcome State Fault Refusal := onEvent (fun s => s.tileStep i) s

/-- The causes of a narrow pass's counts against the captured thresholds: bit 0 SAT, bit 1 UFL, bit 2 CAN (R214). -/
def causesOf (t : Tile) (abr : Word) : Nat :=
  (if bits abr 47 32 < t.sat then 1 else 0) + (if bits abr 31 16 < t.ufl then 2 else 0) + (if bits abr 15 0 < t.can then 4 else 0)
/-- The replay registers after a verdict (R220). -/
def Ctx.verdict (x : Ctx) (cs : Nat) : Ctx :=
  let inc := fun (w : Word) (b : Bool) => if b then w + 1 else w
  { x with rplT := x.rplT + 1, rplS := inc x.rplS (cs != 0), rplSat := inc x.rplSat (cs % 2 == 1),
           rplUfl := inc x.rplUfl (cs / 2 % 2 == 1), rplCan := inc x.rplCan (cs / 4 == 1) }
/-- DW3 and DW4 of a verdict's entry: ORD and INST, array and sequence number (Table 19.5). -/
def State.verdictKey (s : State) (c : MatCmd) (t : Tile) : Word × Word :=
  match (s.leader c.leader).bind with
  | some b => (BitVec.ofNat 64 (b.ord % 256 * 2 ^ 24 + b.inst % 2 ^ 24), BitVec.ofNat 64 (c.arr * 2 ^ 62 + t.seq % 2 ^ 32))
  | none => (0, BitVec.ofNat 64 (c.arr * 2 ^ 62 + t.seq % 2 ^ 32))
/-- The scrivener records a verdict of a task launched with REC (R224). -/
def State.recordVerdict (s : State) (c : MatCmd) (t : Tile) (cs : Nat) (granted : Bool) : State :=
  if bit ((s.task c.task).dw 0) 54 then
    let k := s.verdictKey c t
    s.record 3 c.ctx c.inn c.task [k.1, k.2, BitVec.ofNat 64 (t.sat * 2 ^ 32 + t.ufl * 2 ^ 16 + t.can),
                                   BitVec.ofNat 64 (cs + if granted then 8 else 0)]
  else s
/-- The recorded verdict that a re-run tile takes: causes and grant (R224, R426). -/
def State.recorded (s : State) (c : MatCmd) (t : Tile) : Option (Nat × Bool) :=
  match (s.task c.task).replayOf with
  | none => none
  | some (x, tk) =>
    let k := s.verdictKey c t
    s.ring.entries.findSome? fun e => match e.2 with
      | some r => if r.type = 3 ∧ r.ctx = x ∧ r.task = tk ∧ r.body.getD 0 0 = k.1 ∧ r.body.getD 1 0 = k.2 then
                    some (bits (r.body.getD 3 0) 2 0, bit (r.body.getD 3 0) 3) else none
      | none => none
/-- The replay pass begins: the narrow pass's flags are dropped, the staging rows initialised again (R201, R215, R221). -/
def State.startReplay (s : State) (i k : Nat) (c : MatCmd) (t : Tile) (j : Nat × Option Bool) : State :=
  match (s.array i).initRows c with
  | .error a => (s.setArray i a).tileFail i k c .ueConsumed
  | .ok a => s.setArray i { a.setTile k (some { t with pass := 2, grp := 0, kstep := 0, flags := 0, judged := some j }) with cur := none }
/-- The tile whose narrow pass has ended. -/
def State.narrowDone (s : State) (i : Nat) : Option (Nat × MatCmd × Tile) :=
  match s.curCmd i with
  | none => none
  | some (k, c) => match (s.array i).tile k with
    | some t => if t.pass = 1 ∧ stepsOf c 1 ≤ t.kstep ∧ !s.stopped c then some (k, c, t) else none
    | none => none
/-- A refused tile commits its narrow pass. -/
def State.refuse (s : State) (i k cs : Nat) (t : Tile) : State :=
  s.setArray i ((s.array i).setTile k (some { t with judged := some (cs, some false) }))
/-- VERDICT: the narrow pass has made its last write (R214, R215). -/
def State.verdict (s : State) (i : Nat) : State :=
  match s.narrowDone i with
  | none => s
  | some (k, c, t) =>
    if t.judged.isSome then s else
    let rec_ := s.recorded c t
    let cs := match rec_ with | some r => r.1 | none => causesOf t c.abr
    let s := s.setCtx c.ctx ((s.ctx c.ctx).verdict cs)
    if cs = 0 then (s.setArray i ((s.array i).setTile k (some { t with judged := some (0, none) }))).recordVerdict c t 0 false
    else if bit ((s.task c.task).dw 0) 52 then (s.startReplay i k c t (cs, none)).recordVerdict c t cs false
    else match rec_ with
      | some r => if r.2 then (s.startReplay i k c t (cs, some true)).recordVerdict c t cs true
                  else (s.refuse i k cs t).recordVerdict c t cs false
      | none => s.setArray i ((s.array i).setTile k (some { t with judged := some (cs, none) }))
def execVerdict (i : Nat) (s : State) : Outcome State Fault Refusal := onEvent (fun s => s.verdict i) s
/-- A request for an allowance unit is under way: the array issues nothing for the tile, nor is it suspended (R216, R222). -/
def Tile.requests (t : Tile) : Bool := t.pass == 1 && match t.judged with | some (cs, none) => cs != 0 | _ => false
/-- ALLOWANCE_GRANT: the request of an exceeding TIMING-FIRST verdict is granted or refused (R216, R217). -/
def State.allowance (s : State) (i : Nat) : State :=
  match s.narrowDone i with
  | none => s
  | some (k, c, t) =>
    if !t.requests then s else
    let cs := (t.judged.map fun j => j.1).getD 0
    let tk := s.task c.task
    if 0 < tk.allow then
      ((s.setTask c.task { tk with allow := tk.allow - 1 }).startReplay i k c t (cs, some true)).recordVerdict c t cs true
    else (s.refuse i k cs t).recordVerdict c t cs false
def execAllowanceGrant (i : Nat) (s : State) : Outcome State Fault Refusal := onEvent (fun s => s.allowance i) s
/-- TILE_COMMIT: rows AROW take rows SROW, the committed pass's flags are charged, RPL.X is set where an exceeding tile commits narrow, the
tile ends (R185, R201, R215, R220, R221). -/
def State.tileCommit (s : State) (i : Nat) : State :=
  match s.curCmd i with
  | none => s
  | some (k, c) => match (s.array i).tile k with
    | none => s
    | some t =>
      let refused := t.pass == 1 && match t.judged with | some (_, some false) => true | _ => false
      let stands := t.pass == 1 && match t.judged with | some (0, _) => true | _ => false
      let replayed := t.pass == 2 && decide (stepsOf c 2 ≤ t.kstep)
      if !s.stopped c && (refused || stands || replayed) then
        let W := c.op 5
        match (s.array i).copyLines (linesOf (accMode W) (accSrow W) c.rows).1 (linesOf (accMode W) (accRow W) c.rows).1
            (linesOf (accMode W) (accRow W) c.rows).2 with
        | .error a => (s.setArray i a).tileFail i k c .ueConsumed
        | .ok a =>
          let s := if refused then s.setCtx c.ctx { s.ctx c.ctx with rplX := true } else s
          ((s.setArray i a).chargeFlags c.ctx c.inn c.task c.leader t.flags).matEnd i k none
      else s
def execTileCommit (i : Nat) (s : State) : Outcome State Fault Refusal := onEvent (fun s => s.tileCommit i) s

end Sys2Proof.Machine
end

