-- ==== Sys2Proof/Machine/Copy.lean ====
section
/-! DEFINITION. The copy queue and its engine: COPY, COPYM, CANCEL and WAIT at the leader, the engine's start, boundaries and end, and the
hand-over of a follow-on (R204, R332 to R347). -/
namespace Sys2Proof.Machine

open Host (Outcome)

/-! ### Issue checks (R337, R338, Table 15.4) -/

/-- L0, N1 and N2 of the length word. -/
def cpL0 (L : Word) : Nat := bits L 23 0
def cpN1 (L : Word) : Nat := bits L 43 24
def cpN2 (L : Word) : Nat := bits L 63 44
/-- The two signed strides of a stride word. -/
def strideLo (S : Word) : Int := sextN (bits S 31 0) 32
def strideHi (S : Word) : Int := sextN (bits S 63 32) 32
/-- Bytes of one written run: L0, with the padding of XF 2. -/
def runLen (xf : Nat) (L P : Word) : Nat := if xf = 2 then bits P 15 0 + cpL0 L + bits P 31 16 else cpL0 L
/-- The offsets that a box reaches at its corners. -/
def corners (S : Word) (n1 n2 : Nat) : List Int :=
  [0, strideLo S * n1, strideHi S * n2, strideLo S * n1 + strideHi S * n2]
/-- A run of rows holds every byte of a box (R189, R338). -/
def boxFits (D : Word) (gb : Nat) (prot : Bool) (S : Word) (n1 n2 len : Nat) : Bool :=
  dSpace D != 2 || (corners S n1 n2).all fun o =>
    decide (0 ≤ o ∧ (dBank D * runRow prot + dOff D : Nat) + o + (len : Int) ≤ ((gb * runRow prot : Nat) : Int))
def isMxFmt (f : Nat) : Bool := decide (0x0C ≤ f) && decide (f ≤ 0x11)
/-- Bytes of an MX segment: the elements and the scale word (Table 3.8). -/
def segBytes (f : Nat) : Nat := 4 * mxWidth f + 4
/-- A destination descriptor's own rules: no W-space, no token records (R337). -/
def dstWordOk (D : Word) (gb : Nat) (prot : Bool) (len : Nat) : Bool :=
  dSpace D != 3 && !(dSpace D == 1 && decide (0x7FF00 ≤ dAddr D)) && descWordOk D gb prot len
/-- Fields of a de-interleave, elements of a record, and its index register (Table 15.4). -/
def deNf (P : Word) : Nat := bits P 2 0 + 1
def deCount (A L P : Word) : Nat := cpL0 L / (deNf P * esizeOf (dFmt A))
/-- The rules on the six registers of a copy: the offending register's value. -/
def copyBad (gb : Nat) (prot : Bool) (xf : Nat) (A D L S T P : Word) : Option Word :=
  let l0 := cpL0 L
  let flat := cpN1 L == 0 && cpN2 L == 0
  let memSrc := dSpace A != 2
  match xf with
  | 0 | 1 | 2 => firstBad
      [(dFmt A == 0 && descWordOk A gb prot 0, A), (dFmt D == 0 && dstWordOk D gb prot 0, D), (l0 != 0, L),
       (boxFits A gb prot S (cpN1 L) (cpN2 L) l0, A),
       (boxFits D gb prot T (cpN1 L) (if xf = 1 then 2 * cpN2 L + 1 else cpN2 L) (runLen xf L P), D),
       (if xf = 0 then P == 0 else xf == 2 || (dFmt P == 0 && descWordOk P gb prot 0 && boxFits P gb prot S (cpN1 L) (cpN2 L) l0), P)]
  | 3 => firstBad
      [(isMxFmt (dFmt A) && memSrc && descWordOk A gb prot 0, A), (l0 != 0 && flat && decide (l0 % segBytes (dFmt A) = 0), L),
       (dSpace D == 2 && dFmt D == dFmt A && descWordOk D gb prot (4 * mxWidth (dFmt A) * (l0 / segBytes (dFmt A))), D), (P == 0, P)]
  | 4 => firstBad
      [(isMxFmt (dFmt A) && dSpace A == 2, A), (l0 != 0 && flat && decide (l0 % segBytes (dFmt A) = 0), L),
       (descWordOk A gb prot (4 * mxWidth (dFmt A) * (l0 / segBytes (dFmt A))), A),
       (decide (dSpace D < 2) && dFmt D == dFmt A && dstWordOk D gb prot 0, D), (P == 0, P)]
  | 5 =>
    let n := 32 * (l0 / 36)
    let stride := if prot then 768 else 1536
    firstBad
      [(dFmt A == 0x11 && memSrc && descWordOk A gb prot 0, A),
       (l0 != 0 && flat && decide (l0 % 36 = 0 ∧ l0 / 36 % 8 = 0) && (dSpace D != 2 || decide (n ≤ 8 * stride)), L),
       (isBpi (dFmt D) && dstWordOk D gb prot (7 * stride + n / 8), D), (P == 0, P)]
  | _ =>
    let nf := deNf P
    let sz := esizeOf (dFmt A)
    let vk := dVk D
    let px := bits P 6 4
    firstBad
      [(decide (dFmt A < 0x0C) && memSrc && descWordOk A gb prot 0, A),
       (decide (2 ≤ nf ∧ bits P 63 7 = 0) && !(bit P 3 && decide (vk ≤ px ∧ px < vk + nf)), P),
       (l0 != 0 && flat && decide (l0 % (nf * sz) = 0 ∧ deCount A L P * sz ≤ runRow prot), L),
       (dSpace D == 2 && dOff D == 0 && descWordOk D gb prot 0 && decide (vk + nf ≤ 8), D)]

/-- The values of `k` registers from `a`. -/
def State.xrs (s : State) (n a k : Nat) : List Word := (groupRegs a k).map fun r => s.xr n r
/-- Place a copy-queue entry: its token QUEUED, the registers captured. -/
def State.enqueueCopy (s : State) (n kind tok xf : Nat) (ops : List Word) (follow : Option MatCmd) : State :=
  let s := s.tokenIssue n tok kind
  let l := s.leader n
  let c : CopyCmd := { kind := kind, tok := tok, xf := xf, ops := ops, follow := follow, vt := l.csr.vt, frm := l.csr.frm, task := l.taskOf, num := l.cmdNum + 1 }
  (s.setLeader n { l with copyq := l.copyq ++ [c], cmdNum := l.cmdNum + 1 }).retire n 4
/-- The issue of a copy-queue entry: the checks, the wait for the token and for room, the entry (R338). -/
def State.copyIssue (s : State) (n kind tok xf : Nat) (ops : List Word) (follow : Option MatCmd) (bad : Option Word) : State :=
  match bad with
  | some v => s.trap n .illegal v 0
  | none => if !((s.leader n).tok tok).free ∨ 32 ≤ (s.leader n).copyq.length then s.stall n 7
            else s.enqueueCopy n kind tok xf ops follow
def copyOpsBad (gb : Nat) (prot : Bool) (xf : Nat) (o : List Word) : Option Word :=
  copyBad gb prot xf (o.getD 0 0) (o.getD 1 0) (o.getD 2 0) (o.getD 3 0) (o.getD 4 0) (o.getD 5 0)
def execCopy (t : BitVec 3) (a : BitVec 5) (x : BitVec 4) (s : State) : Outcome State Fault Refusal :=
  onLeaderP (encCopy t a x) (groupRegs a.toNat 6) (fun n s => s.ownTrap n (groupRegs a.toNat 6)
      (copyOpsBad s.grantedBanks (s.leader n).prot x.toNat (s.xrs n a.toNat 6))) (fun n s =>
    let o := s.xrs n a.toNat 6
    s.copyIssue n 0 t.toNat x.toNat o none (copyOpsBad s.grantedBanks (s.leader n).prot x.toNat o)) s
/-- The follow-on that a COPYM carries, captured as a stream-0 command is (R204, R336). -/
def State.followOn (s : State) (n tok arr kind plane rel : Nat) (ops : List Word) : MatCmd :=
  let l := s.leader n
  let k := if kind = 0 then 1 else if plane = 1 then 7 else 6
  l.capture n k arr ops (if kind = 0 then plane + 2 * rel else if plane = 1 then tget 0 l.tileSeq arr + 1 else 0) (some tok)
/-- The registers of a COPYM, those of the copy first, and the value of the first that fails its checks (R336 to R338). -/
def copymRegs (a b : BitVec 5) (k : BitVec 1) : List Nat := groupRegs a.toNat 6 ++ groupRegs b.toNat (if k = 0 then 3 else 6)
def State.copymBad (s : State) (n : Nat) (a b : BitVec 5) (k p : BitVec 1) (x : BitVec 4) : Option Word :=
  let f := s.xrs n b.toNat (if k = 0 then 3 else 6)
  let prot := (s.leader n).prot
  let gb := s.grantedBanks
  (copyOpsBad gb prot x.toNat (s.xrs n a.toNat 6)).orElse fun _ =>
    if k = 0 then mstrBad gb prot (f.getD 0 0) (f.getD 1 0) (f.getD 2 0) else tileBad gb prot (p == 1) f
def execCopym (t : BitVec 3) (a b : BitVec 5) (m : BitVec 2) (k p r : BitVec 1) (x : BitVec 4) (s : State) : Outcome State Fault Refusal :=
  onLeaderP (encCopym t a b m k p r x) (copymRegs a b k) (fun n s => s.ownTrap n (copymRegs a b k) (s.copymBad n a b k p x)) (fun n s =>
    let o := s.xrs n a.toNat 6
    let f := s.xrs n b.toNat (if k = 0 then 3 else 6)
    let c := s.followOn n t.toNat m.toNat k.toNat p.toNat r.toNat f
    let s1 := s.copyIssue n 1 t.toNat x.toNat o (some c) (s.copymBad n a b k p x)
    if k = 1 ∧ p = 1 ∧ (s1.leader n).cmdNum ≠ (s.leader n).cmdNum then s1.nextTile n m.toNat else s1) s

/-! ### What a copy moves (R339 to R341) -/

/-- Source bytes of a run: descriptor and offset, or a register of a bank; and the I0 of the first. -/
inductive CSrc where
  | mem (D : Word) (o len i0 : Nat)
  | reg (i k at_ len i0 : Nat)
  deriving DecidableEq, Repr
/-- A stretch of a run's destination: an offset of the destination descriptor, or bytes of a register; its length and first I0. -/
inductive CDst where
  | mem (o len i0 : Nat)
  | reg (i k at_ len i0 : Nat)
  deriving DecidableEq, Repr
def CDst.len : CDst → Nat
  | .mem _ n _ => n
  | .reg _ _ _ n _ => n
/-- One run in box order: its outer indices, sources, destinations, and the bytes formed from the source bytes. -/
structure CRun where
  i1   : Nat
  i2   : Nat
  srcs : List CSrc
  dsts : List CDst
  out  : List (BitVec 8) → List (BitVec 8) × FFlags
def CRun.len (r : CRun) : Nat := r.dsts.foldl (fun n d => n + d.len) 0
/-- Bytes that the engine writes in one piece: up to a 128-byte boundary, and with XF 4 whole segments too (R277, R347). -/
def CopyCmd.piece (c : CopyCmd) : Nat := if c.xf = 4 then Nat.lcm 128 (segBytes (dFmt (c.ops.getD 0 0))) else 128
/-- The scale bytes that end each register's lane of a conversion to planar form: bank index, register and the byte after (R75). -/
def CopyCmd.laneEnds (c : CopyCmd) (prot : Bool) : List (Nat × Nat × Nat) :=
  let D := c.ops.getD 1 0
  let L := c.ops.getD 2 0
  match c.xf with
  | 3 =>
    let w := mxWidth (dFmt D)
    let len := 4 * w * (cpL0 L / (4 * w + 4))
    (runBanks D prot 0 len).map fun i =>
      let p := scalePlace D prot w (min (len - 1) ((i + 1) * runRow prot - (dBank D * runRow prot + dOff D) - 1))
      (p.1, dVs D, p.2 + 1)
  | _ => []

/-- The runs of one box of XF 0 to 2. -/
def boxRuns (xf : Nat) (A L S T P : Word) (base2 : Nat) : List CRun :=
  let pl := if xf = 2 then bits P 15 0 else 0
  let n := runLen xf L P
  (List.range (cpN2 L + 1)).flatMap fun (i2 : Nat) => (List.range (cpN1 L + 1)).map fun (i1 : Nat) =>
    let so := wrapZ ((i1 : Int) * strideLo S + (i2 : Int) * strideHi S) 64
    let d := wrapZ ((i1 : Int) * strideLo T + ((base2 + i2 : Nat) : Int) * strideHi T) 64
    { i1 := i1, i2 := base2 + i2, srcs := [.mem A so (cpL0 L) pl], dsts := [.mem d n 0]
      out := fun bs => (if xf = 2 then
          (List.range n).map fun k => if pl ≤ k ∧ k < pl + bs.length then bs.getD (k - pl) 0
                                      else BitVec.ofNat 8 (bits P 63 32 / 2 ^ (8 * (k % 4)))
        else bs, 0) }
/-- The segments of MX source bytes: elements, scale byte, and whether its upper bytes are nonzero. -/
def segsOf (w : Nat) (bs : List (BitVec 8)) : List (List (BitVec 8) × BitVec 8 × Bool) :=
  (List.range (bs.length / (4 * w + 4))).map fun j =>
    let sg := (bs.drop (j * (4 * w + 4))).take (4 * w + 4)
    let bad := decide (leNat (sg.drop (4 * w)) ≥ 256)
    (sg.take (4 * w), if bad then 0xFF else sg.getD (4 * w) 0, bad)
def segNv (x : List (List (BitVec 8) × BitVec 8 × Bool)) : FFlags := if x.any fun e => e.2.2 then flNV else 0
/-- XF 3: interleaved to planar. -/
def mx2pRun (prot : Bool) (A D L : Word) : CRun :=
  let w := mxWidth (dFmt A)
  { i1 := 0, i2 := 0, srcs := [.mem A 0 (cpL0 L) 0]
    dsts := (List.range (cpL0 L / (4 * w + 4))).flatMap fun j =>
      let p := scalePlace D prot w (4 * w * j)
      [.mem (4 * w * j) (4 * w) ((4 * w + 4) * j), .reg p.1 (dVs D) p.2 1 ((4 * w + 4) * j + 4 * w)]
    out := fun bs => let x := segsOf w bs
                     (x.flatMap fun e => e.1 ++ [e.2.1], segNv x) }
/-- XF 4: planar to interleaved. -/
def p2mxRun (prot : Bool) (A L : Word) : CRun :=
  let w := mxWidth (dFmt A)
  { i1 := 0, i2 := 0
    srcs := (List.range (cpL0 L / (4 * w + 4))).flatMap fun j =>
      let p := scalePlace A prot w (4 * w * j)
      [.mem A (4 * w * j) (4 * w) ((4 * w + 4) * j), .reg p.1 (dVs A) p.2 1 ((4 * w + 4) * j + 4 * w)]
    dsts := [.mem 0 (cpL0 L) 0]
    out := fun bs => ((List.range (bs.length / (4 * w + 1))).flatMap fun j =>
      (bs.drop (j * (4 * w + 1))).take (4 * w + 1) ++ [0, 0, 0], 0) }
/-- XF 5: MXINT8 segments to bit planes. -/
def bpisRun (prot : Bool) (A D L : Word) : CRun :=
  let n := 32 * (cpL0 L / 36)
  let stride := if prot then 768 else 1536
  { i1 := 0, i2 := 0, srcs := [.mem A 0 (cpL0 L) 0]
    dsts := if dSpace D = 2 then
        ((List.range 8).map fun j => .mem (stride * j) (n / 8) (n / 8 * j)) ++ [.reg (dBank D) (dVs D) (768 * dLane D) (n / 32) n]
      else [.mem 0 (n + n / 32) 0]
    out := fun bs =>
      let x := segsOf 8 bs
      let qs := x.flatMap fun e => e.1.map fun b => b.toNat
      (((List.range 8).flatMap fun j => packBytes8 1 (qs.map fun q => q / 2 ^ (7 - j) % 2)) ++ x.map fun e => e.2.1, segNv x) }
/-- XF 6: records to row registers. -/
def deintRun (A D L P : Word) : CRun :=
  let sz := esizeOf (dFmt A)
  let nf := deNf P
  let r := deCount A L P
  let perm := bit P 3
  { i1 := 0, i2 := 0
    srcs := (if perm then [.reg (dBank D) (bits P 6 4) 0 (2 * r) 0] else []) ++ [.mem A 0 (cpL0 L) 0]
    dsts := (List.range nf).map fun f => .reg (dBank D) (dVk D + f) 0 (r * sz) (r * sz * f)
    out := fun bs =>
      let idx := fun (j : Nat) => if perm then leNat ((bs.drop (2 * j)).take 2) else j
      let rec_ := bs.drop (if perm then 2 * r else 0)
      ((List.range nf).flatMap fun f => (List.range r).flatMap fun j =>
        if idx j < r then (rec_.drop ((idx j * nf + f) * sz)).take sz else List.replicate sz 0, 0) }
/-- The runs of a copy in box order. -/
def CopyCmd.runs (c : CopyCmd) (prot : Bool) : List CRun :=
  let op := fun (k : Nat) => c.ops.getD k 0
  match c.xf with
  | 0 | 2 => boxRuns c.xf (op 0) (op 2) (op 3) (op 4) (op 5) 0
  | 1 => boxRuns 1 (op 0) (op 2) (op 3) (op 4) 0 0 ++ boxRuns 1 (op 5) (op 2) (op 3) (op 4) 0 (cpN2 (op 2) + 1)
  | 3 => [mx2pRun prot (op 0) (op 1) (op 2)]
  | 4 => [p2mxRun prot (op 0) (op 2)]
  | 5 => [bpisRun prot (op 0) (op 1) (op 2)]
  | _ => [deintRun (op 0) (op 1) (op 2) (op 5)]
def CopyCmd.total (c : CopyCmd) (prot : Bool) : Nat := (c.runs prot).foldl (fun n r => n + r.len) 0
/-- The bytes charged against the task's copy-byte budget (R343). -/
def CopyCmd.charge (c : CopyCmd) : Nat :=
  let L := c.ops.getD 2 0
  let box := runLen c.xf L (c.ops.getD 5 0) * (cpN1 L + 1) * (cpN2 L + 1)
  if c.xf = 1 then 2 * box else box

/-! ### Probes (R342) -/

/-- A failing address: cause, IDX and AUX. -/
structure CFault where
  i0    : Nat
  cause : Cause
  aux   : Word
/-- Cut a stretch of `len` bytes of a descriptor's space at the boundaries within which a probe has one answer. -/
def descParts (D : Word) (o len : Nat) : List (Nat × Nat) :=
  let base := (if dSpace D = 2 then dOff D + o else (dAddr D + o) % 2 ^ 64)
  (lineParts base len).map fun p => (o + (p.1 - base), p.2)
/-- What AUX holds of a descriptor's byte: its virtual address, scratch through its window, zero for rows; the spec names none for a
W-space address. -/
def State.auxOf (s : State) (D : Word) (o : Nat) : Word :=
  match dSpace D with
  | 0 => BitVec.ofNat 64 (dAddr D + o)
  | 1 => BitVec.ofNat 64 (scratchBase + dAddr D + o)
  | 2 => 0
  | _ => s.openAt 64 (2 ^ 60)
/-- The first failure of a source stretch, or a wait. -/
def State.csrcProbe (s : State) (n : Nat) (prot : Bool) (x : CSrc) : Except (List (Nat × Nat)) (Option CFault) :=
  match x with
  | .mem D o len i0 => (descParts D o len).foldl (fun acc p => match acc with
      | .ok none => match s.srcProbe n prot D p.1 p.2 1 with
        | none => .ok none
        | some (.wait ps) => .error ps
        | some (.fault c) => .ok (some { i0 := i0 + (p.1 - o), cause := c, aux := s.auxOf D p.1 })
      | r => r) (.ok none)
  | .reg i k _ _ i0 => match s.engReg n i k false with
    | none => .ok none
    | some (.wait ps) => .error ps
    | some (.fault c) => .ok (some { i0 := i0, cause := c, aux := 0 })
/-- The first failure of a destination stretch. -/
def State.cdstProbe (s : State) (n : Nat) (prot : Bool) (D : Word) (x : CDst) : Except (List (Nat × Nat)) (Option CFault) :=
  match x with
  | .mem o len i0 => (descParts D o len).foldl (fun acc p => match acc with
      | .ok none => match s.dstProbe n prot D p.1 p.2 1 with
        | none => .ok none
        | some (.wait ps) => .error ps
        | some (.fault c) => .ok (some { i0 := i0 + (p.1 - o), cause := c, aux := s.auxOf D p.1 })
      | r => r) (.ok none)
  | .reg i k _ _ i0 => match s.engReg n i k true with
    | none => .ok none
    | some (.wait ps) => .error ps
    | some (.fault c) => .ok (some { i0 := i0, cause := c, aux := 0 })
/-- The failure lowest in box order within one run: by I0, a source before a destination. -/
def State.runProbeAll (s : State) (n : Nat) (prot : Bool) (D : Word) (r : CRun) : Except (List (Nat × Nat)) (Option CFault) :=
  let all := r.srcs.map (s.csrcProbe n prot) ++ r.dsts.map (s.cdstProbe n prot D)
  all.foldl (fun acc x => match acc, x with
    | .error e, _ => .error e
    | _, .error e => .error e
    | .ok none, .ok y => .ok y
    | .ok (some f), .ok (some g) => .ok (some (if g.i0 < f.i0 then g else f))
    | .ok (some f), .ok none => .ok (some f)) (.ok none)
/-- IDX of an element (R342). -/
def idxWord (i0 i1 i2 : Nat) : Word := BitVec.ofNat 64 (i0 % 2 ^ 24 + i1 % 2 ^ 20 * 2 ^ 24 + i2 % 2 ^ 20 * 2 ^ 44)
/-- The first failure of a whole copy: cause, IDX, AUX. -/
def State.copyProbe (s : State) (n : Nat) (prot : Bool) (D : Word) : List CRun → Except (List (Nat × Nat)) (Option (Cause × Word × Word))
  | [] => .ok none
  | r :: rs => match s.runProbeAll n prot D r with
    | .error e => .error e
    | .ok (some f) => .ok (some (f.cause, idxWord f.i0 r.i1 r.i2, f.aux))
    | .ok none => s.copyProbe n prot D rs

/-- The lookups that a run's probes make (R250, R251). -/
def State.crunWalk (s : State) (n : Nat) (D : Word) (r : CRun) : State :=
  let s := r.srcs.foldl (fun s x => match x with | .mem A o len _ => s.walkDesc n A [(o, len)] | .reg .. => s) s
  r.dsts.foldl (fun s x => match x with | .mem o len _ => s.walkDesc n D [(o, len)] | .reg .. => s) s
/-- The PRIVATE regions of banks that a run's source lies in: their engagement after this probe does not stop the read (R280). -/
def State.crunRegions (s : State) (n : Nat) (r : CRun) : List Nat :=
  r.srcs.flatMap fun x => match x with
    | .mem A o len _ => if dSpace A = 0 then (lineParts ((dAddr A + o) % 2 ^ 64) len).filterMap fun p =>
        (s.lookup n p.1).bind fun e => if e.cls = 0 ∧ e.okind = 0 then some e.idx else none
      else []
    | .reg .. => []
/-- The state as the reads of a running copy see it: the regions that its start probed count as not engaged (R280). -/
def State.probedBefore (s : State) (n : Nat) (rgns : List Nat) : State :=
  let c := (s.leader n).ctxOf
  let x := s.ctx c
  if rgns.any fun i => x.engaged.any fun e => e.1 == i then
    s.setCtx c { x with engaged := x.engaged.filter fun e => !rgns.contains e.1 } else s

/-! ### Reading a run -/

/-- A source byte with its poison, the I0 of the first byte of its word, and that byte's AUX. -/
def State.csrcBytes (s : State) (n ep : Nat) (prot : Bool) (x : CSrc) : List ((BitVec 8 × Bool) × Nat × Word) :=
  match x with
  | .mem D o len i0 =>
    (s.srcBytes n ep prot D o len).zipIdx.map fun e =>
      let at_ := if dSpace D = 2 then dOff D + o + e.2 else dAddr D + o + e.2
      (e.1, i0 + e.2 - at_ % 8, s.auxOf D (o + e.2 - at_ % 8))
  | .reg i k at_ len i0 =>
    let sl := s.slot (bankOf n i) k
    (List.range len).map fun j => ((rowGetByte sl.latch (at_ + j), sl.poison.getLsbD ((at_ + j) / 8)), i0 + j - (at_ + j) % 8, 0)
/-- The staging pages that a run's sources lie in. -/
def State.crunPages (s : State) (n ep : Nat) (r : CRun) : List (Nat × Nat) :=
  r.srcs.flatMap fun x => match x with
    | .mem D o len _ => s.srcPages n ep D o len
    | .reg .. => []
/-- The run's sources have been read: their staging pages and cache lines. -/
def State.crunUse (s : State) (n ep : Nat) (r : CRun) : State :=
  r.srcs.foldl (fun s x => match x with | .mem D o len _ => s.useSrc n ep D [(o, len)] | .reg .. => s) s

/-! ### Writing -/

/-- Bytes `[lo, hi)` of a run's output go to their places. -/
def State.cdstPut (s : State) (n num : Nat) (prot : Bool) (D : Word) (x : CDst) (from_ : Nat) (bs : List (BitVec 8)) : State :=
  if bs.isEmpty then s else
  match x with
  | .mem o _ _ => s.dstPut n num prot D (o + from_) bs
  | .reg i k at_ _ _ => s.regPut n i k (at_ + from_) bs
def State.crunPut (s : State) (n num : Nat) (prot : Bool) (D : Word) (lo : Nat) (bs : List (BitVec 8)) : Nat → List CDst → State
  | _, [] => s
  | at_, d :: ds =>
    let a := max lo at_
    let b := min (lo + bs.length) (at_ + d.len)
    (s.cdstPut n num prot D d (a - at_) (if a < b then (bs.drop (a - lo)).take (b - a) else [])).crunPut n num prot D lo bs (at_ + d.len) ds
/-- Whether an end of a run lies in row registers, whose state a probe at the run's turn must find again (log entry 24). -/
def CSrc.inRow : CSrc → Bool
  | .mem D .. => dSpace D == 2
  | .reg .. => true
def CDst.inRow (D : Word) : CDst → Bool
  | .mem .. => dSpace D == 2
  | .reg .. => true
/-- The registers of a run alone. -/
def CRun.rowEnds (r : CRun) (D : Word) : CRun := { r with srcs := r.srcs.filter CSrc.inRow, dsts := r.dsts.filter (CDst.inRow D) }
/-- The runs up to the end of the box that holds byte `prog`: XF 1 has two (R339). -/
def CopyCmd.boxUpTo (c : CopyCmd) (prot : Bool) (prog : Nat) : List CRun :=
  let rs := c.runs prot
  let one := rs.take ((cpN1 (c.ops.getD 2 0) + 1) * (cpN2 (c.ops.getD 2 0) + 1))
  if c.xf = 1 ∧ prog < one.foldl (fun n r => n + r.len) 0 then one else rs
/-- Unspecified values from byte `prog` of the box to its end (R343). -/
def State.copySpoil (s : State) (n num : Nat) (prot : Bool) (D : Word) (prog : Nat) : Nat → List CRun → State
  | _, [] => s
  | at_, r :: rs =>
    let lo := prog - at_
    let s := if lo < r.len then
        s.crunPut n num prot D lo (s.openBytes n (2 ^ 63 + at_ + lo) (r.len - lo)) 0 r.dsts else s
    s.copySpoil n num prot D prog (at_ + r.len) rs
/-- The run that holds byte `prog`, and where it starts. -/
def runAtProg (prog : Nat) : Nat → List CRun → Option (CRun × Nat)
  | _, [] => none
  | at_, r :: rs => if prog < at_ + r.len then some (r, at_) else runAtProg prog (at_ + r.len) rs

/-! ### The engine (R342 to R344) -/

/-- A budget's limit is passed: zero is no limit in a best-effort record and a limit of zero in one with a deadline (R348). -/
def Task.over (t : Task) (lim used : Nat) : Bool := if lim = 0 ∧ t.dw 3 = 0 then false else decide (lim < used)
def Task.bcb (t : Task) : Nat := (t.dw 18).toNat
def Task.bsm (t : Task) : Nat := bits (t.dw 19) 31 0
/-- The bound rope's descriptor of a running copy. -/
def CopyCmd.prot (c : CopyCmd) : Bool := vtPROT c.vt
/-- A copy ends in FAULT: its shadows are dropped, the engine is free (R343). -/
def State.copyFault (s : State) (n : Nat) (c : CopyCmd) (code cause : Nat) (idx aux : Word) : State :=
  let s := s.engineEnd n c.num false
  let s := s.setLeader n { s.leader n with copyRun := none }
  s.tokenEnd n c.tok .fault code cause idx aux
/-- COPY_START: the head of the copy queue starts, when the engine is free. A STAGE or CONSIGN passes to the hub. A copy is charged, and
its every address probed, before it runs; a charge past the budget leaves it unstarted. -/
def State.copyStart (s : State) (n : Nat) : State :=
  let l := s.leader n
  if !s.copyLive n ∨ s.yielding n ∨ s.stopping n then s else
  match l.copyRun, l.copyq with
  | none, c :: q =>
    let running := fun (s : State) => let l := s.leader n
                                      s.setLeader n (l.setTok c.tok { l.tok c.tok with st := .running })
    let popped := fun (s : State) => s.setLeader n { s.leader n with copyq := q }
    if c.kind = 2 then
      let s := running (popped s)
      { s with weights := { s.weights with stages := s.weights.stages ++ [(n, c)] } }
    else if c.kind = 3 then
      let s := running (popped s)
      { s with weights := { s.weights with consigns := s.weights.consigns ++ [(n, c)] } }
    else
      let t := s.task l.taskOf
      if t.over t.bcb t.copyBytes then s
      else if t.over t.bcb (t.copyBytes + c.charge) then s.setTask l.taskOf { t with copyBytes := t.copyBytes + c.charge }
      else match s.copyProbe n c.prot (c.ops.getD 1 0) (c.runs c.prot) with
        | .error _ => s
        | .ok r =>
          let rgns := ((c.runs c.prot).flatMap fun x => s.crunRegions n x).eraseDups
          let s := (c.runs c.prot).foldl (fun s x => s.crunWalk n (c.ops.getD 1 0) x) s
          let s := if t.rcd = [] then s else s.setTask l.taskOf { t with copyBytes := t.copyBytes + c.charge }
          let s := running (popped s)
          let s := s.setLeader n { s.leader n with
            copyRun := some { cmd := c, started := true, prog := 0, stop := false, ep := l.wever, rgns := rgns, buf := [] } }
          match r with
          | some f => s.copyFault n c 8 f.1.code f.2.1 f.2.2
          | none => s
  | _, _ => s
def execCopyStart (n : Nat) (s : State) : Outcome State Fault Refusal := onEvent (fun s => s.copyStart n) s
/-- The next bytes of a running copy, up to its next boundary and inside one run; the last ones complete the scale lanes. -/
def State.copyBytesStep (s : State) (n : Nat) (r : CopyRun) (run : CRun) (at_ : Nat) (buf : List (BitVec 8)) : State :=
  let prot := r.cmd.prot
  let D := r.cmd.ops.getD 1 0
  let lo := r.prog - at_
  let g := r.cmd.piece
  let k := min (g - r.prog % g) (run.len - lo)
  let s := s.crunPut n r.cmd.num prot D lo ((buf.drop lo).take k) 0 run.dsts
  let s := if r.prog + k = r.cmd.total prot then (r.cmd.laneEnds prot).foldl (fun s e => s.laneRest n e.1 e.2.1 e.2.2) s else s
  let l := s.leader n
  let l := l.setTok r.cmd.tok { l.tok r.cmd.tok with prog := r.prog + k }
  s.setLeader n { l with copyRun := some { r with prog := r.prog + k, buf := if lo + k = run.len then [] else buf } }
/-- A stop request takes effect at a boundary that leaves bytes unwritten (R344). -/
def State.copyStopped (s : State) (n : Nat) : State :=
  match (s.leader n).copyRun with
  | some r =>
    let rs := r.cmd.boxUpTo r.cmd.prot r.prog
    if r.stop ∧ r.prog < r.cmd.total r.cmd.prot ∧ r.prog % 128 = 0 then
      (s.copySpoil n r.cmd.num r.cmd.prot (r.cmd.ops.getD 1 0) r.prog 0 rs).copyFault n r.cmd 6 0 0 0
    else s
  | none => s
/-- COPY_BOUNDARY: a running copy advances toward its next 128-byte boundary, where a pre-emption or the stop of its task stops it. A run's source is
read as the run begins, its registers checked again; a poisoned word ends the command (R339, R343, R347, R393). -/
def State.copyBoundary (s : State) (n : Nat) : State :=
  match (s.leader n).copyRun with
  | none => s
  | some r =>
    if !s.copyLive n ∨ ((s.yielding n ∨ s.stopping n) ∧ r.prog % 128 = 0) then s else
    let c := r.cmd
    let prot := c.prot
    let D := c.ops.getD 1 0
    match runAtProg r.prog 0 (c.runs prot) with
    | none => s
    | some (run, at_) =>
      if r.prog = at_ ∧ r.buf = [] then
        let v := s.probedBefore n r.rgns
        let gone := (v.crunPages n r.ep run).filter fun p => !s.staged p.1 p.2
        if gone ≠ [] then s.wantPages (s.leader n).taskOf gone else
        match v.runProbeAll n prot D (run.rowEnds D) with
        | .error _ => s
        | .ok (some f) => (s.copySpoil n c.num prot D r.prog 0 (c.boxUpTo prot r.prog)).copyFault n c 8 f.cause.code (idxWord f.i0 run.i1 run.i2) f.aux
        | .ok none =>
          let src := run.srcs.flatMap fun x => v.csrcBytes n r.ep prot x
          match src.find? fun e => e.1.2 with
          | some e => (s.copySpoil n c.num prot D r.prog 0 (c.boxUpTo prot r.prog)).copyFault n c 8 Cause.ueConsumed.code (idxWord e.2.1 run.i1 run.i2) e.2.2
          | none =>
            let o := run.out (src.map fun e => e.1.1)
            let l := s.leader n
            (((s.crunUse n r.ep run).chargeFlags l.ctxOf l.innOf l.taskOf n o.2).copyBytesStep n r run at_ o.1).copyStopped n
      else (s.copyBytesStep n r run at_ r.buf).copyStopped n
def execCopyBoundary (n : Nat) (s : State) : Outcome State Fault Refusal := onEvent (fun s => s.copyBoundary n) s
/-- COPY_DONE: the last byte is written. The token of a COPY ends; a COPYM waits for its follow-on (R204, R276, R343). -/
def State.copyDone (s : State) (n : Nat) : State :=
  match (s.leader n).copyRun with
  | none => s
  | some r =>
    if r.prog < r.cmd.total r.cmd.prot ∨ !s.copyLive n then s
    else if r.cmd.follow.isSome then
      let l := s.leader n
      s.setLeader n { l with copyRun := none, follow := l.follow ++ [r.cmd] }
    else
      let s := s.engineEnd n r.cmd.num true
      let s := s.setLeader n { s.leader n with copyRun := none }
      s.tokenEnd n r.cmd.tok .done 0 0 0 0
def execCopyDone (n : Nat) (s : State) : Outcome State Fault Refusal := onEvent (fun s => s.copyDone n) s

/-- A stream of the array carries this command. -/
def Array_.carries (a : Array_) (num : Nat) : Bool := [a.stream1, a.stream2, a.stream3].any fun c => c.any fun d => d.num == num
/-- The follow-on has been handed to its array. -/
def State.handedOver (s : State) (n : Nat) (c : CopyCmd) : Bool :=
  match c.follow with
  | some f => (s.array (4 * n + f.arr)).carries f.num
  | none => false
/-- One of the array's streams for follow-ons is free. -/
def Array_.freeStream (a : Array_) : Bool := a.stream1.isNone || a.stream2.isNone || a.stream3.isNone
/-- FOLLOW_ON_HANDOVER: the oldest waiting follow-on whose array has a free stream goes to it (R204). -/
def State.followHandover (s : State) (n : Nat) : State :=
  if !s.copyLive n then s else
  match (s.leader n).follow.findSome? fun c => if s.handedOver n c then none else
      c.follow.bind fun f => if (s.array (4 * n + f.arr)).freeStream && !s.stopped f then some f else none with
  | none => s
  | some f =>
    let i := 4 * n + f.arr
    let a := s.array i
    s.setArray i (if a.stream1.isNone then { a with stream1 := some f }
      else if a.stream2.isNone then { a with stream2 := some f } else { a with stream3 := some f })
def execFollowOnHandover (n : Nat) (s : State) : Outcome State Fault Refusal := onEvent (fun s => s.followHandover n) s

/-! ### CANCEL and WAIT (R344, R345) -/

/-- Change a token record of a thread, bound or saved; one that reaches DONE or FAULT is an event for WFE (R234, R405). -/
def State.tokAt (s : State) (task n t : Nat) (f : Token → Token) : State :=
  let l := s.thread task n
  let k := f (l.tok t)
  let ended := decide (k ≠ l.tok t) && (k.st == .done || k.st == .fault)
  let u := s.setThread task n { l.setTok t k with wfeEv := l.wfeEv || ended }
  if (s.savedFrame task n).isSome then u.frameDws task n (0x10000 + 0x7FF00 + 32 * t) ((List.range 4).map k.dw) else u
/-- A token ends with a completion code (Tables 14.2, 15.2). -/
def Token.ended (t : Token) (code : Nat) : Token := { t with st := if code = 0 then .done else .fault, code := code }
/-- A consignment that has not published ends with a code; its shadows are no longer held, and the outcome is recorded with the extent
concerned, number `i` of it (R328, R329). -/
def State.consignDrop (s : State) (id code : Nat) (i : Nat := 0) : State :=
  match s.weights.queue.find? fun c => c.id == id && !c.ended with
  | none => s
  | some c =>
    let s := { s with weights := { s.weights with queue := s.weights.queue.filter fun x => x.id != id } }
    let s := s.record 9 c.ctx c.inn c.task [BitVec.ofNat 64 code, BitVec.ofNat 64 (c.ext0 + i), BitVec.ofNat 64 (c.n - i)]
    if s.live c.ctx c.inn then s.tokAt c.task c.leader c.tok fun t => t.ended code else s
/-- A COPYM whose follow-on waits for a stream is stopped; one handed to an array is not (R204, R344). -/
def State.cancelFollow (s : State) (n t : Nat) : State :=
  match (s.leader n).follow.find? fun c => c.tok == t && !s.handedOver n c with
  | none => s
  | some c =>
    let s := s.engineEnd n c.num false
    let l := s.leader n
    let s := s.setLeader n { l with follow := l.follow.filter fun d => d.num != c.num }
    s.tokenEnd n t .fault 6 0 0 0
/-- CANCEL (Table 15.2, R329, R344). -/
def State.cancel (s : State) (n t : Nat) : State :=
  let l := s.leader n
  let tk := l.tok t
  match tk.st with
  | .idle => s
  | .done | .fault => s.setLeader n (l.setTok t { tk with st := .idle })
  | .queued =>
    let s := s.setLeader n { l with copyq := l.copyq.filter fun c => c.tok != t }
    let mine := fun (r : LaunchReq) => r.leader == some (n, t) && r.task == l.taskOf
    let s := { s with hub := { s.hub with arriving := s.hub.arriving.filter fun r => !mine r, launches := s.hub.launches.filter fun r => !mine r } }
    s.tokenEnd n t .fault 6 0 0 0
  | .running | .suspended =>
    match tk.kind with
    | 0 | 1 =>
      match l.copyRun with
      | some r =>
        if r.cmd.tok = t then s.setLeader n { l with copyRun := some { r with stop := true } }
        else s.cancelFollow n t
      | none => s.cancelFollow n t
    | 2 =>
      if s.weights.stages.any fun x => x.1 == n && x.2.tok == t && x.2.task == l.taskOf then
        let s := { s with weights := { s.weights with stages := s.weights.stages.filter fun x => !(x.1 == n && x.2.tok == t && x.2.task == l.taskOf) } }
        s.tokenEnd n t .fault 6 0 0 0
      else s
    | 3 =>
      if s.weights.consigns.any fun x => x.1 == n && x.2.tok == t && x.2.task == l.taskOf then
        let s := { s with weights := { s.weights with consigns := s.weights.consigns.filter fun x => !(x.1 == n && x.2.tok == t && x.2.task == l.taskOf) } }
        s.tokenEnd n t .fault 6 0 0 0
      else match s.weights.queue.find? fun c => c.leader == n && c.task == l.taskOf && c.tok == t && !c.ended with
        | some c => s.consignDrop c.id 6
        | none => s
    | _ => s
def execCancel (t : BitVec 3) (s : State) : Outcome State Fault Refusal :=
  onLeaderW (encCancel t) [] (fun n s => (s.cancel n t.toNat).retire n 4) s

/-- Row-queue entries outstanding (R333). -/
def Leader.rowsOut (l : Leader) : Nat := (l.rowq.filter fun e => !(e.todo == 0 && e.open_ == 0)).length
/-- Matrix operations outstanding: those of the matrix queue, and those that the copy queue's commands carry (R204, R220, R345). -/
def Leader.matsOut (l : Leader) : Nat :=
  l.matq.length + l.matRun.length + l.follow.length + (l.copyq.filter fun c => c.follow.isSome).length +
    (if l.copyRun.any fun r => r.cmd.follow.isSome then 1 else 0)
/-- The conditions of a WAIT hold. -/
def State.waitOk (s : State) (n : Nat) (t : BitVec 8) (ld st rq mq : Nat) : Bool :=
  let l := s.leader n
  let lim := fun (k v : Nat) => k == 15 || decide (v ≤ k)
  ((List.range 8).all fun i => !t.getLsbD i || (l.tok i).free)
    && lim ld (s.outstanding n ReqOp.isLoad) && lim st (s.outstanding n ReqOp.isStore)
    && lim rq l.rowsOut && lim mq l.matsOut
/-- The leader sees the bytes of the commands that the WAIT included (R276, R345). -/
def State.seeWaited (s : State) (n : Nat) (t : BitVec 8) (mq : Nat) : State :=
  let l := s.leader n
  let nums := ((List.range 8).filter fun i => t.getLsbD i).map fun i => (l.tok i).num
  { s with pend := s.pend.map fun (p : PStore) =>
      if p.agent == leaderAgent n && p.task == l.taskOf && p.kind == .shadow && p.done &&
         (if p.isCopy then nums.contains p.cmd else decide (mq = 0)) then { p with seen := true } else p }
def execWait (t : BitVec 8) (l st r m : BitVec 4) (s : State) : Outcome State Fault Refusal :=
  onLeaderW (encWait t l st r m) [] (fun n s =>
    if s.waitOk n t l.toNat st.toNat r.toNat m.toNat then (s.seeWaited n t m.toNat).retire n 4 else s.stall n 2) s

end Sys2Proof.Machine
end

