-- ==== Sys2Proof/Machine/Weights.lean ====
section
/-! DEFINITION. The flash weight store: STAGE and CONSIGN at the leader, staging fills, consignments, publication, erasure and the daily
purse (R316 to R331). -/
namespace Sys2Proof.Machine

open Host (Outcome)

/-! ### STAGE and CONSIGN at the leader (R322, R323) -/

def stageBad (W : Word) : Option Word :=
  if bits W 62 36 = 0 ∧ 1 ≤ bits W 35 0 ∧ bits W 35 0 ≤ 2 ^ 32 then none else some W
def execStage (t : BitVec 3) (a b : BitVec 5) (s : State) : Outcome State Fault Refusal :=
  onLeaderP (encStage t a b) [a.toNat, b.toNat] (fun n s => s.ownTrap n [a.toNat, b.toNat] (stageBad (s.xr n b.toNat))) (fun n s =>
    let W := s.xr n b.toNat
    s.copyIssue n 2 t.toNat 0 [s.xr n a.toNat, W] none (stageBad W)) s
def consignBad (src k : Word) : Option Word :=
  if ¬(1 ≤ k.toNat ∧ k.toNat ≤ 64) then some k else if src.toNat % 128 ≠ 0 then some src else none
/-- A G-level encoding: at U it traps PRIV before any operand is read (R55). -/
def execConsign (t : BitVec 3) (a : BitVec 5) (s : State) : Outcome State Fault Refusal :=
  match s.cur with
  | .leader n =>
    if (s.leader n).level.toNat < 1 then .next (s.trap n .priv (wordsVal (encConsign t a)) 0)
    else onLeaderP (encConsign t a) (groupRegs a.toNat 3)
      (fun n s => s.ownTrap n (groupRegs a.toNat 3) (consignBad (s.xr n a.toNat) (s.xr n (a.toNat + 2)))) (fun n s =>
      let src := s.xr n a.toNat
      let k := s.xr n (a.toNat + 2)
      s.copyIssue n 3 t.toNat 0 [src, s.xr n (a.toNat + 1), k] none (consignBad src k)) s
  | .bank g => .next (s.bankTrap g .illegal (wordsVal (encConsign t a)) 0)

/-! ### Staging frames (R317, R319 to R321) -/

/-- Page frames of each stack's staging cache (R317). -/
def State.frameCount (s : State) : Nat := s.hub.staging * 2 ^ 30 / 24576
/-- The weight epochs that readers still use: bound threads and their banks, saved ones, tasks not yet started, running copies and array
commands, saved ones among them (R188, R275). -/
def State.readerEpochs (s : State) : List Nat :=
  let arr := fun (a : Array_) => a.eps.filterMap fun (p : Nat × Nat) => if (a.head p.1).isSome then some p.2 else none
  let run := fun (l : Leader) => l.copyRun.toList.map fun r => r.ep
  (s.leaders.flatMap fun e => (if e.2.bind.isSome then [e.2.wever] else []) ++ run e.2) ++
  (s.banks.filterMap fun e => if (s.leader (ropeOf e.1)).bind.isSome then some e.2.wever else none) ++
  (s.frames.flatMap fun e => match e.2 with
    | some f => if f.v then [f.leader.wever] ++ run f.leader ++ (f.banks.map fun b => b.2.wever) ++ (f.arrays.flatMap fun a => arr a.2) else []
    | none => []) ++
  (s.tasks.filterMap fun e => if e.2.rcd ≠ [] ∧ e.2.ended = false ∧ (e.2.started = false ∨ e.2.threads.length < e.2.frames.length)
                              then some e.2.epoch else none) ++
  (s.arrays.flatMap fun e => arr e.2)
/-- Some reader still uses what the extent held before its publication at epoch `since`. -/
def State.prevInUse (s : State) (e : Extent) : Bool := s.readerEpochs.any fun ep => decide (ep < e.since)
/-- The physical extent is a version that some reader may still use: current, or previous and in use. -/
def State.versionHeld (s : State) (ph : Nat) : Bool :=
  s.weights.exts.any fun e => e.2.cur == some ph || (e.2.prev == some ph && s.prevInUse e.2)
/-- Room for one more frame in a stack: a frame of a version no reader uses goes first, then the least recently used without pins. -/
def State.makeRoom (s : State) (st : Nat) : List SFrame :=
  let fs := s.weights.frames
  if (fs.filter fun f => stackOfPhys f.phys == st).length < s.frameCount then fs
  else
    let cand := fs.reverse.filter fun f => stackOfPhys f.phys == st && f.pins.isEmpty
    match (cand.find? fun f => !s.versionHeld f.phys).orElse fun _ => cand.head? with
    | some v => fs.erase v
    | none => fs
/-- The task still has work that may want a page: it runs, or a consignment of it is at the hub (R325). A page wanted only by others is not filled. -/
def State.taskLive (s : State) (t : Nat) : Bool :=
  (s.task t).rcd == [] || !(s.task t).ended || s.weights.queue.any fun c => c.task == t && !c.ended
/-- The lowest frame number of a stack that holds no page. -/
def freePlace (fs : List SFrame) (st : Nat) : Nat :=
  let used := (fs.filter fun f => stackOfPhys f.phys == st).map fun f => f.place
  ((List.range (used.length + 1)).find? fun p => !used.contains p).getD 0
/-- Bytes of a page: the last holds 16 KiB of data. -/
def pageBytes (k : Nat) : Nat := if k = 2730 then 16384 else 24576
/-- What flash holds in a page: the extent's data, and at the end of the last page its check record, whose bytes the spec leaves open. -/
def State.flashPage (s : State) (ph page : Nat) : List (BitVec 8) :=
  ((List.range (pageBytes page)).map fun j => memByte s.weights.bytes (ph * 2 ^ 26 + page * 24576 + j)) ++
    (List.range (24576 - pageBytes page)).map fun j => s.openAt 8 (2 ^ 66 + ph * 2 ^ 13 + j)
/-- The rows of a frame take a page; the words of one that is uncorrectable are all poisoned (R319). -/
def State.fillRows (s : State) (at_ : Nat) (bs : List (BitVec 8)) (ok : Bool) : State :=
  let s := s.writeRows at_ bs
  if ok then s else (s.markPoison (at_ / 8) (BitVec.allOnes 1536)).markPoison (at_ / 8 + 1536) (BitVec.allOnes 1536)
/-- Reads of W-space by other parts that waited for a page are answered once theirs are staged (R243, R319). -/
def State.serveAsks (s : State) : State :=
  s.hub.asks.foldl (fun s e =>
    let (agent, ctx, inn, va, len) := e
    let keep := { s with hub := { s.hub with asks := s.hub.asks ++ [e] } }
    let ep := s.weights.epoch
    match (s.walk ctx va).map fun r => s.probeRegion ctx (.leader hubRope) r va len (remoteKind 0 len) with
    | some (.ok (.weight w)) =>
      if s.absentPages ep w len ≠ [] then keep
      else (s.usePages (s.pagesOf ep w len)).answer agent ctx inn 0 (BitVec.ofNat 64 (leNat ((List.range len).map fun j => s.weightByte ep (w + j))))
        ((List.range len).any fun j => s.weightPoison ep (w + j))
    | some (.error c) => s.answer agent ctx inn c.code 0 false
    | _ => s.answer agent ctx inn 0x04 0 false) { s with hub := { s.hub with asks := [] } }
/-- STAGING_FILL: a page that reads or a STAGE wait for is read from flash into the rows of a frame, and counted once for each waiting task. A task
whose count would pass its budget gets no fill; the read is charged to the task that asked first (R379). `ok` is false for a page still uncorrectable
after two re-reads; how many of them recover a page is a free value. -/
def State.stagingFill (s : State) (ph page : Nat) (ok : Bool) : State :=
  let w := s.weights
  let wants := w.want.filter fun e => e.1 == ph && e.2.1 == page
  let tasks := (wants.map fun e => e.2.2).filter fun t => s.taskLive t
  let fits := fun t => let k := s.task t
                       k.ended || !k.over k.bsm (k.misses + 1)
  let charge := fun (s : State) t => let k := s.task t
                                     if k.rcd = [] then s else s.setTask t { k with misses := k.misses + 1 }
  let rest := w.want.filter fun e => !(e.1 == ph && e.2.1 == page)
  if tasks = [] ∨ s.staged ph page then { s with weights := { w with want := rest } }
  else
    let st := stackOfPhys ph
    let inc := fun (t : Tbl Nat) k => tput 0 t st (tget 0 t st + k)
    let s1 := tasks.foldl charge s
    if !tasks.any fits then { s1 with weights := { w with want := rest } }
    else
      let kept := s.makeRoom st
      let again := if ok then min 2 (s.openAt 2 (2 ^ 67 + ph * 4096 + page)).toNat else 2
      let f : SFrame := { phys := ph, page := page, pins := [], place := freePlace kept st }
      let s2 := { s1 with weights := { w with
        frames := f :: kept, want := rest, fills := inc w.fills 1
        rereads := inc w.rereads again, uepages := if ok then w.uepages else inc w.uepages 1 } }
      let s2 := (s2.fillRows (frameRow st f.place) (s.flashPage ph page) ok).useFree
      let s2 := s2.charge 0xA (tasks.headD 0) (1 + again)
      (if ok then s2 else s2.record 5 0 0 0 [BitVec.ofNat 64 ph, BitVec.ofNat 64 page]).serveAsks
def execStagingFill (ph page : Nat) (ok : Bool) (s : State) : Outcome State Fault Refusal := onEvent (fun s => s.stagingFill ph page ok) s

/-! ### STAGE at the hub (R322) -/

/-- An access probed by context, for an issuer that may be saved (R405). -/
def State.hubProbe (s : State) (c n va len : Nat) : Except Cause Target :=
  if 2 ^ 52 ≤ va then .error .regionMiss
  else s.probe c (.leader n) (s.walk c va) va len { rd := true, wr := false, align := 1 }
/-- Pages of a stack pinned for any task. -/
def State.pinned (s : State) (st : Nat) : Nat := (s.weights.frames.filter fun f => stackOfPhys f.phys == st && !f.pins.isEmpty).length
/-- The page is pinned already. -/
def State.isPinned (s : State) (p : Nat × Nat) : Bool := s.weights.frames.any fun f => f.phys == p.1 && f.page == p.2 && !f.pins.isEmpty
/-- What the hub's reads leave behind for task `task` of context `c`: its walks, the lines at their slices, the pages used and the parts asked (R246,
R251, R258, R321, R360, R379). -/
def State.hubTouch (s : State) (c n task ep va len : Nat) : State :=
  let parts := lineParts va len
  let s := s.hubWalk c task (parts.map fun p => p.1)
  parts.foldl (fun s p => match s.hubProbe c n p.1 p.2 with
    | .ok (.row pa cls scope home) => s.sliceLine hubRope c (s.ctx c).inn task p.1 pa cls scope home
    | .ok (.weight w) => (match s.physOf (w / 2 ^ 26) ep with
      | some ph => s.l2Use task { line := wLine ph (w % 2 ^ 26), dirty := false, cls := 4, scope := 0, home := 0 }
      | none => s).usePages (s.pagesOf ep w p.2)
    | .ok (.remote part ..) => (s.toPart c part).charge 0x0B task p.2
    | _ => s) s
/-- The pages of flash that a read of the hub needs and that are not staged (R319). -/
def State.hubAbsent (s : State) (c n ep va len : Nat) : List (Nat × Nat) :=
  (lineParts va len).flatMap fun p => match s.hubProbe c n p.1 p.2 with
    | .ok (.weight w) => s.absentPages ep w p.2
    | _ => []
/-- STAGE_RUN: the hub's next STAGE runs; one whose pages are not all present waits behind the others, and a dead tag's is dropped and counted (R358).
Both ends lie in one region, of class WEIGHT itself. -/
def State.stageRun (s : State) : State :=
  match s.weights.stages with
  | [] => s
  | (n, c) :: q =>
    let task := c.task
    let l := s.thread task n
    let k := s.task task
    let W := c.ops.getD 1 0
    let va := (c.ops.getD 0 0).toNat
    let last := va + bits W 35 0 - 1
    let waiting := { s with weights := { s.weights with stages := q } }
    let popped := waiting.hubWalk k.ctx task [va, last]
    let fault := fun (cause : Cause) a => popped.tokAt task n c.tok fun t =>
      { t with st := .fault, code := 8, cause := cause.code, idx := 0, aux := BitVec.ofNat 64 a }
    if !s.liveAt 4 k.ctx k.inn then { waiting with weights := { waiting.weights with fcStale := s.weights.fcStale + 1 } } else
    match s.hubProbe k.ctx n va 1, s.hubProbe k.ctx n last 1 with
    | .error e, _ => fault e va
    | _, .error e => fault e last
    | .ok (.weight w), .ok (.weight w2) =>
      if s.walk k.ctx va ≠ s.walk k.ctx last ∨ ¬(s.walk k.ctx va).any (fun e => e.cls == 4) then fault .regionMiss last
      else
        let ps := s.pagesOf l.wever w (w2 + 1 - w)
        let isOne := fun (f : SFrame) => ps.contains (f.phys, f.page)
        if bit W 63 then
          let fs := s.weights.frames.map fun f => if isOne f then { f with pins := f.pins.filter fun t => t != task } else f
          ({ popped with weights := { popped.weights with frames := fs } }).tokAt task n c.tok fun t => t.ended 0
        else
          let fresh := ps.filter fun p => !s.isPinned p
          let tooMany := (List.range 8).any fun st =>
            let f := (fresh.filter fun p => stackOfPhys p.1 == st).length
            0 < f && decide (s.frameCount / 2 < s.pinned st + f)
          if tooMany then popped.tokAt task n c.tok fun t => t.ended 4
          else
            let gone := ps.filter fun p => !s.staged p.1 p.2
            if gone ≠ [] then ({ waiting with weights := { waiting.weights with stages := q ++ [(n, c)] } }).wantPages task gone
            else
              let fs := s.weights.frames.map fun f => if isOne f && !f.pins.contains task then { f with pins := f.pins ++ [task] } else f
              ({ popped with weights := { popped.weights with frames := fs } }).tokAt task n c.tok fun t => t.ended 0
    | _, _ => fault .regionMiss va
def execStageRun (s : State) : Outcome State Fault Refusal := onEvent (fun s => s.stageRun) s

/-! ### Acceptance (R324) -/

/-- The endurance budget of a stack (R330). -/
def Weights.budgetOf (w : Weights) (st : Nat) : Nat := tget 2700 w.budget st
/-- Free physical extents of a stack, lowest first; those below the endurance budget alone when `fresh`. -/
def State.freePhys (s : State) (st : Nat) (fresh : Bool) : List Nat :=
  ((List.range 8704).map fun k => 8704 * st + k).filter fun p =>
    let e := tget Phys.reset s.weights.phys p
    !e.used && !e.retired && (!fresh || decide (e.erases < s.weights.budgetOf st))
/-- Free extents for logical extents in order; none when a stack runs out. -/
def State.allocShadows (s : State) (fresh : Bool) : List Nat → List Nat → Option (List Nat)
  | [], _ => some []
  | e :: r, taken => match (s.freePhys (e / 8192) fresh).find? fun p => !taken.contains p with
    | none => none
    | some p => (s.allocShadows fresh r (p :: taken)).map fun x => p :: x
/-- The probe of the source bytes of a consignment. -/
def State.sourceFault (s : State) (c n va len : Nat) : Option Cause :=
  (lineParts va len).findSome? fun p => match s.hubProbe c n p.1 p.2 with
    | .error e => some e
    | .ok (.remote _ rva _) => s.remoteFault rva
    | .ok _ => none
/-- The destination's first logical extent, or the cause of check 2. -/
def State.destExtent (s : State) (c dst k : Nat) : Except Cause Nat :=
  match s.walk c dst with
  | none => .error .regionMiss
  | some e =>
    if e.cls ≠ 4 then .error .permission
    else
      let w := e.wbase + (dst - e.vbase)
      if w % 2 ^ 26 = 0 ∧ dst + k * 2 ^ 26 ≤ e.vbase + e.len ∧ w + k * 2 ^ 26 ≤ 2 ^ 42 then .ok (w / 2 ^ 26) else .error .regionMiss
/-- CONSIGNMENT_ACCEPT: the hub's next consignment is accepted or refused as a whole. -/
def State.consignAccept (s : State) : State :=
  match s.weights.consigns with
  | [] => s
  | (n, c) :: q =>
    let task := c.task
    let k := s.task task
    let s := { s with weights := { s.weights with consigns := q } }
    if !s.liveAt 4 k.ctx k.inn then { s with weights := { s.weights with fcStale := s.weights.fcStale + 1 } }.record 9 k.ctx k.inn task [7] else
    let src := (c.ops.getD 0 0).toNat
    let cnt := (c.ops.getD 2 0).toNat
    let s := s.hubWalk k.ctx task (((List.range (cnt * 2 ^ 26 / 4096)).map fun j => src + 4096 * j) ++ [src + cnt * 2 ^ 26 - 1, (c.ops.getD 1 0).toNat])
    let stop := fun (code cause : Nat) =>
      (s.tokAt task n c.tok fun t => { t.ended code with cause := cause }).record 9 k.ctx k.inn task [BitVec.ofNat 64 code]
    match s.sourceFault k.ctx n src (cnt * 2 ^ 26), s.destExtent k.ctx (c.ops.getD 1 0).toNat cnt with
    | some e, _ => stop 5 e.code
    | none, .error e => stop 5 e.code
    | none, .ok x0 =>
      let xs := (List.range cnt).map fun i => x0 + i
      if s.weights.purse < cnt * 2 ^ 26 then stop 1 0
      else match s.allocShadows true xs [] with
        | none => if (s.allocShadows false xs []).isSome then stop 1 0 else stop 4 0
        | some sh =>
          if 64 ≤ s.weights.queue.length then stop 4 0
          else
            let e : Consign := { id := s.weights.nextId, leader := n, tok := c.tok, ctx := k.ctx, inn := k.inn, task := task, src := src
                                 ext0 := x0, n := cnt, shadows := sh, pages := [], code := 0, ended := false, verified := false }
            { s with weights := { s.weights with
                queue := s.weights.queue ++ [e], nextId := s.weights.nextId + 1
                phys := sh.foldl (fun t p => tput Phys.reset t p { tget Phys.reset t p with used := true }) s.weights.phys } }
def execConsignmentAccept (s : State) : Outcome State Fault Refusal := onEvent (fun s => s.consignAccept) s

/-! ### Programming, verification, publication (R325 to R328) -/

/-- The next page that a stack's engine programs: consignment, extent index and page. -/
def State.nextPage (s : State) (st : Nat) : Option (Consign × Nat × Nat) :=
  s.weights.queue.findSome? fun c =>
    if c.ended then none else
    (List.range c.n).findSome? fun i =>
      let k := tget 0 c.pages i
      if (c.ext0 + i) / 8192 = st ∧ k < 2731 then some (c, i, k) else none
/-- A byte of the source as the issuer's copy engine reads it. -/
def State.consignByte (s : State) (c : Consign) (va : Nat) : BitVec 8 × Bool :=
  match s.hubProbe c.ctx c.leader va 1 with
  | .ok (.row pa cls _ _) => (s.viewByte (leaderAgent c.leader) c.task cls pa, s.viewPoison (leaderAgent c.leader) c.task cls pa)
  | .ok (.weight w) => let ep := (s.thread c.task c.leader).wever
                       (s.weightByte ep w, s.weightPoison ep w)
  | .ok (.remote _ rva _) => (s.openAt 8 (2 ^ 53 + rva), s.openAt 1 (2 ^ 54 + rva) == 1)
  | _ => (s.openAt 8 (2 ^ 53 + va), false)
def State.putConsign (s : State) (c : Consign) : State :=
  { s with weights := { s.weights with queue := s.weights.queue.map fun x => if x.id = c.id then c else x } }
/-- CONSIGN_PROGRAM_PAGE: one page of the stack's oldest consignment is read from its source and programmed; `ok` is false when the page
fails to program, and its physical extent is then retired. The steps of a dead tag are dropped (R358); source pages in flash are staged
first (R319). -/
def State.programPage (s : State) (st : Nat) (ok : Bool) : State :=
  match s.nextPage st with
  | none => s
  | some (c, i, k) =>
    let ph := c.shadows.getD i 0
    let o := k * 24576
    let va := c.src + i * 2 ^ 26 + o
    let ep := (s.thread c.task c.leader).wever
    let gone := s.hubAbsent c.ctx c.leader ep va (pageBytes k)
    let bs := (List.range (pageBytes k)).map fun j => s.consignByte c (va + j)
    if !s.liveAt 4 c.ctx c.inn then { s with weights := { s.weights with fcStale := s.weights.fcStale + 1 } }.consignDrop c.id 7 i
    else if gone ≠ [] then s.wantPages c.task gone
    else if bs.any fun b => b.2 then (s.hubTouch c.ctx c.leader c.task ep va (pageBytes k)).consignDrop c.id 5 i
    else
      let s := s.hubTouch c.ctx c.leader c.task ep va (pageBytes k)
      let w := s.weights
      let s := { s with weights := { w with purse := w.purse - pageBytes k, progs := tput 0 w.progs st (tget 0 w.progs st + 1)
                                            bytes := memPut w.bytes (ph * 2 ^ 26 + o) (bs.map fun (b : BitVec 8 × Bool) => b.1) } }.charge 0xA c.task 1
      if ok then
        let s := s.putConsign { c with pages := tput 0 c.pages i (k + 1) }
        s.tokAt c.task c.leader c.tok fun t => { t with prog := t.prog + 1 }
      else
        let w := s.weights
        let s := { s with weights := { w with phys := tput Phys.reset w.phys ph { tget Phys.reset w.phys ph with retired := true }
                                              retiredN := tput 0 w.retiredN st (tget 0 w.retiredN st + 1) } }
        s.consignDrop c.id 2 i
def execConsignProgramPage (st : Nat) (ok : Bool) (s : State) : Outcome State Fault Refusal := onEvent (fun s => s.programPage st ok) s
/-- Every page of a consignment is programmed. -/
def Consign.programmed (c : Consign) : Bool := (List.range c.n).all fun i => tget 0 c.pages i == 2731
/-- CONSIGN_VERIFY: every page of every shadow was read back; `ok` is false when one failed, in an extent that the event leaves open. -/
def State.consignVerify (s : State) (id : Nat) (ok : Bool) : State :=
  match s.weights.queue.find? fun c => c.id == id with
  | none => s
  | some c => if c.ended || c.verified || !c.programmed then s
              else if !s.liveAt 4 c.ctx c.inn then { s with weights := { s.weights with fcStale := s.weights.fcStale + 1 } }.consignDrop id 7
              else if ok then s.putConsign { c with verified := true }
              else (s.consignDrop id 3 ((s.openAt 6 (2 ^ 68 + id)).toNat % c.n)).useFree
def execConsignVerify (id : Nat) (ok : Bool) (s : State) : Outcome State Fault Refusal := onEvent (fun s => s.consignVerify id ok) s

/-- CONSIGN_PUBLISH: the mapping of every extent is swapped in one step, once earlier consignments to the same extents have published
and no previous version of them is in use. A kill that has reached the hub comes first: the consignment ends STALE (R329). -/
def State.consignPublish (s : State) (id : Nat) : State :=
  match s.weights.queue.find? fun c => c.id == id with
  | none => s
  | some c =>
    let xs := (List.range c.n).map fun i => c.ext0 + i
    let w := s.weights
    let before := w.queue.takeWhile fun x => x.id != id
    let blocked := before.any fun x => decide (x.ext0 < c.ext0 + c.n ∧ c.ext0 < x.ext0 + x.n)
    if !s.live c.ctx c.inn then (if c.ended then s else s.consignDrop id 7)
    else if !c.verified || c.ended || blocked || (xs.any fun x => let e := tget Extent.reset w.exts x
                                                             e.prev.isSome || s.prevInUse e) then s
    else
      let ep := w.epoch + 1
      let exts := xs.zipIdx.foldl (fun t e =>
        let o := tget Extent.reset t e.1
        tput Extent.reset t e.1 { cur := some (c.shadows.getD e.2 0), since := ep, prev := o.cur }) w.exts
      let s := { s with weights := { w with epoch := ep, exts := exts, queue := w.queue.filter fun x => x.id != id } }
      (s.record 9 c.ctx c.inn c.task [0, BitVec.ofNat 64 c.ext0, BitVec.ofNat 64 c.n]).tokAt c.task c.leader c.tok fun t => t.ended 0
def execConsignPublish (id : Nat) (s : State) : Outcome State Fault Refusal := onEvent (fun s => s.consignPublish id) s

/-! ### Erasure and the purse (R330, R331) -/

/-- EXTENT_ERASE: a previous version that no reader uses and no pin holds, or a dropped shadow, is erased; the erase count rises, and at the rated
count the extent is retired (R330, log entry 95). -/
def State.extentErase (s : State) (ph : Nat) : State :=
  let w := s.weights
  let p := tget Phys.reset w.phys ph
  let prevOf := w.exts.find? fun e => e.2.prev == some ph
  let current := w.exts.any fun e => e.2.cur == some ph
  let held := w.queue.any fun c => c.shadows.contains ph
  let free := match prevOf with
    | some e => !s.prevInUse e.2 && !w.frames.any fun f => f.phys == ph && !f.pins.isEmpty
    | none => true
  if !p.used || current || held || !free then s
  else
    let retired := p.retired || decide (3000 ≤ p.erases + 1)
    let st := stackOfPhys ph
    { s with weights := { w with
        phys := tput Phys.reset w.phys ph { erases := p.erases + 1, retired := retired, used := false }
        exts := tmap Extent.reset (fun _ e => if e.prev = some ph then { e with prev := none } else e) w.exts
        frames := w.frames.filter fun f => f.phys != ph
        bytes := w.bytes.filter fun b => !(decide (ph * 2 ^ 26 ≤ b.1) && decide (b.1 < (ph + 1) * 2 ^ 26))
        erasesN := tput 0 w.erasesN st (tget 0 w.erasesN st + 1)
        retiredN := if retired && !p.retired then tput 0 w.retiredN st (tget 0 w.retiredN st + 1) else w.retiredN } }
def execExtentErase (ph : Nat) (s : State) : Outcome State Fault Refusal := onEvent (fun s => s.extentErase ph) s
/-- INSTALL_PURSE_REFILL: TIME div (86,400 × 10^9) has changed. -/
def State.purseRefill (s : State) : State :=
  let d := s.time / (86400 * 10 ^ 9)
  if d = s.weights.day then s else { s with weights := { s.weights with day := d, purse := s.weights.purseSet } }
def execInstallPurseRefill (s : State) : Outcome State Fault Refusal := onEvent (fun s => s.purseRefill) s

end Sys2Proof.Machine
end

