-- ==== Sys2Proof/Machine/Tasks.lean ====
section
/-! DEFINITION. Launches and tasks: LAUNCH and the hub's launch queue, admission with the rules of the launch record, binding, quanta,
pre-emption and restore, HALT, and the BUDGET stop (R25, R26, R34 to R37, R41, R85, R129, R237, R348 to R351, R368 to R371, R393,
R403 to R407). -/
namespace Sys2Proof.Machine

open Host (Outcome)

/-! ### LAUNCH (R350) -/

def execLaunch (d a b : BitVec 5) (s : State) : Outcome State Fault Refusal :=
  onLeader (.launch d a b) [a.toNat] (fun n s =>
    let va := s.xr n a.toNat
    let tk := b.toNat
    if va.toNat % 128 ≠ 0 then s.trap n .illegal va 0
    else if !((s.leader n).tok tk).free then s.stall n 7
    else
      let l := s.leader n
      let s := s.tokenIssue n tk 4
      let r : LaunchReq := { leader := some (n, tk), slot := none, ctx := l.ctxOf, inn := l.innOf, task := l.taskOf, level := l.level.toNat, va := va.toNat }
      let s := { s with hub := { s.hub with arriving := s.hub.arriving ++ [r] } }
      s.result n d.toNat (BitVec.ofNat 64 ((s.leader n).seq * 2 ^ 32 + tk)) 4) s

/-! ### Answers -/

/-- A mailbox slot sets DONE with its response; an EVENT goes out when its EVEN bit is 1 (R416, R417, Table 19.3). -/
def State.mailDone (s : State) (i code reason value : Nat) : State :=
  let p := s.host
  let m := tget MailSlot.reset p.slots i
  let rsp := BitVec.ofNat 64 (2 ^ 63 + code * 2 ^ 48 + reason * 2 ^ 40 + value % 2 ^ 32) ||| (m.rsp &&& 0x4000000000000000#64)
  let out := if bit p.even i then [{ opc := 0x90, tag := 0, stat := 0, data := [], slot := i }] else []
  { s with host := { p with slots := tput MailSlot.reset p.slots i { m with rsp := rsp, busy := false }, out := p.out ++ out } }
/-- The issuer of a leader's request lives and its token still waits for the answer. -/
def State.launchLive (s : State) (r : LaunchReq) : Bool :=
  match r.leader with
  | some (n, tk) =>
    let k := (s.thread r.task n).tok tk
    s.live r.ctx r.inn && k.kind == 4 && (k.st == .queued || k.st == .running)
  | none => true
/-- The token of the request at the head of the launch queue is RUNNING (R334, R351). -/
def State.headRuns (s : State) : State :=
  match s.hub.launches with
  | [] => s
  | r :: _ => match r.leader with
    | some (n, tk) => if s.launchLive r then s.tokAt r.task n tk fun t => { t with st := .running } else s
    | none => s
/-- The answer to a request: ACCEPT with the task number and START, or REFUSE with a reason. -/
def State.answerLaunch (s : State) (r : LaunchReq) (ans : Nat × Word ⊕ Nat) : State :=
  match r.slot, r.leader with
  | some i, _ => match ans with
    | .inl (t, _) => s.mailDone i 0x10 0 t
    | .inr why => s.mailDone i 0x11 why 0
  | none, some (n, tk) =>
    if !s.launchLive r then s
    else s.tokAt r.task n tk fun t => match ans with
      | .inl (k, start) => { t with st := .done, code := 0x10, prog := k, aux := start }
      | .inr why => { t with st := .fault, code := 0x11, idx := BitVec.ofNat 64 why }
  | none, none => s
/-- LAUNCH_REQUEST_ARRIVAL: a request reaches the hub's queue of 64; one that finds it full is refused at once with reason 11. -/
def State.launchArrival (s : State) : State :=
  match s.hub.arriving with
  | [] => s
  | r :: q =>
    let s := { s with hub := { s.hub with arriving := q } }
    if 64 ≤ s.hub.launches.length then s.answerLaunch r (.inr 11)
    else ({ s with hub := { s.hub with launches := s.hub.launches ++ [r] } }).headRuns
def execLaunchRequestArrival (s : State) : Outcome State Fault Refusal := onEvent (fun s => s.launchArrival) s

/-! ### The launch record (R348, Table 15.5) -/

/-- A level word: DOM, COUNT, RGN0, RCNT. -/
def lvDom (w : Word) : Nat := bits w 2 0
def lvCount (w : Word) : Nat := bits w 31 8
/-- Every field outside Table 15.5 is zero. -/
def recordRes0 (r : List Word) : Bool :=
  let d := fun k => r.getD k 0
  decide (bits (d 0) 45 42 = 0 ∧ bits (d 0) 31 0 = 0 ∧ bits (d 1) 63 52 = 0 ∧ bits (d 2) 63 51 = 0 ∧ bits (d 2) 31 19 = 0
    ∧ bits (d 4) 63 42 = 0 ∧ bits (d 4) 31 28 = 0 ∧ bits (d 4) 15 11 = 0 ∧ bits (d 5) 63 32 = 0 ∧ d 7 = 0
    ∧ bits (d 19) 63 48 = 0 ∧ bits (d 20) 63 32 = 0 ∧ d 21 = 0 ∧ d 22 = 0 ∧ d 23 = 0)
/-- The ranges of the record's own fields. -/
def recordRanges (r : List Word) : Bool :=
  let d := fun k => r.getD k 0
  decide (bits (d 0) 63 56 = 1 ∧ bits (d 1) 6 0 = 0
    ∧ bits (d 2) 50 32 % 4 = 0 ∧ bits (d 2) 50 32 < bits (d 2) 18 0 ∧ 4 ≤ bits (d 2) 18 0 ∧ bits (d 2) 18 0 ≤ 262144 ∧ bits (d 2) 18 0 % 4 = 0
    ∧ bits (d 4) 41 32 ≤ 512 ∧ bits (d 4) 27 16 ≤ 2176 ∧ bits (d 4) 10 8 ≤ 4 ∧ 1 ≤ bits (d 4) 7 0 ∧ bits (d 4) 7 0 ≤ 192 ∧ d 6 ≠ 0)
/-- The level words: domains rising, counts dividing, spans of exactly ROPES ropes, and words above NLEV zero (R24, R348). -/
def recordLevels (r : List Word) : Bool :=
  let d := fun k => r.getD k 0
  let n := bits (d 0) 48 46 + 1
  let ropes := bits (d 4) 7 0
  let lv := fun k => d (8 + k)
  ((List.range 8).all fun k => if n ≤ k then lv k == 0 else
    decide (lvDom (lv k) ≤ 5 ∧ 1 ≤ lvCount (lv k) ∧ bits (lv k) 7 3 = 0 ∧ bits (lv k) 63 56 = 0 ∧ bits (lv k) 43 32 + bits (lv k) 55 44 ≤ 4096)) &&
  ((List.range (n - 1)).all fun k => decide (lvDom (lv k) ≤ lvDom (lv (k + 1)) ∧ lvCount (lv k) % lvCount (lv (k + 1)) = 0)) &&
  ((List.range n).all fun k =>
    let c := lvCount (lv k)
    match lvDom (lv k) with
    | 0 => c == 32 * ropes
    | 1 => c == 4 * ropes
    | 2 => c == ropes
    | _ => decide (c ≤ ropes ∧ ropes % c = 0)) 
/-- The dependency entries agree with TRIGD and hold nothing else. -/
def recordDeps (r : List Word) : Bool :=
  let trigd := bit (r.getD 0 0) 51
  (List.range 8).all fun e =>
    let w := r.getD (24 + e) 0
    if bit w 63 then decide (bits w 61 48 = 0 ∧ bits w 15 6 = 0) && (bit w 62 == trigd) && (!trigd || bits w 5 0 == 0) else w == 0
/-- A record with a deadline: cairn dependencies, TIMING-FIRST, and the budgets that admission reserves from. -/
def recordDeadline (r : List Word) : Bool :=
  let d := fun k => r.getD k 0
  d 3 == 0 || (!bit (d 0) 51 && !bit (d 0) 52 && d 16 != 0 && (bits (d 4) 10 8 == 0 || d 17 != 0))
/-- Every rule that the record's own fields decide (R349). -/
def recordOk (r : List Word) : Bool := recordRes0 r && recordRanges r && recordLevels r && recordDeps r && recordDeadline r
/-- The regions that a level names are well-formed and have SCOPE = DOM. -/
def State.recordRegions (s : State) (r : List Word) : Bool :=
  let d := fun k => r.getD k 0
  let c := bits (d 0) 41 32
  (List.range (bits (d 0) 48 46 + 1)).all fun k =>
    let w := d (8 + k)
    (List.range (bits w 55 44)).all fun j =>
      let e := s.regionEntry (s.ctx c).rtb (bits w 43 32 + j)
      e.ok && decide (e.scope = lvDom w)

/-! ### Reading the record and the image (R41, R351) -/

/-- A byte as a hub read of context `c` finds it: `agent` and `task` name the reader, `ep` its weight epoch. -/
def State.hubByte (s : State) (agent task ep : Nat) (t : Target) : BitVec 8 × Bool :=
  match t with
  | .row pa cls _ _ => (s.viewByte agent task cls pa, s.viewPoison agent task cls pa)
  | .weight w => (s.weightByte ep w, s.weightPoison ep w)
  | .remote _ va _ => (s.openAt 8 (2 ^ 53 + va), s.openAt 1 (2 ^ 54 + va) == 1)
  | .scratch _ => (0, false)
/-- Read `len` bytes at `va` through the regions of a context, with the access kind read. -/
def State.hubRead (s : State) (c q agent task ep va len : Nat) : Except Cause (List (BitVec 8)) :=
  match (lineParts va len).findSome? fun p => match s.hubProbe c q p.1 p.2 with
    | .error e => some e
    | .ok (.remote _ rva _) => s.remoteFault rva
    | .ok _ => none with
  | some e => .error e
  | none =>
    let bs := (lineParts va len).flatMap fun p => match s.hubProbe c q p.1 p.2 with
      | .ok t => (List.range p.2).map fun k => s.hubByte agent task ep (t.plus k)
      | .error _ => []
    if bs.any fun b => b.2 then .error .ueConsumed else .ok (bs.map fun b => b.1)
/-- Doublewords from bytes. -/
def toWords (n : Nat) (bs : List (BitVec 8)) : List Word := (List.range n).map fun k => BitVec.ofNat 64 (leNat ((bs.drop (8 * k)).take 8))
/-- Who reads the launch record of a request, by rope, agent number and weight epoch: the issuer, or for a mailbox request the hub. -/
def State.recordReader (s : State) (r : LaunchReq) : Nat × Nat × Nat :=
  match r.leader with
  | some (n, _) => (n, leaderAgent n, (s.thread r.task n).wever)
  | none => (hubRope, nobody r.ctx, s.weights.epoch)
/-- The launch record of a request: through the issuer's regions, or through the regions of a mailbox request's window. -/
def State.readRecord (s : State) (r : LaunchReq) : Except Cause (List Word) :=
  let a := s.recordReader r
  (s.hubRead r.ctx a.1 a.2.1 r.task a.2.2 r.va 256).map (toWords 32)
/-- The code image's place: context, address and bytes. -/
def imagePlace (rcd : List Word) : Nat × Nat × Nat := (bits (rcd.getD 0 0) 41 32, bits (rcd.getD 1 0) 51 0, bits (rcd.getD 2 0) 18 0)
/-- The code image's words. -/
def State.readImageWords (s : State) (rcd : List Word) : Except Cause (List (BitVec 32)) :=
  let (c, va, len) := imagePlace rcd
  (s.hubRead c hubRope (nobody c) 0 s.weights.epoch va len).map fun bs =>
    (List.range (len / 4)).map fun k => BitVec.ofNat 32 (leNat ((bs.drop (4 * k)).take 4))

/-! ### Admission (R34, R36, R351, R371, Table 15.6) -/

/-- A task that was accepted and has not ended. -/
def Task.alive (t : Task) : Bool := t.rcd != [] && !t.ended
/-- The cairns of task `t` are still held (R352). -/
def State.cairnsHeld (s : State) (t : Nat) : Bool :=
  (s.task t).alive || s.tasks.any fun e => e.2.alive && e.2.deps.contains t
/-- A dependency that cannot be taken: a number never assigned, or cairns no longer held. -/
def State.badDep (s : State) (w : Word) : Bool :=
  let t := bits w 47 16
  bit w 63 && (decide (t = 0 ∨ s.hub.nextTask ≤ t) || (!bit w 62 && !s.cairnsHeld t))
/-- Well-formed entries of a context's table. -/
def State.regionList (s : State) (c : Nat) : List Region :=
  ((List.range 4096).map fun i => s.regionEntry (s.ctx c).rtb i).filter fun e => e.ok
/-- The entry names bank `g` by rows (R254). -/
def Region.namesBank (e : Region) (g : Nat) : Bool :=
  match e.map with
  | 0 => e.lin.1 == g
  | 1 => e.str.1 == ropeOf g
  | _ => false
/-- Granted banks that more than 16 row regions of a context name. -/
def State.crowdedBanks (s : State) (c : Nat) : List Nat :=
  let es := s.regionList c
  (List.range 6144).filter fun g => s.granted (rbiOf g) && decide (16 < (es.filter fun e => e.namesBank g).length)
/-- Milliwatts that admitted tasks hold. -/
def State.sharesHeld (s : State) : Nat := s.tasks.foldl (fun n e => if e.2.alive then n + bits (e.2.dw 5) 31 0 else n) 0
/-- A bind record keeps R7 and its own limits (Table 16.7), for the task that it names. -/
def State.bindOk (s : State) (r : List Word) : Bool :=
  let d := fun k => r.getD k 0
  let t := s.task (bits (d 0) 31 0)
  let lv := bits (d 5) 63 61
  decide (bits (d 0) 60 58 = 0 ∧ bits (d 0) 33 32 = 0 ∧ bits (d 1) 63 59 = 0 ∧ bits (d 1) 55 32 ≠ 0 ∧ bits (d 1) 31 20 = 0 ∧ bits (d 1) 15 0 = 0
    ∧ bits (d 5) 60 24 = 0 ∧ d 6 = 0 ∧ d 7 = 0 ∧ lv ≤ bits (t.dw 0) 48 46 ∧ bits (d 5) 23 0 < lvCount (t.dw (8 + lv)))
/-- Package ropes of a bind record. -/
def bindRopes (r : List Word) : List Nat :=
  let w := r.getD 1 0
  ((List.range 24).filter fun j => bit w (32 + j)).map fun j => 24 * bits w 58 56 + j
/-- The firmware's bind records for a task: its own choice of stack, ropes, arrays, times, shares and instances, under the tag, the
class and the deadline of the task. -/
def bindOf (rcd : List Word) (inn task : Nat) (r : List Word) : List Word :=
  let d0 := rcd.getD 0 0
  [BitVec.ofNat 64 (2 ^ 63 + bits d0 50 49 * 2 ^ 61 + bits d0 41 32 * 2 ^ 48 + inn * 2 ^ 34 + task),
   r.getD 1 0, r.getD 2 0, r.getD 3 0, rcd.getD 3 0, r.getD 5 0, 0, 0]
/-- Ones of a number below 2^w. -/
def onesOf (w v : Nat) : Nat := ((List.range w).filter fun k => v.testBit k).length
/-- The level words whose instances the binds name: at rope domain an instance is one rope, above it `ROPES / COUNT` ropes, of one stack at
stack domain; and the record's other levels find such instances too: at a level of stack domain each stack holds a whole number of them (R348). -/
def instancesOk (rcd : List Word) (rs : List (List Word)) : Bool :=
  let ropes := bits (rcd.getD 4 0) 7 0
  (rs.all fun r =>
    let w := rcd.getD (8 + bits (r.getD 5 0) 63 61) 0
    let same := rs.filter fun x => x.getD 5 0 == r.getD 5 0
    let n := (same.flatMap bindRopes).eraseDups.length
    decide (lvDom w < 2) || (decide (n = ropes / lvCount w) && (decide (lvDom w ≠ 3) || same.all fun x => bits (x.getD 1 0) 58 56 == bits (r.getD 1 0) 58 56))) &&
  (List.range (bits (rcd.getD 0 0) 48 46 + 1)).all fun k =>
    let w := rcd.getD (8 + k) 0
    decide (lvDom w ≠ 3) || (List.range 8).all fun m =>
      decide (((rs.flatMap bindRopes).eraseDups.filter fun n => n / 24 == m).length % (ropes / lvCount w) = 0)
/-- The placement gives each rope once, ROPES in all, with ARR arrays each, in valid records. -/
def State.placementOk (s : State) (rcd : List Word) (rs : List (List Word)) : Bool :=
  let ropes := (rs.flatMap bindRopes).eraseDups
  decide (ropes.length = bits (rcd.getD 4 0) 7 0) && instancesOk rcd rs && rs.all fun r =>
    s.bindOk r && decide (onesOf 4 (bits (r.getD 1 0) 19 16) = bits (rcd.getD 4 0) 10 8)
/-- START of a record, and the end of its binding as it is reserved: none while QUANTUM is 0. -/
def bindStart (r : List Word) : Nat := (r.getD 2 0).toNat
def bindEnd (r : List Word) : Nat := if bits (r.getD 3 0) 31 0 = 0 then 2 ^ 64 else bindStart r + bits (r.getD 3 0) 31 0
/-- Two records bind one rope at overlapping times. -/
def bindClash (r x : List Word) : Bool :=
  decide (bindStart r < bindEnd x ∧ bindStart x < bindEnd r) && (bindRopes r).any fun n => (bindRopes x).contains n
/-- No two records of the list bind one rope at once. -/
def disjointBinds : List (List Word) → Bool
  | [] => true
  | r :: q => (q.all fun x => !bindClash r x) && disjointBinds q
/-- The records in the slot table of admitted tasks that have not ended. -/
def State.reserved (s : State) : List (Nat × List Word) :=
  s.hub.binds.filter fun e => bit (e.2.getD 0 0) 63 && s.bindOk e.2 && (s.task (bits (e.2.getD 0 0) 31 0)).alive
/-- The placement leaves admitted tasks their reservations: with a deadline it names no rope that another record binds at that time (R371);
without one its records may name such a rope only after that record, which prevails by its lower index, so that they run in what is left idle
(R37, R369). -/
def State.placeFree (s : State) (rs : List (List Word)) (slots : List Nat) (deadline : Bool) : Bool :=
  disjointBinds rs && rs.all fun r => s.reserved.all fun e =>
    !bindClash r e.2 || (!deadline && slots.all fun j => decide (e.1 < j))
/-- The sum of the SHARE of the records in force never exceeds the cap (R40, R371); it can rise only where one begins. -/
def State.powerFits (s : State) (rs : List (List Word)) : Bool :=
  let all := rs ++ s.reserved.map fun e => e.2
  all.all fun r => decide ((all.filter fun x => decide (bindStart x ≤ bindStart r ∧ bindStart r < bindEnd x)).foldl
    (fun n x => n + bits (x.getD 3 0) 63 32) 0 ≤ s.hub.cap * 1000)
/-- A quotient rounded up. -/
def divUp (a b : Nat) : Nat := (a + b - 1) / b
/-- Cycles that a binding boundary may take: the bounds of Table 18.6 and the 1,200 cycles of the longest bank operation (R25). -/
def boundaryCost (hstep : Nat) : Nat := divUp (524 * 16) (16 - hstep) + 64 + 25000 + 25000 + 200 * 256 + 1200
/-- Cycles from TIME `now` to the deadline for which the records bind rope `n`, and the records that do. -/
def ropeBound (rs : List (List Word)) (now deadline n : Nat) : Nat × Nat :=
  let mine := rs.filter fun r => (bindRopes r).contains n
  (mine.foldl (fun k r => k + (min deadline (bindEnd r) - max now (bindStart r)) * 5 / 2) 0, mine.length)
/-- Cycles that a bound rope needs: its share of BRC and the reserves of Table 16.6, these scaled by 16/15. -/
def ropeNeed (rcd : List Word) (hstep bound records : Nat) : Nat :=
  let quanta := divUp bound 625000
  let reserve := 960 * quanta + 1200 + 800 * quanta + divUp bound 64 + 2 * 125000 + bits (rcd.getD 19 0) 31 0 * 150000 + records * boundaryCost hstep
  divUp (rcd.getD 16 0).toNat (bits (rcd.getD 4 0) 7 0) + divUp (reserve * 16) 15
/-- Cycles that each array of a rope needs: its share of BAC, of the throttling headroom and of the replays, and the waits of its rope. -/
def arrayNeed (rcd : List Word) (hstep records : Nat) : Nat :=
  let n := bits (rcd.getD 4 0) 7 0 * bits (rcd.getD 4 0) 10 8
  let bac := (rcd.getD 17 0).toNat
  if n = 0 then 0 else
  let reserve := divUp (divUp (bac * hstep) (16 - hstep) + bits (rcd.getD 19 0) 47 32 * bits (rcd.getD 20 0) 31 0) n +
    bits (rcd.getD 19 0) 31 0 * 150000 + records * boundaryCost hstep
  divUp bac n + divUp (reserve * 16) 15
/-- The reservations of a launch with a deadline fit before it (R36, R371, Table 16.6). -/
def State.deadlineFits (s : State) (rcd : List Word) (rs : List (List Word)) (slots : List Nat) : Bool :=
  let D := (rcd.getD 3 0).toNat
  s.placeFree rs slots true && s.powerFits rs && ((rs.flatMap bindRopes).eraseDups.all fun n =>
    let b := ropeBound rs s.time D n
    decide (ropeNeed rcd s.hub.hstep b.1 b.2 ≤ b.1 ∧ arrayNeed rcd s.hub.hstep b.2 ≤ b.1))
/-- The placement that the scrivener recorded for a task: stack, ropes and arrays, and START, of each bind record (R426). -/
def State.recordedPlace (s : State) (c t : Nat) : List (Word × Nat) :=
  (s.ring.entries.filterMap fun e => match e.2 with
    | some r => if r.type = 2 ∧ r.ctx = c ∧ r.task = t then some (r.body.getD 1 0, (r.body.getD 2 0).toNat) else none
    | none => none).eraseDups
/-- A re-run takes the recorded stacks, ropes and arrays, its STARTs shifted by one constant (R426). -/
def samePlace (old : List (Word × Nat)) (rs : List (List Word)) : Bool :=
  let new := rs.map fun r => (r.getD 1 0, bindStart r)
  let base := fun (l : List (Word × Nat)) => (l.map fun x => x.2).foldl min (2 ^ 64)
  old.isEmpty || (decide (new.length = old.length) && new.all fun x => old.any fun y => x.1 == y.1 && x.2 + base old == y.2 + base new)
/-- Free slots of the slot table, lowest first. -/
def State.freeSlots (s : State) : List Nat := (List.range 512).filter fun i => !bit ((tget [] s.hub.binds i).getD 0 0) 63
/-- The package can never grant the hierarchy: an instance at stack domain has more ropes than a stack (R348, Table 15.6). -/
def neverGranted (rcd : List Word) : Bool :=
  (List.range (bits (rcd.getD 0 0) 48 46 + 1)).any fun k =>
    let w := rcd.getD (8 + k) 0
    lvDom w == 3 && decide (24 < bits (rcd.getD 4 0) 7 0 / lvCount w)
/-- The reasons of Table 15.6 that come before the code image is read. -/
def State.recordWhy (s : State) (r : LaunchReq) (rcd : List Word) : Option Nat :=
  let c := bits (rcd.getD 0 0) 41 32
  let x := s.ctx c
  if r.va % 128 ≠ 0 || !recordOk rcd || !s.recordRegions rcd || (x.prot != bit (rcd.getD 0 0) 55) then some 1
  else if (c ≠ 0 ∧ x.st ≠ 1) ∨ (r.slot.isNone ∧ r.level < 2 ∧ c ≠ r.ctx) then some 2
  else none
/-- The first reason of Table 15.6 that applies to a request with the placement `rs` of the firmware. Two of its judgements come with the event:
that the package can never grant the resources (4), and that no placement fits before DEADLINE (5). -/
def State.refuseWhy (s : State) (r : LaunchReq) (why : Nat) (rcd : Except Cause (List Word)) (rs : List (List Word)) : Option Nat :=
  match rcd with
  | .error _ => some 1
  | .ok rcd =>
    let c := bits (rcd.getD 0 0) 41 32
    let slots := s.freeSlots.take rs.length
    let trial := s.setTask s.hub.nextTask { Task.reset with rcd := rcd }
    match s.recordWhy r rcd with
    | some w => some w
    | none =>
    if (s.readImageWords rcd).toBool = false then some 3
    else if why = 4 ∨ neverGranted rcd then some 4
    else if rcd.getD 3 0 ≠ 0 ∧ (why = 5 ∨ (rs ≠ [] ∧ trial.placementOk rcd rs ∧ !s.deadlineFits rcd rs slots)) then some 5
    else if s.hub.cap * 1000 < s.sharesHeld + bits (rcd.getD 5 0) 31 0 then some 6
    else if s.crowdedBanks c ≠ [] then some 7
    else if (List.range 8).any fun e => s.badDep (rcd.getD (24 + e) 0) then some 8
    else if s.freeSlots.length < rs.length then some 9
    else none
/-- What a re-run takes its verdicts from: the task that mailbox REPLAY named for this context (R426). -/
def State.takeReplay (s : State) (rcd : List Word) : Option (Nat × Nat) :=
  match s.hub.replay with
  | some (c, t) => if bit (rcd.getD 0 0) 53 ∧ c = bits (rcd.getD 0 0) 41 32 then some (c, t) else none
  | none => none
/-- The row address of the code-image area of frame `f` of context `c` (Table 18.4). -/
def State.imageArea (s : State) (c f : Nat) : Nat := (s.ctx c).biv + f * 0x800000 + 0x790000
/-- The code image copied to a frame's code-image area, zeros after it (R41, R403). -/
def State.putImage (s : State) (pa : Nat) (img : List (BitVec 32)) : State :=
  { s with rows := s.rows.filter fun e => !(decide (pa ≤ e.1) && decide (e.1 < pa + 0x40000))
           ecc := s.ecc.filter fun e => !(decide (pa / 8 ≤ e.1) && decide (e.1 < pa / 8 + 0x8000))
           cacheOld := s.cacheOld.filter fun e => !(decide (pa ≤ e.2.1) && decide (e.2.1 < pa + 0x40000)) }.writeRows pa
    (img.flatMap fun (w : BitVec 32) => leBytes 4 w.toNat)
/-- IMEM as dispatch loads it from an image of `len` bytes in a code-image area, zero beyond it: the words that are not zero (R41, R369). -/
def State.loadImem (s : State) (pa len : Nat) : Tbl (BitVec 32) :=
  let ks := (((window s.rows pa 0x40000).map fun e => (e.1 - pa) / 4) ++
    (window s.ecc (pa / 8) 0x8000).flatMap fun e => [2 * (e.1 - pa / 8), 2 * (e.1 - pa / 8) + 1]).eraseDups
  (ks.filter fun k => decide (4 * k < len)).foldl (fun t k => tput 0 t k (BitVec.ofNat 32 (leNat ((List.range 4).map fun j => s.seenByte none (pa + 4 * k + j))))) []
/-- Accept: the task is made, its frames fixed and the image copied into each, its bind records written, the acceptance recorded. -/
def State.accept (s : State) (r : LaunchReq) (rcd : List Word) (img : List (BitVec 32)) (fr : Nat) (rs : List (List Word)) : State :=
  let c := bits (rcd.getD 0 0) 41 32
  let inn := (s.ctx c).inn
  let t := s.hub.nextTask
  let ropes := (rs.flatMap bindRopes).eraseDups
  let start := (rs.headD []).getD 2 0
  let trigd := bit (rcd.getD 0 0) 51
  let rp := s.takeReplay rcd
  let base : Task := { Task.reset with
    ctx := c, inn := inn, rcd := rcd, allow := bits (rcd.getD 19 0) 47 32, epoch := s.weights.epoch
    frames := ropes.zipIdx.map fun e => (e.1, fr + e.2)
    start := start.toNat, replayOf := rp, bestEffort := rcd.getD 3 0 == 0 }
  let task := { base with started := !trigd || base.deps == [] }
  let slots := s.freeSlots.take rs.length
  let s := task.frames.foldl (fun s e => s.putImage (s.imageArea c e.2) img) (s.setTask t task)
  let s := { s with hub := { s.hub with
    nextTask := t + 1, clash := s.hub.clash.filter fun j => !slots.contains j, replay := if rp.isSome then none else s.hub.replay
    binds := (slots.zip rs).foldl (fun b (e : Nat × List Word) => tput [] b e.1 e.2) s.hub.binds } }
  (s.record 1 c inn t []).answerLaunch r (.inl (t, start))
/-- The pages of flash that the reads of a request's record and image still lack (R319). -/
def State.launchAbsent (s : State) (r : LaunchReq) (rcd : Except Cause (List Word)) : List (Nat × Nat) :=
  let a := s.recordReader r
  s.hubAbsent r.ctx a.1 a.2.2 r.va 256 ++ match rcd with
    | .ok rcd => if (s.recordWhy r rcd).isNone then (let (c, va, len) := imagePlace rcd; s.hubAbsent c hubRope s.weights.epoch va len) else []
    | .error _ => []
/-- Malformed entries that admission of a record meets: those that its levels name, and when the record itself is in order the whole table's, by
which the banks that row regions name are counted (R246, R254, R348). -/
def State.recordBad (s : State) (r : LaunchReq) (rcd : List Word) : List Nat :=
  let d := fun k => rcd.getD k 0
  let c := bits (d 0) 41 32
  if (s.recordWhy r rcd).isNone then s.badList c
  else
    ((List.range (bits (d 0) 48 46 + 1)).flatMap fun k => (List.range (bits (d (8 + k)) 55 44)).map fun j => bits (d (8 + k)) 43 32 + j).filter fun i =>
      let e := s.regionEntry (s.ctx c).rtb i; bit e.dw0 63 && !e.ok
/-- What those reads leave behind, charged to the task that issued the request (R379). -/
def State.launchTouch (s : State) (r : LaunchReq) (rcd : Except Cause (List Word)) : State :=
  let a := s.recordReader r
  let t := s.hubTouch r.ctx a.1 r.task a.2.2 r.va 256
  match rcd with
  | .ok rcd =>
    let t := t.noteBad (bits (rcd.getD 0 0) 41 32) (s.recordBad r rcd)
    if (s.recordWhy r rcd).isNone then (let (c, va, len) := imagePlace rcd; t.hubTouch c hubRope r.task s.weights.epoch va len) else t
  | .error _ => t
/-- ADMISSION: the head of the launch queue is read, and refused with the first reason that applies, or accepted with the placement that
the firmware chose: `fr` its first frame, `binds` its bind records. A stale request is dropped. Until the pages of flash that it reads are staged and
the placement is one that may be bound, the request waits; frames that reach past row memory are refused with reason 4 (R403). -/
def State.admission (s : State) (why fr : Nat) (binds : List (List Word)) : State :=
  match s.hub.launches with
  | [] => s
  | r :: q =>
    if !s.launchLive r then ({ s with hub := { s.hub with launches := q } }).headRuns
    else
      let rcd := s.readRecord r
      let gone := s.launchAbsent r rcd
      if gone ≠ [] then s.wantPages r.task gone else
      let t := s.launchTouch r rcd
      let popped := { t with hub := { t.hub with launches := q } }
      let rs := match rcd with
        | .ok rcd => binds.map (bindOf rcd (s.ctx (bits (rcd.getD 0 0) 41 32)).inn s.hub.nextTask)
        | .error _ => []
      match r.slot, rcd with
      | some i, .error e => (popped.mailDone i 0x21 e.code 0).headRuns
      | _, _ => match s.refuseWhy r why rcd rs with
        | some w => (popped.answerLaunch r (.inr w)).headRuns
        | none => match rcd with
          | .error _ => s
          | .ok rcd =>
            let c := bits (rcd.getD 0 0) 41 32
            let trial := s.setTask s.hub.nextTask { Task.reset with rcd := rcd }
            let frames := (List.range (rs.flatMap bindRopes).eraseDups.length).map fun k => fr + k
            let taken := s.tasks.any fun e => e.2.alive && e.2.ctx == c && e.2.frames.any fun f => frames.contains f.2
            let place := match s.takeReplay rcd with
              | some (x, t) => samePlace (s.recordedPlace x t) rs
              | none => true
            let free := s.placeFree rs (s.freeSlots.take rs.length) (rcd.getD 3 0 != 0) && s.powerFits rs
            let room := decide ((s.ctx c).biv + (fr + frames.length) * 0x800000 ≤ 6144 * 8192 * 12288)
            match s.readImageWords rcd with
            | .error _ => s
            | .ok img => if !room then (popped.answerLaunch r (.inr 4)).headRuns
                         else if rs = [] || taken || !trial.placementOk rcd rs || !place || !free then s else (popped.accept r rcd img fr rs).headRuns
def execAdmission (why fr : Nat) (binds : List (List Word)) (s : State) : Outcome State Fault Refusal :=
  onEvent (fun s => s.admission why fr binds) s

/-! ### Binding (R45, R46, R85, R129, R250, R254, R368 to R370, R374, R385) -/

/-- What stays with a rope when its thread leaves it. -/
def Leader.released (l : Leader) : Leader :=
  { Leader.reset with tag := l.tag, l1 := l.l1, issue := l.issue, stalls := l.stalls, issued := l.issued, orphan := l.orphan, stale := l.stale, degraded := l.degraded
                      spineLog := l.spineLog, spineOrd := l.spineOrd, xfer := l.xfer, retry := l.retry, degradedN := l.degradedN, poisonedN := l.poisonedN }
/-- The gate store that dispatch copies from the context's gate table (R374): an entry that is not valid is 0. -/
def State.gateCopy (s : State) (c : Nat) : Tbl Word × List Nat :=
  match s.hubRead c hubRope (nobody c) 0 s.weights.epoch (s.ctx c).gtb.toNat 2048 with
  | .error _ => ([], [])
  | .ok bs =>
    let ws := (toWords 256 bs).zipIdx
    let bad := fun (w : Word) => bit w 63 && decide (bits w 62 22 ≠ 0 ∨ bits w 20 19 = 3)
    ((ws.filter fun e => bit e.1 63 && !bad e.1).map fun e => (e.2, e.1), (ws.filter fun e => bad e.1).map fun e => e.2)
/-- The row-region store of bank `g` from the well-formed entries of its context: at most 16, in increasing index (R254). -/
def State.bankRegions (s : State) (es : List Region) (g : Nat) : List Region :=
  if s.granted (rbiOf g) then (es.filter fun e => e.namesBank g).take 16 else []
/-- A bank as a thread starts on its rope (R129). -/
def Bank.start (b : Bank) (prot : Bool) (rs : List Region) (epoch : Nat) (same : Bool) : Bank :=
  { b with y := [], p := [], vt := if prot then 0xC00 else 0x400, vl := 0, lq := [], fflags := 0, vxsat := false, frm := 0, vxrm := 0, loops := []
           run := none, bpc := (0, 0), tfetch := false, trap := none, lastTrap := none, disp := 0, trapQ := [], strip := none, regions := rs, resume := (false, 0)
           wave := 0, waits := false, multi := none, owed := [], blocks := [], fetchUe := false, entryNum := 0, wever := epoch, hop := false, sendUe := 0
           issue := if same then b.issue else 0, stalls := if same then b.stalls else [], why := 0 }
/-- An array as it is bound: to another (CTX, IN) its lines have VLEN 0, its planes are EMPTY, its counts zero (R182, R184, R385, Table 8.5). Fillers
go on to the binding's first issue cycle (R386). -/
def Array_.bound (a : Array_) (c i t now interval slew : Nat) : Array_ :=
  let b := if a.ctx = c ∧ a.inn = i then a
           else { Array_.reset with ctx := c, inn := i, step := a.step, lastFmt := a.lastFmt, ce := a.ce, ue := a.ue, sdc := a.sdc }
  { b with owner := some t, ramp := if a.filler then a.ramp else 1, filler := a.filler, fillFor := a.fillFor, bindAt := now
           rampAt := if a.filler then a.rampAt else now, rampI := interval, rampSlew := slew }
/-- The arrays that a mask gives a rope. -/
def arraysOf (n : Nat) (mask : BitVec 4) : List Nat := ((List.range 4).filter fun j => mask.getLsbD j).map fun j => 4 * n + j
/-- The place of a rope among the ropes of its level instance, in rope order. -/
def State.instOrd (s : State) (r : List Word) (n : Nat) : Nat :=
  let same := (s.hub.binds.filter fun e => (e.2.getD 0 0) == r.getD 0 0 && (e.2.getD 5 0) == r.getD 5 0).flatMap fun e => bindRopes e.2
  (same.eraseDups.filter fun m => decide (m < n)).length
/-- Bind rope `n` by record `i`, under the record's tag: IMEM, gate store, row regions, empty translation state; then the thread starts, or waits
for its restore when the task was pre-empted there (R34, R369). -/
def State.bindRope (s : State) (i n : Nat) (r : List Word) : State :=
  let d := fun k => r.getD k 0
  let t := bits (d 0) 31 0
  let k := s.task t
  let c := bits (d 0) 57 48
  let inn := bits (d 0) 47 34
  let prot := (s.ctx c).prot
  let l := s.leader n
  let same := l.tag == (c, inn)
  let b : Binding := { ctx := c, inn := inn, task := t, prot := prot, prio := bits (d 0) 62 61, amask := BitVec.ofNat 4 (bits (d 1) 19 16), rcd := i
                       frame := ((k.frames.find? fun e => e.1 == n).map fun e => e.2).getD 0, level := bits (d 5) 63 61
                       inst := bits (d 5) 23 0, ord := s.instOrd r n }
  let gates := s.gateCopy c
  let saved := (s.savedFrame t n).isSome
  let base := { l.released with bind := some b, imem := s.loadImem (s.imageArea c b.frame) (bits (k.dw 2) 18 0), gateStore := gates.1, tag := (c, inn)
                                issue := if same then l.issue else 0, stalls := if same then l.stalls else [] }
  let fresh := { base with run := true, pc := BitVec.ofNat 64 (bits (k.dw 2) 50 32), bmr := s.grantedMask, wever := k.epoch
                           csr := { Csrs.reset with vt := if prot then 0xC00 else 0x400 } }
  let es := s.regionList c
  let s := ((s.setLeader n (if saved then base else fresh)).noteBad c (s.badList c)).hubTouch c hubRope t s.weights.epoch (s.ctx c).gtb.toNat 2048
  let s := (List.range 32).foldl (fun s j => let g := bankOf n j
                                             s.setBank g ((s.bank g).start prot (s.bankRegions es g) k.epoch same)) s
  let s := (arraysOf n b.amask).foldl (fun s a => s.setArray a ((s.array a).bound c inn t s.cycle s.hub.interval s.hub.slew)) s
  let s := gates.2.foldl (fun s j => s.record 10 c inn t [BitVec.ofNat 64 j]) s
  let s := s.setCtx c { s.ctx c with tvec := (s.ctx c).entry }
  let k := s.task t
  s.setTask t { k with threads := if k.threads.contains n then k.threads else k.threads ++ [n] }
/-- The record is in force now and acts on a task that may run. -/
def State.bindNow (s : State) (r : List Word) : Bool :=
  let d := fun k => r.getD k 0
  let k := s.task (bits (d 0) 31 0)
  bit (d 0) 63 && s.bindOk r && s.live (bits (d 0) 57 48) (bits (d 0) 47 34) && k.alive && k.stop == 0 && k.started && decide ((d 2).toNat ≤ s.time) &&
    (bits (d 3) 31 0 == 0 || decide (s.time < (d 2).toNat + bits (d 3) 31 0))
/-- A record of a lower index that is in force names rope `n` as well, so it prevails there (R369). -/
def State.outranked (s : State) (i n : Nat) : Bool :=
  s.hub.binds.any fun e => decide (e.1 < i) && s.bindNow e.2 && (bindRopes e.2).contains n &&
    !(s.task (bits (e.2.getD 0 0) 31 0)).halts.contains n
/-- Rope `n` is bound by another record that is in force. -/
def State.heldByOther (s : State) (i n : Nat) : Bool :=
  (s.leader n).bind.any fun b => b.rcd != i && s.bindNow (tget [] s.hub.binds b.rcd)
/-- A task with a deadline is bound. -/
def State.deadlineBound (s : State) : Bool :=
  s.leaders.any fun e => e.2.bind.any fun b => !(s.task b.task).bestEffort
/-- While a task with a deadline is bound, STEP stands at or below HSTEP: it comes down when the first is bound or HSTEP falls (R371). -/
def State.holdStep (s : State) (deadline : Bool) : State :=
  if deadline then { s with hub := { s.hub with step := min s.hub.step s.hub.hstep } } else s
/-- BIND: at its START, a valid record of a live tag binds its ropes. Where two records in force name one rope the lower index prevails:
the other waits, or is asked to yield when it holds the rope already. The conflict is recorded once for a record (R369). -/
def State.bindRecord (s : State) (i : Nat) : State :=
  let r := tget [] s.hub.binds i
  if s.hub.recovery || !s.bindNow r then s else
  let t := bits (r.getD 0 0) 31 0
  let k := s.task t
  let ropes := (bindRopes r).filter fun n => !k.halts.contains n
  let open_ := ropes.filter fun n => (s.leader n).bind.isNone && !s.outranked i n
  let yields := ropes.filter fun n => s.heldByOther i n && !(s.leader n).preempt && (s.leader n).bind.any fun b => decide (i < b.rcd)
  let clash := (ropes.any fun n => s.outranked i n || s.heldByOther i n) && !s.hub.clash.contains i
  let gone := if open_ = [] then [] else s.hubAbsent k.ctx hubRope s.weights.epoch (s.ctx k.ctx).gtb.toNat 2048
  if gone ≠ [] then s.wantPages t gone else
  let s := s.holdStep (open_ ≠ [] && !k.bestEffort && !s.deadlineBound)
  let s := open_.foldl (fun s n => s.bindRope i n r) s
  let s := yields.foldl (fun s n => s.setLeader n { s.leader n with preempt := true, wfeEv := true }) s
  let s := if open_ = [] then s else s.record 2 k.ctx k.inn t (r.take 5)
  if clash then { s with hub := { s.hub with clash := s.hub.clash ++ [i] } }.record 10 k.ctx k.inn t [BitVec.ofNat 64 i] else s
def execBind (i : Nat) (s : State) : Outcome State Fault Refusal := onEvent (fun s => s.bindRecord i) s
/-- The binding of task `t` leaves array `i`, which runs its fillers from now on; fillers that were still running on it are charged (R386). -/
def State.releaseArray (s : State) (i t : Nat) : State :=
  let s := if (s.array i).filler then s.fillerCharge i (s.cycle - (s.array i).rampAt) else s
  s.setArray i { s.array i with owner := none, fillFor := t, filler := decide (0 < (s.array i).ramp), rampAt := s.cycle }
/-- A binding that continues under a record with another AMASK leaves the arrays that this does not name and takes those that it adds (R369). -/
def State.remask (s : State) (n : Nat) (b : Binding) (m : BitVec 4) : State :=
  let s := (arraysOf n (b.amask &&& ~~~m)).foldl (fun s i => s.releaseArray i b.task) s
  (arraysOf n (m &&& ~~~b.amask)).foldl (fun s i => s.setArray i ((s.array i).bound b.ctx b.inn b.task s.cycle s.hub.interval s.hub.slew)) s
/-- QUANTUM_END: at START + QUANTUM the bound threads are asked to yield, unless a record of the same task, instance, stack and ropes
begins then (R369). -/
def State.quantumEnd (s : State) (i : Nat) : State :=
  let r := tget [] s.hub.binds i
  let d := fun k => r.getD k 0
  let e := (d 2).toNat + bits (d 3) 31 0
  if !bit (d 0) 63 || bits (d 3) 31 0 == 0 || decide (s.time < e) then s else
  let next := s.hub.binds.find? fun x => let y := fun k => x.2.getD k 0
    x.1 != i && bit (y 0) 63 && s.bindOk x.2 && bits (y 0) 57 0 == bits (d 0) 57 0 && y 5 == d 5 && bits (y 1) 58 32 == bits (d 1) 58 32 && (y 2).toNat == e
  match next with
  | none => { s with leaders := tmap Leader.reset (fun _ l =>
      if l.bind.any fun b => b.rcd == i && b.task == bits (d 0) 31 0 then { l with preempt := true, wfeEv := l.wfeEv || !l.preempt } else l) s.leaders }
  | some x =>
    let m := BitVec.ofNat 4 (bits (x.2.getD 1 0) 19 16)
    (bindRopes r).foldl (fun s n => match (s.leader n).bind with
      | some b => if b.rcd = i ∧ b.task = bits (d 0) 31 0 then
          (s.remask n b m).setLeader n { s.leader n with bind := some { b with rcd := x.1, prio := bits (x.2.getD 0 0) 62 61, amask := m } }
        else s
      | none => s) s
def execQuantumEnd (i : Nat) (s : State) : Outcome State Fault Refusal := onEvent (fun s => s.quantumEnd i) s

/-! ### Pre-emption (R25, R26, R105, R206, R403, R404) -/

/-- The array has no command or step under way. A tile whose pass has ended is not suspended before its next pass or its commit (R206, R222). -/
def Array_.mayYield (a : Array_) : Bool :=
  match a.cur with
  | none => true
  | some k => match a.head k with
    | some c => c.isTile && match a.tile k with
      | some t => decide (t.kstep < stepsOf c t.pass)
      | none => true
    | none => true
/-- The copy engine is at a 128-byte boundary. -/
def Leader.copyAtBoundary (l : Leader) : Bool := match l.copyRun with | some r => decide (r.prog % 128 = 0) | none => true
/-- Every sequencer and engine of the rope is at its boundary, and nothing of the leader is in flight. -/
def State.ropeYields (s : State) (n : Nat) : Bool :=
  let l := s.leader n
  l.mayYield && l.copyAtBoundary && l.rewind.isNone && !(s.reqs.any fun r => r.leader == n && r.op != .fill)
    && ((List.range 32).all fun i => (s.bank (bankOf n i)).mayYield && (s.bank (bankOf n i)).owed.isEmpty)
    && ((List.range 4).all fun j => (s.array (4 * n + j)).mayYield)
/-- Registers of the rope's banks that task `t` of the tag holds open. -/
def State.heldSlots (s : State) (n t : Nat) (tag : Nat × Nat) : List (Nat × Nat × Slot) :=
  (List.range 32).flatMap fun i => let g := bankOf n i
    (s.bank g).slots.filterMap fun (e : Nat × Slot) =>
      if e.2.st ≠ .closed ∧ e.2.st ≠ .closing ∧ (e.2.ctx, e.2.inn) = tag ∧ e.2.task = t then some (g, e.1, e.2) else none
/-- The trap that a boundary would deliver: recorded in the frame when a pre-emption meets it (R26). -/
def State.boundaryTrap (s : State) (n : Nat) : Option TrapRec × State :=
  let l := s.leader n
  if l.act then (l.pendTrap, s)
  else match l.pendTrap with
  | some t => (some t, s)
  | none => match s.pendingBankTrap n with
    | some (i, t) =>
      let g := bankOf n i
      (some { cause := .bankTrap, bank := i, tpc := l.pc, tval := BitVec.ofNat 64 t.cause.code, telem := 0 },
       (s.setBank g { s.bank g with trap := some { t with seen := true } }).wfeEvent n t.woke)
    | none => match l.async with
      | [] => (none, s)
      | (v, _) :: r => (some { cause := .asyncFault, bank := 0, tpc := l.pc, tval := v, telem := 0 },
          (s.setLeader n (l.asyncTaken r)).wfeEvent n (decide (0 < l.asyncSeen)))
/-- A line and a plane as the save engine writes them: the units of a dirty line, the words of a VALID plane (R182, R184). -/
def Line.save (x : Line) : Line := if x.dirty then x else { Line.reset with vlen := x.vlen }
def Plane.save (p : Plane) : Plane := if p.st = 2 then p else Plane.reset
def Array_.save (a : Array_) : Array_ := { a with lines := tmap Line.reset (fun _ x => x.save) a.lines, p0 := a.p0.save, p1 := a.p1.save }
/-- The array after its lines have been saved: none is dirty (R184). -/
def Array_.saved (a : Array_) : Array_ := { a with lines := tmap Line.reset (fun _ (x : Line) => { x with dirty := false }) a.lines }
/-- The save of rope `n`'s thread: everything that the rope holds. -/
def State.saveFrame (s : State) (n : Nat) (b : Binding) (pend : Option TrapRec) : Frame :=
  let l := s.leader n
  let l := match l.copyRun with
    | some r => l.setTok r.cmd.tok { l.tok r.cmd.tok with st := .suspended }
    | none => l
  let x := s.ctx b.ctx
  { v := true, ctx := b.ctx, inn := b.inn, task := b.task, rope := n, level := b.level, inst := b.inst, ord := b.ord, saved := s.time
    flags := 0, pend := pend, leader := l, banks := (List.range 32).map fun i => (bankOf n i, { s.bank (bankOf n i) with slots := [] })
    arrays := (arraysOf n b.amask).map fun a => (a, (s.array a).save), latches := [], openRows := s.heldSlots n b.task (b.ctx, b.inn)
    rpl := [x.rplT, x.rplS, x.rplSat, x.rplUfl, x.rplCan, b01 x.rplX] }
/-- The lines of the rope's arrays have been saved. -/
def State.linesSaved (s : State) (n : Nat) (b : Binding) : State :=
  (arraysOf n b.amask).foldl (fun s a => s.setArray a (s.array a).saved) s
/-- The rope is released: its sequencers hold nothing, its arrays run their fillers (R386). -/
def Bank.idle (b : Bank) : Bank :=
  { b with y := [], p := [], lq := [], loops := [], run := none, bpc := (0, 0), tfetch := false, trap := none, lastTrap := none, disp := 0, trapQ := [], strip := none
           resume := (false, 0), wave := 0, waits := false, multi := none, owed := [], fetchUe := false, entryNum := 0, wever := 0, fflags := 0
           vxsat := false, hop := false, sendUe := 0 }
def State.releaseRope (s : State) (n : Nat) : State :=
  let l := s.leader n
  let am := match l.bind with | some b => b.amask | none => 0
  let s := s.setLeader n l.released
  let s := (List.range 32).foldl (fun s i => s.setBank (bankOf n i) (s.bank (bankOf n i)).idle) s
  (arraysOf n am).foldl (fun s a => s.releaseArray a l.taskOf) s
/-- The row address of a rope's frame (R403). -/
def State.frameAddr (s : State) (b : Binding) : Nat := (s.ctx b.ctx).biv + b.frame * 0x800000
/-! ### Restore (R115, R406, R407) -/

/-- The counters, the registers and what is owed to them stay with the bank; the rest comes from the save, and the block that the bank PC names
is fetched again (R45). -/
def Bank.restored (b v : Bank) : Bank :=
  { v with slots := b.slots, regions := b.regions, aerr := b.aerr, aerrOrd := b.aerrOrd, sendUe := b.sendUe, foreign := b.foreign, acts := b.acts, laneAt := b.laneAt, engTo := b.engTo
           vmems := b.vmems, owed := b.owed, upset := b.upset
           issue := b.issue, stalls := b.stalls, why := 0, issued := b.issued, ce := b.ce, ue := b.ue, refdue := b.refdue, closeRef := b.closeRef, closeOpen := b.closeOpen
           alerts := b.alerts, debtMax := b.debtMax, fqStale := b.fqStale, blocks := if v.at_ = (0, 0) then b.blocks else blocksAfter v.at_.1 b.blocks }
/-- A line of `v` valid units: what it held beyond them is gone (R184). -/
def Line.cut (x : Line) (v : Nat) : Line :=
  { x with vlen := v, data := x.data.filter fun e => decide (e.1 < 4 * v), ecc := x.ecc.filter fun e => decide (2 * e.1 < v) }
/-- A line at a restore: its VLEN and DIRTY from the save (R184). A line that was clean at the save was not written: its units are those that the
array still holds, or `open_` where the array has lost them (log entry 90). -/
def Line.restored (cur saved : Line) (open_ : List (BitVec 8)) : Line :=
  if saved.dirty then saved
  else if saved.vlen ≤ cur.vlen then { cur.cut saved.vlen with dirty := false }
  else { saved with data := toMem 0 open_ }
def State.restoredArray (s : State) (n i : Nat) (v : Array_) : Array_ :=
  let a := s.array i
  { v with lines := (v.lines.map fun (e : Nat × Line) =>
             (e.1, (a.line e.1).restored e.2 ((List.range (4 * e.2.vlen)).map fun j => s.openByte n (2 ^ 60 + 2 ^ 20 * i + 1024 * e.1 + j))))
           owner := a.owner, step := a.step, ramp := a.ramp, filler := a.filler, fillFor := a.fillFor, bindAt := a.bindAt, rampAt := a.rampAt, rampI := a.rampI, rampSlew := a.rampSlew, issue := a.issue, throttled := a.throttled
           ce := a.ce, ue := a.ue, sdc := a.sdc }
/-- The leader from its save: binding, IMEM and gate store are the new binding's; suspended copies run again; flags charged meanwhile
are added. -/
def Leader.restored (l v : Leader) (flags : BitVec 5) (pend : Option TrapRec) : Leader :=
  let v := match v.copyRun with
    | some r => v.setTok r.cmd.tok { v.tok r.cmd.tok with st := .running }
    | none => v
  { v with bind := l.bind, imem := l.imem, gateStore := l.gateStore, tlb := [], lanes := [], l1 := l.l1, run := true, pendTrap := pend
           preempt := l.preempt, tag := l.tag
           csr := { v.csr with fflags := v.csr.fflags ||| flags }
           issue := l.issue, stalls := l.stalls, why := 0, issued := l.issued, orphan := l.orphan, stale := l.stale, degraded := l.degraded, spineLog := l.spineLog, spineOrd := l.spineOrd
           xfer := l.xfer, retry := l.retry, degradedN := l.degradedN, poisonedN := l.poisonedN }
/-! ### The end of a thread and of a task -/

/-- Pins of a task end with it (R322). -/
def State.unpinTask (s : State) (t : Nat) : State :=
  { s with weights := { s.weights with frames := s.weights.frames.map fun f => { f with pins := f.pins.filter fun x => x != t } } }
/-- Waiting dependants learn that the task's cairns are sealed (R353). -/
def State.sealTask (s : State) (t : Nat) : State :=
  (s.setTask t { (s.task t).sealAll with ended := true }).wakeDeps fun p k => p == t && !((s.task t).cairn k).sealed
/-- The regions that the task engaged are no longer engaged (R255). -/
def State.disengage (s : State) (t : Nat) : State :=
  let c := (s.task t).ctx
  s.setCtx c { s.ctx c with engaged := (s.ctx c).engaged.filter fun e => e.2.1 != t }
/-- Registers of the task that wait for a publication are published as their latches stand, with what its last halt publishes (R237). -/
def State.haltRows (s : State) (t : Nat) : State :=
  (s.ropesOf t).foldl (fun s n => (List.range 32).foldl (fun s i => (List.range 8).foldl (fun s k =>
    let g := bankOf n i
    let sl := s.slot g k
    if sl.st = .commitPending ∧ sl.cw = 2 ∧ sl.task = t ∧ (sl.ctx, sl.inn) = ((s.task t).ctx, (s.task t).inn) then
      s.latchDue g k else s) s) s) s
/-- The task's last thread has halted: its own unpublished writes and working copies are published, its cairns sealed (R237). -/
def State.lastHalt (s : State) (t : Nat) : State :=
  let s := s.haltRows t
  let s := (s.publish t (fun p => p.task == t && (p.kind == .store || p.done)) (fun a => a.task == t)).endPhase t fun _ _ => true
  ((s.sealTask t).disengage t).unpinTask t
/-- Every part of HALT's wait holds. -/
def State.haltReady (s : State) (n : Nat) : Bool :=
  let l := s.leader n
  l.rowq.isEmpty && l.matq.isEmpty && l.matRun.isEmpty && l.copyq.isEmpty && l.copyRun.isNone && l.follow.isEmpty && l.strip.isNone
    && l.cairns.isEmpty && ((List.range 8).all fun i => (l.tok i).free) && !(s.reqs.any fun r => r.leader == n && r.op != .fill)
/-- The thread of rope `n` ends and its rope returns to dispatch. -/
def State.endThread (s : State) (n : Nat) : State :=
  let l := s.leader n
  let t := l.taskOf
  let k := s.task t
  let k := { k with halts := if k.halts.contains n then k.halts else k.halts ++ [n] }
  let s := ((s.setTask t k).spill n fun c => c.cls == 1 || c.cls == 2).releaseRope n
  if k.frames.all fun e => k.halts.contains e.1 then s.lastHalt t else s
def execHalt (s : State) : Outcome State Fault Refusal :=
  onLeader .halt [] (fun n s =>
    match s.commitFirst n with
    | some s => s
    | none => if s.haltReady n then (s.setLeader n (s.leader n).counted).endThread n else s.stall n 0x0B) s

/-! ### BUDGET (R37, R381, R393) -/

/-- Array cycles counted against BAC: a granted replay draws on the reserve of a task with a deadline first (R218). -/
def Task.arraySpent (t : Task) : Nat :=
  let held := if t.bestEffort then 0 else bits (t.dw 19) 47 32 * bits (t.dw 20) 31 0
  t.arrCyc + (t.repCyc - held)
/-- The budget that the task has overrun: 1 rope cycles, 2 array cycles, 3 copy bytes, 4 staging misses, 5 the energy purse. -/
def Task.overrun (t : Task) : Option Nat :=
  if t.over (t.dw 16).toNat t.ropeCyc then some 1
  else if t.over (t.dw 17).toNat t.arraySpent then some 2
  else if t.over t.bcb t.copyBytes then some 3
  else if t.over t.bsm t.misses then some 4
  else if (t.dw 6).toNat ≤ t.enTask then some 5
  else none
/-- Every line and plane of an array is cleared, its streams discarded (R184, R223). -/
def Array_.cleared (a : Array_) : Array_ :=
  { a with p0 := Plane.reset, p1 := Plane.reset, lines := [], stream0 := [], stream1 := none, stream2 := none, stream3 := none, ages := []
           cur := none, tiles := [], eps := [], unitUe := false }
/-- The threads of the task stop at their boundaries, and its requests at the hub that have not started are discarded: all that follows starts nothing
more of it (R393). -/
def State.stopTask (s : State) (t why : Nat) : State :=
  let s := ((s.ropesOf t).filter fun n => (s.leader n).bind.isSome && (s.leader n).taskOf == t).foldl (fun s n => s.setLeader n { s.leader n with run := false }) s
  let mine := fun (r : LaunchReq) => r.task == t
  { s.setTask t { s.task t with stop := why } with
    hub := { s.hub with arriving := s.hub.arriving.filter fun r => !mine r, launches := s.hub.launches.take 1 ++ (s.hub.launches.drop 1).filter fun r => !mine r }
    weights := { s.weights with stages := s.weights.stages.filter fun x => x.2.task != t, consigns := s.weights.consigns.filter fun x => x.2.task != t } }
/-- What was under way on rope `n` has come to its stop: the copy at a 128-byte boundary, the banks at an instruction boundary, the arrays at the end of
a step or command (R393). -/
def State.settledAt (s : State) (n : Nat) : Bool :=
  (s.leader n).copyAtBoundary && ((List.range 32).all fun i => (s.bank (bankOf n i)).multi.isNone) && ((List.range 4).all fun j => s.arraySettled (4 * n + j))
/-- The end of a task that is stopped: its unpublished data is dropped, its array lines are cleared, its cairns sealed; the stop is recorded with the
budget that was overrun (R393). -/
def State.stopEnd (s : State) (t : Nat) : State :=
  let k := s.task t
  let bound := (s.ropesOf t).filter fun n => (s.leader n).bind.isSome && (s.leader n).taskOf == t
  let s := bound.foldl (fun s n => (s.heldSlots n t (k.ctx, k.inn)).foldl (fun s e => s.discard e.1 e.2.1 0) s) s
  let saved := s.frames.filterMap fun e => e.2.bind fun f => if f.v && f.task == t then some f else none
  let s := saved.foldl (fun s f => f.openRows.foldl (fun s e =>
    let sl := s.slot e.1 e.2.1
    if (sl.ctx, sl.inn) = (f.ctx, f.inn) ∧ sl.task = t ∧ sl.row = e.2.2.row then s.discard e.1 e.2.1 0 else s) s) s
  let s := { s with arrays := tmap Array_.reset (fun _ a => if a.owner = some t then a.cleared else a) s.arrays }
  let s := { s with pend := s.pend.filter fun p => p.task != t, amos := s.amos.filter fun a => a.task != t, snaps := s.snaps.filter fun x => x.task != t
                    reqs := s.reqs.filter fun r => r.task != t }.dropFrames fun f => f.task == t
  let s := bound.foldl (fun s n => s.releaseRope n) s
  let s := s.setTask t { s.task t with halts := (s.task t).frames.map fun e => e.1 }
  (((s.sealTask t).disengage t).unpinTask t).record 7 k.ctx k.inn t [BitVec.ofNat 64 k.stop]
/-- BUDGET_STOP: a task that has overrun a budget is stopped, and ends once what was under way has come to its stop (R37, R381, R393). -/
def State.budgetStop (s : State) (t : Nat) : State :=
  let k := s.task t
  if !k.alive then s else
  match (if k.stop ≠ 0 then some s else k.overrun.map fun why => s.stopTask t why) with
  | none => s
  | some s =>
    if (s.ropesOf t).all fun n => (s.leader n).bind.isNone || (s.leader n).taskOf != t || s.settledAt n then s.stopEnd t else s
def execBudgetStop (t : Nat) (s : State) : Outcome State Fault Refusal := onEvent (fun s => s.budgetStop t) s

end Sys2Proof.Machine
end

