-- ==== Sys2Proof/Machine/Image.lean ====
section
/-! DEFINITION. A save area as memory holds it: the doublewords whose form the spec gives, each with its place in its part of Table 18.4, what it
reads in a save and what a load makes of it (R104, R111, R174, R182, R184, R203, R222, R376, R377, R403). The order of the doublewords within a
part is the model's (log entry 91); the parts for which the spec gives no form (queues, strip checkpoints, evicted latches, the streams of an
array) hold the values of `imageFree`. -/
namespace Sys2Proof.Machine

open Host (Outcome)

/-- A doubleword of a save area: its value in a save, and the save with another value in its place; none when that breaks its layout. -/
structure ImageDw where
  get : Frame → Word
  put : Frame → Word → Option Frame

/-- Doubleword `j` of a stack of at most `cap` loop entries: the depth, then COUNT and bounds of each entry in the two doublewords of Tables 4.8
and 6.6. `lo` gives the lower doubleword, `low` what it may be. -/
def stackDw (cap : Nat) (lo : LoopEntry → Word) (low : Word → Option (Nat × Nat)) (list : Frame → List LoopEntry)
    (set : Frame → List LoopEntry → Frame) (j : Nat) : ImageDw :=
  if j = 0 then
    { get := fun f => BitVec.ofNat 64 (list f).length
      put := fun f w => if cap < w.toNat then none
        else some (set f ((list f ++ List.replicate cap ({ start := 0, last := 0, count := 0 } : LoopEntry)).take w.toNat)) }
  else
    let i := (j - 1) / 2
    let upd := fun (f : Frame) (g : LoopEntry → LoopEntry) => set f ((list f).zipIdx.map fun e => if e.2 = i then g e.1 else e.1)
    { get := fun f => match (list f)[i]? with
        | none => 0
        | some e => if j % 2 = 1 then lo e else BitVec.ofNat 64 e.count
      put := fun f w =>
        if (list f).length ≤ i then (if w = 0 then some f else none)
        else if j % 2 = 1 then (low w).bind fun b => if b.1 ≤ b.2 then some (upd f fun e => { e with start := b.1, last := b.2 }) else none
        else if w = 0 then none else some (upd f fun e => { e with count := w.toNat }) }

/-! ### The header and the leader -/

/-- The header's doublewords (Table 18.5). -/
def Frame.header (f : Frame) : List Word :=
  let p := f.pend
  [f.dw0, BitVec.ofNat 64 (f.level * 2 ^ 61 + f.ord % 256 * 2 ^ 24 + f.inst % 2 ^ 24), BitVec.ofNat 64 f.saved, f.flags.setWidth 64,
   BitVec.ofNat 64 (match p with | some t => 2 ^ 63 + 256 * t.bank + t.cause.code | none => 0),
   (match p with | some t => t.tpc | none => 0), (match p with | some t => t.tval | none => 0), (match p with | some t => t.telem | none => 0),
   f.leader.stripDw]
/-- The cause of a code (Table 18.1). -/
def causeOf (k : Nat) : Option Cause :=
  [Cause.illegal, .priv, .misaligned, .regionMiss, .permission, .regionEngaged, .rowState, .refdue, .openLimit, .gateOvf, .gateUnf, .brk, .syscall,
   .budget, .ueConsumed, .sdc, .ueFatal, .asyncFault, .bankTrap, .lqEmpty].find? fun c => c.code == k
/-- Doubleword `i` of the header. -/
def headerDw (i : Nat) : ImageDw :=
  { get := fun f => f.header.getD i 0
    put := fun f w => match i with
      | 0 => if bits w 62 58 = 0 ∧ bits w 33 32 = 0 then some { f with v := bit w 63, ctx := bits w 57 48, inn := bits w 47 34, task := bits w 31 0 } else none
      | 1 => if bits w 60 32 = 0 then some { f with level := bits w 63 61, ord := bits w 31 24, inst := bits w 23 0 } else none
      | 2 => some { f with saved := w.toNat }
      | 3 => if bits w 63 5 = 0 then some { f with flags := w.setWidth 5 } else none
      | 4 => if bits w 62 13 ≠ 0 then none
             else if bit w 63 then (causeOf (bits w 7 0)).map fun c =>
               { f with pend := some { f.pend.getD { cause := c, bank := 0, tpc := 0, tval := 0, telem := 0 } with cause := c, bank := bits w 12 8 } }
             else some { f with pend := none }
      | 5 => some { f with pend := f.pend.map fun (t : TrapRec) => { t with tpc := w } }
      | 6 => some { f with pend := f.pend.map fun (t : TrapRec) => { t with tval := w } }
      | 7 => some { f with pend := f.pend.map fun (t : TrapRec) => { t with telem := w } }
      | _ => if bits w 61 0 = 0 ∧ bit w 63 = f.leader.strip.isSome then some f else none }

def Frame.onLeader (f : Frame) (g : Leader → Leader) : Frame := { f with leader := g f.leader }
/-- A vt word that a SETVL form could have left (Table 3.2, R134), with the PROT of `old`. -/
def vtLegal (old w : Word) : Bool := decide (bits w 63 12 = 0 ∧ bits w 10 8 ≤ 5 ∧ bits w 4 0 ≠ 0x12) && !bit w 7 && (bit w 11 == bit old 11)
/-- The thread CSRs of Table 9.2, in the order of their numbers. -/
def csrDw (i : Nat) : ImageDw :=
  let r := fun (f : Frame) => f.leader.csr
  let set := fun (f : Frame) (g : Csrs → Csrs) => some (f.onLeader fun l => { l with csr := g l.csr })
  let small := fun (n : Nat) (f : Frame) (w : Word) (g : Csrs → Csrs) => if w.toNat < n then set f g else none
  match i with
  | 0 => { get := fun f => (r f).vt, put := fun f w => if vtLegal (r f).vt w then set f fun c => { c with vt := w } else none }
  | 1 => { get := fun f => BitVec.ofNat 64 (r f).vl, put := fun f w => small 12289 f w fun c => { c with vl := w.toNat } }
  | 2 => { get := fun f => (r f).vxrm.setWidth 64, put := fun f w => small 4 f w fun c => { c with vxrm := w.setWidth 2 } }
  | 3 => { get := fun f => b01 (r f).vxsat, put := fun f w => small 2 f w fun c => { c with vxsat := bit w 0 } }
  | 4 => { get := fun f => (r f).frm.setWidth 64, put := fun f w => small 5 f w fun c => { c with frm := w.setWidth 3 } }
  | 5 => { get := fun f => (r f).fflags.setWidth 64, put := fun f w => small 32 f w fun c => { c with fflags := w.setWidth 5 } }
  | 6 => { get := fun f => (r f).abr0, put := fun f w => small (2 ^ 48) f w fun c => { c with abr0 := w } }
  | 7 => { get := fun f => (r f).abr1, put := fun f w => small (2 ^ 48) f w fun c => { c with abr1 := w } }
  | 8 => { get := fun f => (r f).abr2, put := fun f w => small (2 ^ 48) f w fun c => { c with abr2 := w } }
  | 9 => { get := fun f => (r f).abr3, put := fun f w => small (2 ^ 48) f w fun c => { c with abr3 := w } }
  | 10 => { get := fun f => (r f).acan.setWidth 64, put := fun f w => small 64 f w fun c => { c with acan := w.setWidth 6 } }
  | 11 => { get := fun f => (r f).instret, put := fun f w => set f fun c => { c with instret := w } }
  | 12 => { get := fun f => (r f).tcause, put := fun f w => small 8192 f w fun c => { c with tcause := w } }
  | 13 => { get := fun f => (r f).tpc, put := fun f w => if bits w 1 0 = 0 then set f fun c => { c with tpc := w } else none }
  | 14 => { get := fun f => (r f).tval, put := fun f w => set f fun c => { c with tval := w } }
  | 15 => { get := fun f => (r f).telem, put := fun f w => set f fun c => { c with telem := w } }
  | _ => { get := fun f => (r f).tstate
           put := fun f w => if bits w 63 9 = 0 ∧ bits w 4 3 = 0 ∧ bits w 1 0 ≠ 3 then set f fun c => { c with tstate := w } else none }
/-- A gate return entry (Table 4.10). -/
def GateRet.dw (e : GateRet) : Word := BitVec.ofNat 64 ((if e.mm then 2 ^ 21 else 0) + e.level.toNat * 2 ^ 19 + e.pc.toNat % 2 ^ 19)
def gateDw (i : Nat) : ImageDw :=
  { get := fun f => match f.leader.gates[i]? with | some e => e.dw | none => 0
    put := fun f w =>
      if f.leader.gates.length ≤ i then (if w = 0 then some f else none)
      else if bits w 63 22 = 0 ∧ bits w 20 19 ≠ 3 ∧ bits w 1 0 = 0 then
        some (f.onLeader fun l => { l with gates := l.gates.zipIdx.map fun e =>
          if e.2 = i then { pc := BitVec.ofNat 64 (bits w 18 0), level := BitVec.ofNat 2 (bits w 20 19), mm := bit w 21 } else e.1 })
      else none }
/-- Doubleword `i` of the leader's part: x1 to x31, their poison marks (bit 63 and the address), PC, loop stack, gate store, BMR, level and mask
mode, thread CSRs, C_e, the replay registers. -/
def leaderDw (i : Nat) : Option ImageDw :=
  if i < 31 then some { get := fun f => f.leader.xr (i + 1), put := fun f w => some (f.onLeader fun l => { l with x := tput 0 l.x (i + 1) w }) }
  else if i < 62 then some
    { get := fun f => f.leader.markDw (i - 30)
      put := fun f w =>
        if w = 0 then some (f.onLeader fun l => { l with xPoison := tput none l.xPoison (i - 30) none })
        else if bit w 63 ∧ bits w 62 52 = 0 then some (f.onLeader fun l => { l with xPoison := tput none l.xPoison (i - 30) (some (bits w 51 0)) })
        else none }
  else if i = 62 then some { get := fun f => f.leader.pc, put := fun f w => if bits w 1 0 = 0 then some (f.onLeader fun l => { l with pc := w }) else none }
  else if i < 76 then some (stackDw 6 (fun e => BitVec.ofNat 64 (e.last / 4 * 65536 + e.start / 4))
    (fun w => if bits w 63 32 = 0 then some (4 * bits w 15 0, 4 * bits w 31 16) else none) (fun f => f.leader.loops)
    (fun f ls => f.onLeader fun l => { l with loops := ls }) (i - 63))
  else if i = 76 then some
    { get := fun f => BitVec.ofNat 64 f.leader.gates.length
      put := fun f w => if 8 < w.toNat then none else
        some (f.onLeader fun l => { l with gates := (l.gates ++ List.replicate 8 ({ pc := 0, level := 0, mm := false } : GateRet)).take w.toNat }) }
  else if i < 85 then some (gateDw (i - 77))
  else if i = 85 then some { get := fun f => f.leader.bmr.setWidth 64
                             put := fun f w => if w.toNat < 2 ^ 32 then some (f.onLeader fun l => { l with bmr := w.setWidth 32 }) else none }
  else if i = 86 then some { get := fun f => BitVec.ofNat 64 ((if f.leader.mm then 4 else 0) + f.leader.level.toNat)
                             put := fun f w => if w.toNat < 8 ∧ bits w 1 0 ≠ 3 then
                               some (f.onLeader fun l => { l with mm := bit w 2, level := w.setWidth 2 }) else none }
  else if i < 104 then some (csrDw (i - 87))
  else if i < 112 then some { get := fun f => BitVec.ofNat 64 (tget 0 f.leader.cpos (i - 104))
                              put := fun f w => if w.toNat < 2 ^ 48 then
                                some (f.onLeader fun l => { l with cpos := tput 0 l.cpos (i - 104) w.toNat }) else none }
  else if i < 118 then some { get := fun f => f.rpl.getD (i - 112) 0
                              put := fun f w => if i = 117 ∧ 2 ≤ w.toNat then none else some { f with rpl := f.rpl.set (i - 112) w } }
  else none

/-! ### Scratch -/

def Frame.bank (f : Frame) (i : Nat) : Bank := match f.banks.find? fun e => e.1 == bankOf f.rope i with | some e => e.2 | none => Bank.reset
/-- A byte of the saved scratch, token and bank trap records included (R335, R394). -/
def Frame.scratchByte (f : Frame) (off : Nat) : BitVec 8 :=
  let pick := fun (w : Word) => w.extractLsb' (8 * (off % 8)) 8
  if 0x7FF00 ≤ off then pick ((f.leader.tok ((off - 0x7FF00) / 32)).dw (off % 32 / 8))
  else if 0x7FB00 ≤ off then
    pick (trapDw (f.bank ((off - 0x7FB00) / 32)) (off % 32 / 8))
  else memByte f.leader.scratch off
def Frame.onBank (f : Frame) (i : Nat) (g : Bank → Bank) : Frame :=
  { f with banks := f.banks.map fun e => if e.1 = bankOf f.rope i then (e.1, g e.2) else e }
/-- A token record with its doubleword `k` replaced (Table 15.3). -/
def Token.put (t : Token) (k : Nat) (w : Word) : Option Token :=
  let st : List TokSt := [.idle, .queued, .running, .suspended, .done, .fault]
  match k with
  | 0 => if bits w 15 11 = 0 ∧ bits w 7 3 = 0 ∧ bits w 10 8 < 5 then (st[bits w 2 0]?).map fun x =>
           { t with st := x, kind := bits w 10 8, code := bits w 23 16, cause := bits w 31 24, seq := bits w 63 32 } else none
  | 1 => some { t with prog := w.toNat }
  | 2 => some { t with idx := w }
  | _ => some { t with aux := w }
/-- The trap record of a bank with its doubleword `k` replaced (Table 18.2): V says whether the trap is pending or the last one handled. -/
def putTrapDw (b : Bank) (k : Nat) (w : Word) : Option Bank :=
  let none_ : BankTrap := { cause := .illegal, disp := 0, tpc := 0, tval := 0, telem := 0, kind := .instr, seen := false }
  let t := (b.trap.orElse fun _ => b.lastTrap).getD none_
  let keep := fun (x : BankTrap) => some (if b.trap.isSome then { b with trap := some x } else { b with lastTrap := some x })
  match k with
  | 0 => if bits w 62 10 ≠ 0 then none else (causeOf (bits w 7 0)).map fun c =>
      let d := BitVec.ofNat 2 (bits w 9 8)
      if bit w 63 then { b with trap := some { t with cause := c, disp := d }, lastTrap := none, disp := d }
      else { b with trap := none, lastTrap := some { t with cause := c, disp := 0 }, disp := d }
  | 1 => keep { t with tpc := w }
  | 2 => keep { t with tval := w }
  | _ => keep { t with telem := w }
/-- The doubleword of scratch at offset `off`. -/
def scratchDw (off : Nat) : ImageDw :=
  { get := fun f => BitVec.ofNat 64 (leNat ((List.range 8).map fun k => f.scratchByte (off + k)))
    put := fun f w =>
      if 0x7FF00 ≤ off then
        let t := (off - 0x7FF00) / 32
        ((f.leader.tok t).put (off % 32 / 8) w).map fun x => f.onLeader fun l => l.setTok t x
      else if 0x7FB00 ≤ off then
        let i := (off - 0x7FB00) / 32
        (putTrapDw (f.bank i) (off % 32 / 8) w).map fun x => f.onBank i fun _ => x
      else some (f.onLeader fun l => { l with scratch := memPut l.scratch off (leBytes 8 w.toNat) }) }

/-! ### Banks -/

/-- A register's status from a row status word (Table 5.3); none when the word breaks it. -/
def Slot.ofStatus (sl : Slot) (w : Word) : Option Slot :=
  let st : List RowSt := [.closed, .opening, .openClean, .openDirty, .commitPending, .closing]
  if bits w 14 3 ≠ 0 ∨ bits w 16 15 = 3 ∨ bits w 22 21 = 3 then none
  else (st[bits w 2 0]?).map fun x => { sl with
    st := x, ctx := bits w 63 54, inn := bits w 53 40, row := bits w 39 30, cr := bits w 24 23, pub := bits w 22 21, wp := bit w 20, sw := bit w 19
    ds := bit w 18, cc := bit w 17, cw := bits w 16 15 }
/-- The status word of slot `k` of rope bank `i`: of a register recorded as open, else 0. -/
def statusDw (i k : Nat) : ImageDw :=
  let mine := fun (f : Frame) (e : Nat × Nat × Slot) => e.1 == bankOf f.rope i && e.2.1 == k
  { get := fun f => match f.openRows.find? (mine f) with | some e => e.2.2.status | none => 0
    put := fun f w => (((f.openRows.find? (mine f)).map fun e => e.2.2).getD Slot.reset).ofStatus w |>.map fun sl =>
      { f with openRows := f.openRows.filter (fun e => !mine f e) ++ (if sl.st = .closed ∨ sl.st = .closing then [] else [(bankOf f.rope i, k, sl)]) } }
/-- Doubleword `i` of bank `j`'s part: VT, VL, flags, bank PC, RESUME, loop stack, length queue, status words, y1 to y15, p1 to p7. -/
def bankDw (j i : Nat) : Option ImageDw :=
  let b := fun (f : Frame) => f.bank j
  let set := fun (f : Frame) (g : Bank → Bank) => some (f.onBank j g)
  if i = 0 then some { get := fun f => (b f).vt, put := fun f w => if vtLegal (b f).vt w then set f fun x => { x with vt := w } else none }
  else if i = 1 then some { get := fun f => BitVec.ofNat 64 (b f).vl, put := fun f w => if w.toNat ≤ 12288 then set f fun x => { x with vl := w.toNat } else none }
  else if i = 2 then some { get := fun f => BitVec.ofNat 64 ((b f).fflags.toNat + if (b f).vxsat then 32 else 0)
                            put := fun f w => if w.toNat < 64 then set f fun x => { x with fflags := w.setWidth 5, vxsat := bit w 5 } else none }
  else if i = 3 then some
    { get := fun f => BitVec.ofNat 64 ((b f).at_.2 * 2 ^ 22 + (b f).at_.1 % 2 ^ 22)
      put := fun f w => if bits w 63 28 ≠ 0 then none else
        set f fun x => match x.run with
          | some r => { x with run := some { r with desc := bits w 21 0, wpos := bits w 27 22 } }
          | none => { x with bpc := (bits w 21 0, bits w 27 22) } }
  else if i = 4 then some { get := fun f => BitVec.ofNat 64 ((if (b f).resume.1 then 65536 else 0) + (b f).resume.2 % 65536)
                            put := fun f w => if bits w 63 17 = 0 then set f fun x => { x with resume := (bit w 16, bits w 15 0) } else none }
  else if i < 18 then some (stackDw 6 (fun e => BitVec.ofNat 64 (e.last * 64 + e.start))
    (fun w => if bits w 63 12 = 0 then some (bits w 5 0, bits w 11 6) else none) (fun f => (b f).loops) (fun f ls => f.onBank j fun x => { x with loops := ls })
    (i - 5))
  else if i = 18 then some { get := fun f => BitVec.ofNat 64 (b f).lq.length
                             put := fun f w => if 16 < w.toNat then none else set f fun x => { x with lq := (x.lq ++ List.replicate 16 0).take w.toNat } }
  else if i < 35 then some
    { get := fun f => BitVec.ofNat 64 ((b f).lq.getD (i - 19) 0)
      put := fun f w => if (b f).lq.length ≤ i - 19 then (if w = 0 then some f else none)
        else if w.toNat ≤ 12288 then set f fun x => { x with lq := x.lq.set (i - 19) w.toNat } else none }
  else if i < 43 then some (statusDw j (i - 35))
  else if i < 58 then some { get := fun f => (b f).yr (i - 42), put := fun f w => set f fun x => x.yw (i - 42) w }
  else if i < 58 + 7 * 192 then
    let p := (i - 58) / 192 + 1
    let q := (i - 58) % 192
    some { get := fun f => ((b f).pr p).extractLsb' (64 * q) 64, put := fun f w => set f fun x => x.pw p (putBits (x.pr p) (64 * q) 64 w.toNat) }
  else none

/-! ### Arrays -/

def Frame.array (f : Frame) (j : Nat) : Array_ := match f.arrays.find? fun e => e.1 % 4 == j with | some e => e.2 | none => Array_.reset
def Frame.onArray (f : Frame) (j : Nat) (g : Array_ → Array_) : Frame := { f with arrays := f.arrays.map fun e => if e.1 % 4 = j then (e.1, g e.2) else e }
/-- The head command of stream `k` changed. -/
def Array_.mapHead (a : Array_) (k : Nat) (g : MatCmd → MatCmd) : Array_ :=
  match k with
  | 0 => { a with stream0 := a.stream0.zipIdx.map fun e => if e.2 = 0 then g e.1 else e.1 }
  | 1 => { a with stream1 := a.stream1.map g }
  | 2 => { a with stream2 := a.stream2.map g }
  | _ => { a with stream3 := a.stream3.map g }
/-- A plane's status (Table 7.3). -/
def Plane.status (p : Plane) : Word :=
  BitVec.ofNat 64 (p.st * 2 ^ 62 + p.fmt * 2 ^ 57 + match p.claim with | some k => 2 ^ 56 + k * 2 ^ 54 | none => 0)
def Plane.ofStatus (p : Plane) (w : Word) : Option Plane :=
  if bits w 53 0 ≠ 0 ∨ (bits w 63 62 ≠ 0 ∧ bits w 63 62 ≠ 2) ∨ (bit w 56 = false ∧ bits w 55 54 ≠ 0) then none
  else some { p with st := bits w 63 62, fmt := bits w 61 57, claim := if bit w 56 then some (bits w 55 54) else none }
/-- Four line tags (Table 7.6), line `4 i` lowest. -/
def tagsDw (j i : Nat) : ImageDw :=
  { get := fun f => BitVec.ofNat 64 ((List.range 4).foldl (fun n q =>
      let x := (f.array j).line (4 * i + q)
      n + (x.vlen + if x.dirty then 256 else 0) * 2 ^ (16 * q)) 0)
    put := fun f w =>
      if (List.range 4).all fun q => decide (bits w (16 * q + 15) (16 * q + 9) = 0 ∧ bits w (16 * q + 7) (16 * q) ≤ 192) then
        some (f.onArray j fun a => (List.range 4).foldl (fun a q =>
          a.setLine (4 * i + q) { (a.line (4 * i + q)).cut (bits w (16 * q + 7) (16 * q)) with dirty := bit w (16 * q + 8) }) a)
      else none }
/-- What a word of stream `k`'s tile makes of it; with no tile the word is 0. -/
def putTile (f : Frame) (j k : Nat) (w : Word) (g : Tile → Option Tile) (h : MatCmd → MatCmd) : Option Frame :=
  match (f.array j).tile k with
  | none => if w = 0 then some f else none
  | some t => (g t).map fun t => f.onArray j fun a => (a.setTile k (some t)).mapHead k h
/-- The step word of stream `k` (Table 7.16) and its assay words (Table 8.6). -/
def stepDw (j k : Nat) : ImageDw :=
  { get := fun f => match (f.array j).tile k with | some t => BitVec.ofNat 64 (t.pass * 2 ^ 62 + t.grp * 2 ^ 61 + t.kstep * 2 ^ 16) | none => 0
    put := fun f w => putTile f j k w (fun t =>
      if bits w 60 35 = 0 ∧ bits w 15 0 = 0 ∧ bits w 63 62 ≠ 3 then some { t with pass := bits w 63 62, grp := bits w 61 61, kstep := bits w 34 16 } else none) id }
def countsDw (j k : Nat) : ImageDw :=
  { get := fun f => match (f.array j).tile k, (f.array j).head k with
      | some t, some c => BitVec.ofNat 64 (c.shift * 2 ^ 48 + t.sat * 2 ^ 32 + t.ufl * 2 ^ 16 + t.can)
      | _, _ => 0
    put := fun f w => putTile f j k w (fun t =>
      if bits w 63 54 = 0 then some { t with sat := bits w 47 32, ufl := bits w 31 16, can := bits w 15 0 } else none) fun c => { c with shift := bits w 53 48 } }
def thresholdsDw (j k : Nat) : ImageDw :=
  { get := fun f => match (f.array j).tile k, (f.array j).head k with | some _, some c => c.abr | _, _ => 0
    put := fun f w => putTile f j k w (fun t => if bits w 63 48 = 0 then some t else none) fun c => { c with abr := w } }
/-- Doubleword `i` of array `j`'s part: plane status, line tags, step words, counts, thresholds and ages of the four streams, the planes' words,
the lines' words. -/
def arrayDw (j i : Nat) : Option ImageDw :=
  if i < 2 then some { get := fun f => ((f.array j).plane i).status
                       put := fun f w => (((f.array j).plane i).ofStatus w).map fun p => f.onArray j fun a => a.setPlane i p }
  else if i < 130 then some (tagsDw j (i - 2))
  else if i < 134 then some (stepDw j (i - 130))
  else if i < 138 then some (countsDw j (i - 134))
  else if i < 142 then some (thresholdsDw j (i - 138))
  else if i < 146 then some { get := fun f => BitVec.ofNat 64 (tget 0 (f.array j).ages (i - 142))
                              put := fun f w => some (f.onArray j fun a => { a with ages := tput 0 a.ages (i - 142) w.toNat }) }
  else if 256 ≤ i ∧ i < 256 + 2 * 4896 then
    let p := (i - 256) / 4896
    let w := (i - 256) % 4896
    some { get := fun f => memDw ((f.array j).plane p).data (8 * w)
           put := fun f v => some (f.onArray j fun a => a.setPlane p { a.plane p with data := memPut (a.plane p).data (8 * w) (leBytes 8 v.toNat) }) }
  else if 16384 ≤ i ∧ i < 16384 + 512 * 96 then
    let L := (i - 16384) / 96
    let w := (i - 16384) % 96
    some { get := fun f => memDw ((f.array j).line L).data (8 * w)
           put := fun f v => some (f.onArray j fun a => a.setLine L { a.line L with data := memPut (a.line L).data (8 * w) (leBytes 8 v.toNat) }) }
  else none

/-! ### The whole area (Table 18.4) -/

/-- Bytes of a save area: the frame layout up to its code-image area. -/
def imageLen : Nat := 0x790000
/-- The doubleword at offset `8 i`, where the spec gives it a form. -/
def imageDw (i : Nat) : Option ImageDw :=
  let o := 8 * i
  if o < 72 then some (headerDw i)
  else if 0x1000 ≤ o ∧ o < 0x3000 then leaderDw (i - 0x200)
  else if 0x10000 ≤ o ∧ o < 0x90000 then some (scratchDw (o - 0x10000))
  else if 0x90000 ≤ o ∧ o < 0x190000 then bankDw ((i - 0x12000) / 4096) ((i - 0x12000) % 4096)
  else if 0x190000 ≤ o ∧ o < 0x390000 then arrayDw ((i - 0x32000) / 65536) ((i - 0x32000) % 65536)
  else none
/-- The doubleword is one on which the place of others depends (a depth, a tag): a load makes of it what it says whether or not it has changed. -/
def imageLead (i : Nat) : Bool :=
  decide (i < 9) || (decide (0x200 ≤ i) && decide (i < 0x400)) || (decide (0x12000 ≤ i) && decide (i < 0x32000) && decide ((i - 0x12000) % 4096 < 43))
    || (decide (0x32000 ≤ i) && decide (i < 0x72000) && decide ((i - 0x32000) % 65536 < 146))
/-- A byte of a part that has no given form, in an image written at a cycle with a free count. -/
def imageFree (cyc fr o : Nat) : BitVec 8 := Config.freeValue 8 ((2 * (2 ^ 61 + o) + 1) * 2 ^ 192 + cyc * 2 ^ 64 + fr)
/-- The doublewords of an image written at a cycle with a free count. -/
def Frame.imageWord (f : Frame) (cyc fr i : Nat) : Word :=
  match imageDw i with
  | some x => x.get f
  | none => BitVec.ofNat 64 (leNat ((List.range 8).map fun k => imageFree cyc fr (8 * i + k)))
def imageByte (f : Frame) (cyc fr o : Nat) : BitVec 8 := (f.imageWord cyc fr (o / 8)).extractLsb' (8 * (o % 8)) 8
/-- What doubleword `i` of an area, holding `w`, makes of a save that was written as `f`: of the save as read so far, and whether it has changed yet.
One that holds what was written changes nothing, but where the place of others depends on it once something has; none when it breaks its layout. -/
def Frame.loadWord (f : Frame) (i : Nat) (w : Word) (a : Frame × Bool) : Option (Frame × Bool) :=
  match imageDw i with
  | none => some a
  | some x => if w == x.get f && (!a.2 || !imageLead i) then some a else (x.put a.1 w).map fun g => (g, true)
/-- What the doublewords `ws` of an area, from doubleword `i` on, make of it, or the offset of the first that does not obey its layout. Where the
spec gives no form, the bytes must be those that were written. -/
def Frame.loadWords (f : Frame) (cyc fr : Nat) : Nat → List Word → Frame × Bool → Except Nat Frame
  | _, [], a => .ok a.1
  | i, w :: r, a =>
    if (imageDw i).isNone && w != f.imageWord cyc fr i then .error (8 * i)
    else match f.loadWord i w a with
      | some a => f.loadWords cyc fr (i + 1) r a
      | none => .error (8 * i)

/-! ### The save engine's frame (R403 to R406) -/

/-- The doublewords of a frame that the save engine writes: those that have a form, of the lines that are dirty up to VLEN and of the planes that are
VALID (R184, R404); the header last. -/
def Frame.written (f : Frame) : List Nat :=
  (List.range 118).map (0x200 + ·) ++ (List.range 65536).map (0x2000 + ·) ++
  ((List.range 32).flatMap fun b => (List.range 1402).map (0x12000 + 4096 * b + ·)) ++
  (f.arrays.flatMap fun e =>
    let j := e.1 % 4
    let at_ := fun (k : Nat) => 0x32000 + 65536 * j + k
    (List.range 146).map at_ ++
    ((List.range 2).flatMap fun p => if (e.2.plane p).st = 2 then (List.range 4896).map fun w => at_ (256 + 4896 * p + w) else []) ++
    (e.2.lines.flatMap fun x => if x.2.dirty && decide (x.1 < 512) then (List.range ((min x.2.vlen 192 + 1) / 2)).map fun w => at_ (16384 + 96 * x.1 + w) else [])) ++
  List.range 9
/-- The value of a doubleword that has a form. -/
def Frame.dwAt (f : Frame) (i : Nat) : Word := match imageDw i with | some x => x.get f | none => 0
/-- The save engine writes the frame at row address `at_`. -/
def State.putFrame (s : State) (at_ : Nat) (f : Frame) : State := f.written.foldl (fun s i => s.putDws (at_ + 8 * i) [f.dwAt i]) s
/-- Doubleword `i` of the frame at `at_` as the engine reads it back; none where it is uncorrectable. -/
def State.frameWord (s : State) (at_ i : Nat) : Option Word := let w := s.rowWord (at_ / 8 + i)
                                                               if w.2 then none else some w.1
/-- The save that the frame at `at_` holds, which was written as `f`; none when a doubleword is uncorrectable or breaks its layout. -/
def State.readFrame (s : State) (at_ : Nat) (f : Frame) : Option Frame :=
  (f.written.foldl (fun a i => a.bind fun a => (s.frameWord at_ i).bind fun w => f.loadWord i w a) (some (f, false))).map fun a => a.1
/-- PREEMPTION: once every part of the rope has reached its boundary, the save engine writes the frame and the rope is released. -/
def State.preemption (s : State) (n : Nat) : State :=
  let l := s.leader n
  match l.bind with
  | none => s
  | some b =>
    if !l.preempt || !l.run || l.killed || !s.live b.ctx b.inn || !s.ropeYields n then s else
    let p := s.boundaryTrap n
    let s := p.2
    let f := s.saveFrame n b p.1
    let f := { f with leader := { f.leader with preempt := false } }
    let s := { s with frames := tput none s.frames (s.frameAddr b) (some f) }.putFrame (s.frameAddr b) f
    -- its streams leave the arrays, whose planes and lines stay until another (CTX, IN) is bound there (R182, R184)
    let s := (arraysOf n b.amask).foldl (fun s a =>
      let x := s.array a
      s.setArray a { x with stream0 := [], stream1 := none, stream2 := none, stream3 := none, ages := [], cur := none
                            tiles := [], eps := [], p0 := { x.p0 with claim := none }, p1 := { x.p1 with claim := none } }) (s.linesSaved n b)
    s.releaseRope n
def execPreemption (n : Nat) (s : State) : Outcome State Fault Refusal := onEvent (fun s => s.preemption n) s

/-! ### Restore (R115, R406, R407) -/

/-- The evicted latch of bank `b`, slot `k` as the frame at `at_` holds it. -/
def State.readLatch (s : State) (at_ b k : Nat) (sl : Slot) : Slot :=
  let w := (at_ + latchArea b k) / 8
  let ws := (List.range 1536).map fun i => s.rowWord (w + 1 + i)
  let sl := (sl.ofStatus (s.rowWord w).1).getD sl
  { sl with latch := BitVec.ofNat 98304 (ws.foldr (fun x acc => acc * 2 ^ 64 + x.1.toNat) 0)
            poison := BitVec.ofNat 1536 (ws.foldr (fun x acc => 2 * acc + if x.2 then 1 else 0) 0) }
/-- One register at a restore: kept when it is still open under its owner and no eviction is under way; else the bank owes itself the latch that the frame at `at_` holds,
or the row (R115). -/
def State.restoreSlot (s : State) (at_ : Nat) (f : Frame) (e : Nat × Nat × Slot) : State :=
  let g := e.1
  let k := e.2.1
  let sl := s.slot g k
  let evicted := decide ((sl.ctx, sl.inn) ≠ (f.ctx, f.inn) ∨ sl.task ≠ f.task) || decide (sl.forced = 3) ||
    (decide (sl.st = .closed ∨ sl.st = .closing) && decide (sl.cr = 3))
  if !evicted then s
  else match f.latches.find? fun x => x.1 == rbiOf g && x.2.1 == k with
    | some x => s.owe g k (s.readLatch at_ (rbiOf g) k x.2.2) true
    | none => s.owe g k { e.2.2 with cw := 0, cc := false, sw := false, ds := false } false
/-- The frame that was read back is a save of this binding (R377, R406). -/
def Frame.fits (f : Frame) (b : Binding) (n : Nat) : Bool :=
  f.v && f.task == b.task && f.rope == n && f.ctx == b.ctx && f.inn == b.inn && f.level == b.level && f.ord % 256 == b.ord % 256 && f.inst % 2 ^ 24 == b.inst % 2 ^ 24
/-- RESTORE of the thread that was pre-empted on rope `n`. A frame with an uncorrectable word, or one that is no save of this
binding as R377 lays it out, is not restored: its incarnation is killed. -/
def State.restore (s : State) (n : Nat) : State :=
  let l := s.leader n
  match l.bind with
  | none => s
  | some b =>
    if l.run || l.killed || s.stopping n then s else
    let at_ := s.frameAddr b
    match tget none s.frames at_ with
    | none => s
    | some f =>
      if !f.v || f.task ≠ b.task || f.rope ≠ n then s
      else match (s.readFrame at_ f).filter fun g => g.fits b n with
      | none => (s.startKill b.ctx b.inn false).record 5 b.ctx b.inn b.task [BitVec.ofNat 64 at_]
      | some f =>
        let s := f.arrays.foldl (fun s e => s.setArray e.1 (s.restoredArray n e.1 e.2)) s
        let s := f.banks.foldl (fun s e => s.setBank e.1 ((s.bank e.1).restored e.2)) s
        let s := s.setLeader n (l.restored f.leader f.flags f.pend)
        let s := f.openRows.foldl (fun s e => s.restoreSlot at_ f e) s
        s.dropFrames fun x => x.task == b.task && x.rope == n
def execRestore (n : Nat) (s : State) : Outcome State Fault Refusal := onEvent (fun s => s.restore n) s


end Sys2Proof.Machine
end

