-- ==== Sys2Proof/Machine/Tables.lean ====
section
/-! DEFINITION. The context instructions of major 0x1B and the table events: kills and their fences, quarantine, RGNINV, SAVECTX and
LOADCTX, the diagnostic accesses, and the firmware's writes of context entries and bind records (R314, R355 to R370, R375 to R377, R387,
R408 to R410). -/
namespace Sys2Proof.Machine

open Host (Outcome)

/-! ### KILL and RECLAIM (R365, R366) -/

/-- What a KILL of `T` does: ILLEGAL, or the result word and whether the kill starts (R365). -/
def State.killResult (s : State) (T : Word) : Option (Word × Bool) :=
  let c := bits T 23 14
  let e := s.ctx c
  if bits T 62 24 ≠ 0 ∨ c = 0 then none
  else if e.st = 2 then some (BitVec.ofNat 64 (2 * 2 ^ 62), false)
  else if e.st ≠ 1 ∨ e.inn ≠ bits T 13 0 then some (BitVec.ofNat 64 (2 ^ 62), false)
  else some (BitVec.ofNat 64 (c * 2 ^ 14 + nextIn e.q e.inn), true)
def execKill (d a : BitVec 5) (s : State) : Outcome State Fault Refusal :=
  onLeaderK (.kill d a) [a.toNat] (fun n s =>
    let T := s.xr n a.toNat
    match s.killResult T with
    | none => s.trap n .illegal T 0
    | some (r, go) => (if go then s.startKill (bits T 23 14) (bits T 13 0) (bit T 63) else s).result n d.toNat r 4) s
/-- What RECLAIM answers once no fence of the tag is outstanding (R366). -/
def Ctx.reclaimed (e : Ctx) (c i : Nat) : Word :=
  let fence := e.fenced.find? fun x => x.1 == i
  let never := fence.isNone || (e.st == 1 && e.inn == i)
  let q := match fence with | some x => x.2 && !(e.st == 1 && e.inn == i) | none => false
  BitVec.ofNat 64 ((if q then 2 ^ 63 else 0) + (if never then 2 ^ 62 else 0) + c * 2 ^ 14 + e.inn)
def execReclaim (d a : BitVec 5) (s : State) : Outcome State Fault Refusal :=
  onLeaderK (.reclaim d a) [a.toNat] (fun n s =>
    let T := s.xr n a.toNat
    let c := bits T 23 14
    let e := s.ctx c
    if bit T 63 || decide (bits T 62 24 ≠ 0) then s.trap n .illegal T 0
    else if e.kill.any fun k => k.1 == bits T 13 0 then s.stall n 0x0B
    else s.result n d.toNat (e.reclaimed c (bits T 13 0)) 4) s

/-! ### The reclaim wave and the fence (R281, R359 to R363) -/

/-- Threads of the tag leave their ropes, whose caches hold nothing of them; their frames hold no save any more (R281, R360, R407). -/
def State.reclaimLeaders (s : State) (c i : Nat) : State :=
  let mine := (List.range 192).filter fun n => (s.leader n).bind.isSome && (s.leader n).ctxOf == c && (s.leader n).innOf == i
  let was := (List.range 192).filter fun n => (s.leader n).bind.isNone && (s.leader n).tag == (c, i)
  let s := was.foldl (fun s n => s.l1Clear n) s
  let s := mine.foldl (fun s n =>
    let dropped := (s.leader n).copyRun.isSome || (s.leader n).copyq ≠ []
    let s := (s.releaseRope n).l1Clear n
    let l := s.leader n
    s.setLeader n { l with stale := if dropped then l.stale + 1 else l.stale }) s
  s.dropFrames fun f => f.ctx == c && f.inn == i
/-- The slice that performs a request, at which a dropped one counts (Table 17.2). -/
def State.reqSlice (s : State) (r : Req) : Nat :=
  match r.tgt with
  | .row pa _ _ _ => sliceOf pa
  | .weight w => match s.physOf (w / 2 ^ 26) (s.leader r.leader).wever with
    | some ph => lineSlice (wLine ph (w % 2 ^ 26))
    | none => 0
  | _ => 0
/-- Unpublished lines, shadows, working copies and requests of the tag are dropped (Table 11.4). -/
def State.reclaimSlices (s : State) (c i : Nat) : State :=
  let owned := fun (t : Nat) => (s.task t).ctx == c && (s.task t).inn == i
  let gone := s.reqs.filter fun r => r.ctx == c && r.inn == i && !r.done
  let lines := ((s.pend.filter fun p => p.ctx == c && p.inn == i).map fun p => p.pa / 128).eraseDups
  { s with pend := s.pend.filter fun p => !(p.agent / 8192 == Config.partNumber && p.ctx == c && p.inn == i), amos := s.amos.filter fun a => !owned a.task
           snaps := s.snaps.filter fun x => !owned x.task
           reqs := s.reqs.filter fun r => !(r.ctx == c && r.inn == i && !r.done)
           hub := { s.hub with sliceStale := gone.foldl (fun t r => tput 0 t (s.reqSlice r) (tget 0 t (s.reqSlice r) + 1)) s.hub.sliceStale }
           l2 := tmap [] (fun _ cs => cs.filter fun x => !(x.dirty && (x.cls == 1 || x.cls == 2) && lines.contains x.line)) s.l2 }
/-- The banks' foreign queues drop requests that are no longer there. -/
def State.reclaimQueues (s : State) : State :=
  let live := fun id => s.reqs.any fun r => r.id == id
  { s with banks := tmap Bank.reset (fun _ b =>
      { b with foreign := b.foreign.filter fun f => live f.1, fqStale := b.fqStale + (b.foreign.filter fun f => !live f.1).length }) s.banks }
/-- The arrays of the tag hold nothing, and their counts are zero (R184, R223, Table 8.5). -/
def State.reclaimArrays (s : State) (c i : Nat) : State :=
  { s with arrays := tmap Array_.reset (fun _ a => if a.ctx = c ∧ a.inn = i then { a.cleared with sat := 0, ufl := 0, can := 0 } else a) s.arrays }
/-- The flash controller: stagings and consignments of the tag end, one not published STALE, which the scrivener records, an unaccepted one among
them (R329); its tasks' pins end. -/
def State.reclaimFlash (s : State) (c i : Nat) : State :=
  let owned := fun (t : Nat) => (s.task t).ctx == c && (s.task t).inn == i
  let w := s.weights
  let dead := (w.queue.filter fun x => x.ctx == c && x.inn == i && !x.ended).map fun x => x.id
  let mine := fun (x : Nat × CopyCmd) => owned x.2.task
  let n := dead.length + (w.stages.filter mine).length + (w.consigns.filter mine).length
  let s := { s with weights := { w with
      stages := w.stages.filter fun x => !mine x, consigns := w.consigns.filter fun x => !mine x
      want := w.want.filter fun x => !owned x.2.2, fcStale := w.fcStale + n
      frames := w.frames.map fun f => { f with pins := f.pins.filter fun t => !owned t } } }
  (w.consigns.filter mine).foldl (fun s x => s.record 9 c i x.2.task [7]) (dead.foldl (fun s id => s.consignDrop id 7) s)
/-- The domain ports: the kill goes to every part of the context's part set behind the requests already sent there, and what the tag still waits for
from other parts is dropped (R359, R360). -/
def State.reclaimPorts (s : State) (c i : Nat) : State :=
  let out := fun (r : Req) => match r.tgt with | .remote .. => r.ctx == c && r.inn == i | _ => false
  let gone := s.reqs.filter out
  { s with reqs := s.reqs.filter fun r => !out r
           hub := { s.hub with
             portOut := s.hub.portOut ++ (s.ctx c).parts.map fun p => .kill p c i
             portStale := gone.foldl (fun t r => match r.tgt with
               | .remote part _ _ => tput 0 t (s.portOf part) (tget 0 t (s.portOf part) + 1)
               | _ => t) s.hub.portStale } }
/-- RECLAIM_WAVE_ARRIVAL: agent group `agent` reclaims the dying tag and acknowledges: 0 leaders, spines and copy engines; 1 L2 slices;
2 foreign queues; 3 arrays; 4 flash controller; 5 domain ports, from whose sending the fence counts its 200 µs (R362); 6 UCIe endpoint; 7 fabric,
these two with nothing of the tag of their own. From 8 on, part `agent` − 8 acknowledges. -/
def State.reclaimWave (s : State) (c agent : Nat) : State :=
  let e := s.ctx c
  match e.kill with
  | none => s
  | some (i, free, mask, at_) =>
    if 8 ≤ agent then s.setCtx c { e with parts := e.parts.filter fun p => p != agent - 8 }
    else if mask / 2 ^ agent % 2 = 0 then s
    else
      let s := match agent with
        | 0 => s.reclaimLeaders c i
        | 1 => s.reclaimSlices c i
        | 2 => s.reclaimQueues
        | 3 => s.reclaimArrays c i
        | 4 => s.reclaimFlash c i
        | 5 => s.reclaimPorts c i
        | _ => s
      s.setCtx c { s.ctx c with kill := some (i, free, mask - 2 ^ agent, if agent = 5 then s.cycle else at_) }
def execReclaimWaveArrival (c agent : Nat) (s : State) : Outcome State Fault Refusal := onEvent (fun s => s.reclaimWave c agent) s
/-- REMOTE_KILL_ARRIVAL: the tag of another part enters the remote tag list; what that part's agents left unpublished here under it, its working
copies and what it still waits for are dropped, and the kill is acknowledged (R281, R359). -/
def execRemoteKillArrival (part c i : Nat) (s : State) : Outcome State Fault Refusal :=
  onEvent (fun s =>
    let t := (part, c, i)
    { s with pend := s.pend.filter fun p => !(p.agent / 8192 == part && part != Config.partNumber && p.ctx == c && p.inn == i)
             amos := s.amos.filter fun a => a.task != tagTask part c i
             hub := { s.hub with
               remoteTags := if s.hub.remoteTags.contains t then s.hub.remoteTags else s.hub.remoteTags ++ [t]
               answers := s.hub.answers.filter fun a => !(a.agent / 8192 == part && a.ctx == c && a.inn == i)
               asks := s.hub.asks.filter fun a => !(a.1 / 8192 == part && a.2.1 == c && a.2.2.1 == i)
               portOut := s.hub.portOut ++ [.ack part c i] } }) s
/-- QUARANTINE_ANNOUNCEMENT_ARRIVAL: the tag left the sending part's quarantine lists, so it leaves the remote tag list (R359). -/
def execQuarantineAnnouncementArrival (part c i : Nat) (s : State) : Outcome State Fault Refusal :=
  onEvent (fun s => { s with hub := { s.hub with remoteTags := s.hub.remoteTags.filter fun t => t != (part, c, i) } }) s
/-- An incarnation begins: the replay registers are zero, nothing is engaged (R219, R255). -/
def Ctx.begun (e : Ctx) : Ctx :=
  { e with rplT := 0, rplS := 0, rplSat := 0, rplUfl := 0, rplCan := 0, rplX := false, engaged := [] }
/-- The lowest Qi that holds no value. -/
def Ctx.freeQ (e : Ctx) : Option Nat := (List.range 8).find? fun k => (tget none e.q k).isNone
/-- FENCE_COMPLETE: every agent and part has acknowledged, or 200 µs have passed with a part silent; its value then enters quarantine
(R362, Table 16.2). -/
def State.fence (s : State) (c : Nat) : State :=
  let e := s.ctx c
  match e.kill with
  | none => s
  | some (i, free, mask, at_) =>
    if mask ≠ 0 ∨ (e.parts ≠ [] ∧ s.cycle < at_ + 500000) then s
    else
      let next := if free then 0 else 1
      let quar := decide (e.parts ≠ [])
      let fenced := (e.fenced.filter fun x => x.1 != i) ++ [(i, quar)]
      let silent := e.silent ++ e.parts.map fun p => (i, p)
      let b := { e.begun with kill := none, parts := [], fenced := fenced, silent := silent, lack := none }
      let b := if !quar then { b with st := next }
        else match e.freeQ with
        | some k => { b with st := next, q := tput none b.q k (some i) }
        | none => { b with st := 3, lack := some i }
      (s.setCtx c b).record 8 c i 0 [BitVec.ofNat 64 (if quar then 1 else 0)]
def execFenceComplete (c : Nat) (s : State) : Outcome State Fault Refusal := onEvent (fun s => s.fence c) s
/-- QUARANTINE_CLEAR: a silent part has answered, or has been reset or removed; `x` is the IN, and above its 14 bits the part. With the last of the
parts that the IN waits for, its Qi clears, which the domain ports announce, and a context that lacked a slot takes it and is LIVE (R359, R362). -/
def State.quarantineClear (s : State) (c x : Nat) : State :=
  let i := x % 16384
  let e := s.ctx c
  let e := { e with silent := e.silent.filter fun y => y != (i, x / 16384) }
  match (List.range 8).find? fun k => tget none e.q k == some i with
  | none => s.setCtx c e
  | some k =>
    if e.silent.any fun y => y.1 == i then s.setCtx c e
    else
      let s := { s with hub := { s.hub with portOut := s.hub.portOut ++ [PortMsg.announce c i] } }
      match e.lack with
      | some v => s.setCtx c { e with q := tput none e.q k (some v), lack := none, st := 1 }
      | none => s.setCtx c { e with q := tput none e.q k none }
def execQuarantineClear (c i : Nat) (s : State) : Outcome State Fault Refusal := onEvent (fun s => s.quarantineClear c i) s
/-- OPERATOR_KILL_REQUEST: the firmware kills at the operator's request (R364). -/
def execOperatorKillRequest (c i : Nat) (free : Bool) (s : State) : Outcome State Fault Refusal := onEvent (fun s => s.startKill c i free) s

/-! ### The firmware's table writes (R356, R368, R370) -/

/-- A rope is bound to the context. -/
def State.boundCtx (s : State) (c : Nat) : Bool := s.leaders.any fun e => e.2.bind.any fun b => b.ctx == c
/-- CONTEXT_CREATE: DW0 to DW4 of an entry. A FREE context becomes LIVE under the IN given; a context with no bound rope has its tables
changed (Tables 16.1, 16.2, 16.9). -/
def State.contextCreate (s : State) (c : Nat) (ws : List Word) : State :=
  let d := fun k => ws.getD k 0
  let e := s.ctx c
  let set := fun (e : Ctx) =>
    { e with prot := bit (d 0) 61, rtb := bits (d 1) 39 7 * 128, gtb := d 2 &&& 0x000FFFFFFFFFF000#64, biv := bits (d 3) 39 12 * 4096
             entry := d 4 &&& 0x3FFFC#64, badRgn := [] }
  if 1024 ≤ c then s
  else if e.st = 0 ∧ c ≠ 0 then
    s.setCtx c { (set e).begun with st := 1, inn := bits (d 0) 13 0, q := [], silent := [], lack := none, parts := [] }
  else if s.boundCtx c then s
  else s.setCtx c (set e)
def execContextCreate (c : Nat) (ws : List Word) (s : State) : Outcome State Fault Refusal := onEvent (fun s => s.contextCreate c ws) s
/-- BIND_RECORD_WRITE: the scheduling firmware writes record `i`. A change within 10 µs of its START, or during its binding, is acted on
in its old form or its new one; once its binding has ended it is acted on as written. An invalid record is recorded by its index (R368, R370). -/
def State.bindWrite (s : State) (i : Nat) (ws : List Word) : State :=
  let old := tget [] s.hub.binds i
  let r := (List.range 8).map fun k => ws.getD k 0
  let near := fun (x : List Word) => bit (x.getD 0 0) 63 && decide ((x.getD 2 0).toNat < s.time + 10000)
  let ended := decide (bindEnd old ≤ s.time) || !(s.task (bits (old.getD 0 0) 31 0)).alive
  let keep := ((near old && !ended) || near r) && (s.openAt 1 (2 ^ 62 + i) == 1)
  if 512 ≤ i then s
  else
    let s := if keep then s else { s with hub := { s.hub with
        binds := tput [] s.hub.binds i (if r.all fun w => w == 0 then [] else r), clash := s.hub.clash.filter fun j => j != i } }
    if bit (r.getD 0 0) 63 && !s.bindOk r then s.record 10 0 0 0 [BitVec.ofNat 64 i] else s
def execBindRecordWrite (i : Nat) (ws : List Word) (s : State) : Outcome State Fault Refusal := onEvent (fun s => s.bindWrite i ws) s

/-! ### RGNINV (R256, R375) -/

/-- Drop the TLB and lane-bank entries of one region, or of all, in every leader of the context, and reload the row-region stores of its banks. A
malformed entry that the reload meets is recorded; one that was dropped is met anew (R246, R375). -/
def State.rgninv (s : State) (c : Nat) (idx : Nat) (all : Bool) : State :=
  let mine := fun (l : Leader) => l.bind.any fun b => b.ctx == c
  let ropes := (List.range 192).filter fun n => mine (s.leader n)
  let keep := fun (es : List Region) => if all then [] else es.filter fun e => e.idx != idx
  let s := ropes.foldl (fun s n =>
    let l := s.leader n
    s.setLeader n { l with tlb := keep l.tlb, lanes := tmap [] (fun _ es => keep es) l.lanes }) s
  let x := s.ctx c
  let s := (s.setCtx c { x with badRgn := if all then [] else x.badRgn.filter fun i => i != idx }).noteBad c (s.badList c)
  let es := s.regionList c
  ropes.foldl (fun s n => (List.range 32).foldl (fun s j =>
    let g := bankOf n j
    s.setBank g { s.bank g with regions := s.bankRegions es g }) s) s
def execRgninv (d a : BitVec 5) (s : State) : Outcome State Fault Refusal :=
  onLeaderK (.rgninv d a) [a.toNat] (fun n s =>
    let W := s.xr n a.toNat
    let c := (s.leader n).ctxOf
    if bits W 62 12 ≠ 0 then s.trap n .illegal W 0
    else (s.rgninv c (bits W 11 0) (bit W 63)).result n d.toNat (BitVec.ofNat 64 (s.crowdedBanks c).length) 4) s

/-! ### SAVECTX and LOADCTX (R376, R377) -/

/-- The fault of the whole area, which is probed from its start. -/
def State.areaFault (s : State) (n va : Nat) (write : Bool) : Option (Cause × Nat) :=
  (lineParts va imageLen).findSome? fun p => (s.vaProbe n p.1 p.2 1 write).map fun c => (c, p.1)
/-- A leader's store of bytes that a probe has passed. -/
def State.areaPut (s : State) (n va : Nat) (bs : List (BitVec 8)) : State :=
  match s.translate n (.leader n) va bs.length { rd := false, wr := true, align := 1 } with
  | .ok (.row pa cls scope home) => s.storeRow n (.leader n) pa cls scope home bs
  | .ok (.remote part ..) => s.toPart (s.leader n).ctxOf part
  | _ => s
/-- Banks, arrays and the copy engine are at the boundaries that a pre-emption waits for. -/
def State.ropeSettled (s : State) (n : Nat) : Bool :=
  (s.leader n).copyAtBoundary && !(s.reqs.any fun r => r.leader == n && r.op != .fill)
    && ((List.range 32).all fun i => (s.bank (bankOf n i)).mayYield && (s.bank (bankOf n i)).owed.isEmpty) && ((List.range 4).all fun j => (s.array (4 * n + j)).mayYield)
def execSavectx (d a : BitVec 5) (s : State) : Outcome State Fault Refusal :=
  onLeaderK (.savectx d a) [a.toNat] (fun n s =>
    let va := (s.xr n a.toNat).toNat
    if va % 4096 ≠ 0 then s.trap n .misaligned (BitVec.ofNat 64 va) 0
    else match s.areaFault n va true with
    | some (c, at_) => (s.vaWalk n va (at_ + 1 - va)).trap n c (BitVec.ofNat 64 at_) 0
    | none => match s.commitFirst n with
      | some s => s
      | none =>
        let l := s.leader n
        match l.bind with
        | none => s.stall n 0x0B
        | some b =>
          if !s.ropeSettled n then s.stall n 0x0B
          else
            let f := s.saveFrame n b l.pendTrap
            let f := { f with leader := { (f.leader.xw d.toNat 0) with pc := l.pc + 4 } }
            let cyc := s.cycle
            let fr := s.free
            let s := s.vaTouch n l.wever va imageLen true
            let s1 := (lineParts va imageLen).foldl (fun s p =>
              s.areaPut n p.1 ((List.range p.2).map fun k => imageByte f cyc fr (p.1 - va + k))) s
            let s1 := { s1 with images := s1.images ++ [(b.ctx, va, cyc, fr, f)] }
            (s1.linesSaved n b).result n d.toNat (BitVec.ofNat 64 imageLen) 4) s
/-- Doublewords from bytes. -/
def dwords : Nat → List (BitVec 8) → List Word
  | 0, _ => []
  | k + 1, bs => BitVec.ofNat 64 (leNat (bs.take 8)) :: dwords k (bs.drop 8)
/-- The image that the bytes at `va` hold: a save that SAVECTX wrote in this context, there or where they were copied from, with the changes that keep
the layout; else the address of the first doubleword that does not, judged by the last save there (R377). -/
def State.imageAt (s : State) (n va : Nat) (bs : List (BitVec 8)) : Except Nat Frame :=
  let ws := dwords (imageLen / 8) bs
  let mine := (s.images.filter fun (e : Nat × Nat × Nat × Nat × Frame) => e.1 == (s.leader n).ctxOf).reverse
  let read := fun (e : Nat × Nat × Nat × Nat × Frame) => e.2.2.2.2.loadWords e.2.2.1 e.2.2.2.1 0 ws (e.2.2.2.2, false)
  match mine.findSome? fun e => (read e).toOption with
  | some g => .ok g
  | none => match (mine.find? fun e => e.2.1 == va).orElse fun _ => mine.head? with
    | none => .error va
    | some e => match read e with
      | .error o => .error (va + o)
      | .ok g => .ok g
/-- Replace the thread's state with an image (R377). -/
def State.loadImage (s : State) (n va : Nat) (f : Frame) : State :=
  let l := s.leader n
  let s := f.arrays.foldl (fun s e => s.setArray e.1 (s.restoredArray n e.1 e.2)) s
  let s := f.banks.foldl (fun s e => s.setBank e.1 ((s.bank e.1).restored e.2)) s
  let s := s.setLeader n { l.restored f.leader f.flags f.pend with issue := l.issue + 1, preempt := l.preempt, killed := l.killed }
  let x := s.ctx f.ctx
  let w := fun k => f.rpl.getD k 0
  let s := s.setCtx f.ctx { x with rplT := w 0, rplS := w 1, rplSat := w 2, rplUfl := w 3, rplCan := w 4, rplX := bit (w 5) 0 }
  f.openRows.foldl (fun s e => s.restoreSlot va f e) s
def execLoadctx (a : BitVec 5) (s : State) : Outcome State Fault Refusal :=
  onLeaderK (.loadctx a) [a.toNat] (fun n s =>
    let va := (s.xr n a.toNat).toNat
    if va % 4096 ≠ 0 then s.trap n .misaligned (BitVec.ofNat 64 va) 0
    else match s.areaFault n va false with
    | some (c, at_) => (s.vaWalk n va (at_ + 1 - va)).trap n c (BitVec.ofNat 64 at_) 0
    | none =>
      let pages := s.srcPages n (s.leader n).wever (BitVec.ofNat 64 va) 0 imageLen
      let gone := pages.filter fun p => !s.staged p.1 p.2
      if gone ≠ [] then (s.wantPages (s.leader n).taskOf gone).stall n 8 else
      let t := (s.usePages pages).vaTouch n (s.leader n).wever va imageLen false
      let bs := s.vaBytes n (s.leader n).wever va imageLen
      match bs.zipIdx.find? fun b => b.1.2 with
      | some b => t.consumeX n (va + b.2 / 8 * 8)
      | none =>
        let dw := fun k => BitVec.ofNat 64 (leNat ((bs.drop (8 * k)).take 8 |>.map fun b => b.1))
        let l := s.leader n
        let own := match l.bind with
          | some b => decide (bits (dw 0) 57 34 = b.ctx * 2 ^ 14 + b.inn) && decide (bits (dw 1) 63 61 = b.level ∧ bits (dw 1) 31 0 = b.ord % 256 * 2 ^ 24 + b.inst % 2 ^ 24)
          | none => false
        if !own then t.trap n .permission (BitVec.ofNat 64 va) 0
        else match s.imageAt n va (bs.map fun b => b.1) with
        | .error at_ => t.trap n .illegal (BitVec.ofNat 64 at_) 0
        | .ok f => match s.commitFirst n with
          | some s => s
          | none => if s.haltReady n then t.loadImage n va f else s.stall n 0x0B) s

/-! ### DIAGST and DIAGLD (R408 to R410) -/

/-- Counters of each class: agents and numbers (Tables 17.2, 18.8). -/
def counterOk (cls agent num : Nat) : Bool :=
  let inR := fun (n : Nat) (ks : List Nat) => decide (agent < n) && ks.contains num
  match cls with
  | 0 => inR 192 [0, 1, 2, 3, 4, 5, 6, 7, 8, 9, 10, 11, 0x10]
  | 1 => inR 6144 [0, 1, 2, 3, 8, 9, 0xA, 0xB, 0xC, 0xD]
  | 2 => inR 192 [0, 1, 2]
  | 3 => inR 768 [0, 1, 2, 3, 4]
  | 4 => inR 16 [0, 1]
  | 5 => inR 1 [0, 1]
  | 6 => inR 136 [0]
  | 7 => inR 6144 [0]
  | 8 => inR 1 [0]
  | 9 => inR 192 [0]
  | 10 => inR 8 [0, 1, 2, 3, 4, 5]
  | _ => false
/-- A diagnostic address that keeps Table 18.8. -/
def diagOk (D : Word) : Bool :=
  match bits D 63 60 with
  | 0 => decide (bits D 58 53 = 0 ∧ bits D 15 0 = 0 ∧ bits D 52 40 < 6144 ∧ bits D 26 16 < 1536) && (!bit D 59 || bits D 36 27 == 0)
  | 1 => decide (bits D 59 50 = 0 ∧ bits D 39 33 = 0 ∧ bits D 31 13 = 0 ∧ bits D 49 40 < 768 ∧ bits D 12 0 < 4896)
  | 2 => decide (bits D 59 50 = 0 ∧ bits D 39 25 = 0 ∧ bits D 15 7 = 0 ∧ bits D 49 40 < 768 ∧ bits D 6 0 < 96)
  | 3 => decide (bits D 59 48 = 0 ∧ bits D 43 40 = 0 ∧ bits D 15 8 = 0) && counterOk (bits D 47 44) (bits D 39 16) (bits D 7 0)
  | 4 => decide (bits D 59 48 = 0 ∧ bits D 39 2 = 0 ∧ bits D 47 40 < 192)
  | 5 => decide (bits D 59 8 = 0 ∧ bits D 7 0 < 0x0D)
  | 6 => decide (bits D 59 43 = 0 ∧ bits D 39 14 = 0 ∧ bits D 13 0 < 8704)
  | _ => false
/-- Set stored data and check bits of one word of a byte memory: check bits are listed where they are not the correct ones. -/
def eccSet (t : Tbl (BitVec 8)) (w : Nat) (d : Word) (cb : BitVec 8) : Tbl (BitVec 8) :=
  if cb = eccOf d then tdel t w else tins w cb (tdel t w)
/-- Check bits stored with a word. -/
def eccGet (t : Tbl (BitVec 8)) (w : Nat) (d : Word) : BitVec 8 :=
  match t.find? fun e => e.1 == w with
  | some e => e.2
  | none => eccOf d
/-- The word address of a cell. -/
def cellWord (D : Word) : Nat := rowAddr (bits D 52 40) (bits D 39 37) (bits D 36 27) (8 * bits D 26 16) / 8
/-- An older row-queue entry is aimed at the bank (R135). -/
def State.rowqAimed (s : State) (g : Nat) : Bool := (s.leader (ropeOf g)).rowq.any fun e => (e.todo ||| e.open_).getLsbD (rbiOf g)
/-- Enter a decoded word into a latch (R302, R409). -/
def State.diagLatch (s : State) (g k w : Nat) (d : Word) (cb : BitVec 8) : State :=
  let r := eccDecode d cb
  let sl := s.slot g k
  let bad := r.2.1 == .uncorrectable
  let s := s.senseLog g k sl.row w r.2.1 r.2.2
  s.setSlot g k { s.slot g k with
    latch := putBits sl.latch (64 * w) 64 r.1.toNat, poison := putBits sl.poison w 1 (if bad then 1 else 0) }
/-- The word is put into the cells; what a cache holds of it stays in that cache (R19, R409). -/
def State.diagCell (s : State) (w : Nat) (v : Word) (cb : BitVec 8) : State :=
  let holders := ((List.range 192).filter fun n => s.inL1 n (w / 16)) ++ if s.inL2 (w / 16) then [192] else []
  let old := holders.flatMap fun h => (List.range 8).filterMap fun k =>
    if s.cacheOld.any fun e => e.1 == h && e.2.1 == 8 * w + k then none else some (h, 8 * w + k, s.rowByte (8 * w + k))
  { s with rows := memPut s.rows (8 * w) (leBytes 8 v.toNat), ecc := eccSet s.ecc w v cb, cacheOld := s.cacheOld ++ old }
/-- Leader `n`'s diagnostic access to a row word that waits at its bank, or has been served there. -/
def State.diagReq (s : State) (n w : Nat) : Option Req :=
  s.reqs.find? fun r => r.leader == n && r.op == .diag && r.tgt.word == (0, w)
/-- A diagnostic access to a cell goes through the bank's foreign queue; the leader stalls until it is served, and then performs it (R408,
R409). -/
def State.atCell (s : State) (n w : Nat) (f : State → State) : State :=
  match s.diagReq n w with
  | none => (s.newReq n 0 .diag (8 * w) 8 (.row (8 * w) 0 0 (bankOfPa (8 * w))) true 0 false 0 true).stall n 0x0B
  | some r => if r.miss then s.stall n 0x0B else f (s.dropReq r.id)
/-- The checks of a DIAGST that come before it consumes poisoned data: its address, and the state of the latch that it names (R390, R409). -/
def State.diagstPre (s : State) (n a : Nat) : Option State :=
  let D := s.xr n a
  let sl := s.slot (bits D 52 40) (bits D 39 37)
  if !(s.leader n).clean a then none
  else if !diagOk D ∨ 2 < bits D 63 60 then some (s.trap n .illegal D 0)
  else if bits D 63 60 ≠ 0 ∨ !bit D 59 then none
  else if s.rowqAimed (bits D 52 40) then some (s.stall n 0x0B)
  else match sl.st with
    | .opening => some (s.stall n 0x0B)
    | .openClean | .openDirty | .commitPending => none
    | _ => some (s.trap n .rowState sl.status 0)
def execDiagst (d a : BitVec 5) (c : BitVec 8) (s : State) : Outcome State Fault Refusal :=
  onLeaderKC (.diagst d a c) [a.toNat, d.toNat] (fun n s => s.diagstPre n a.toNat) (fun n s =>
    let D := s.xr n a.toNat
    let v := s.xr n d.toNat
    let g := bits D 52 40
    let k := bits D 39 37
    let i := bits D 49 40
    if !diagOk D ∨ 2 < bits D 63 60 then s.trap n .illegal D 0
    else match bits D 63 60 with
    | 0 =>
      if bit D 59 then
        if s.rowqAimed g then s.stall n 0x0B
        else match (s.slot g k).st with
        | .opening => s.stall n 0x0B
        | .openClean | .openDirty | .commitPending => (s.diagLatch g k (bits D 26 16) v c).retire n 4
        | _ => s.trap n .rowState (s.slot g k).status 0
      else s.atCell n (cellWord D) fun s => (s.diagCell (cellWord D) v c).retire n 4
    | 1 =>
      let x := s.array i
      let p := if bit D 32 then 1 else 0
      let pl := x.plane p
      let w := bits D 12 0
      (s.setArray i (x.setPlane p { pl with data := memPut pl.data (8 * w) (leBytes 8 v.toNat), ecc := eccSet pl.ecc w v c })).retire n 4
    | _ =>
      let x := s.array i
      let L := bits D 24 16
      let ln := x.line L
      let w := bits D 6 0
      (s.setArray i (x.setLine L { vlen := max ln.vlen (2 * w + 2), dirty := true, data := memPut ln.data (8 * w) (leBytes 8 v.toNat)
                                   ecc := eccSet ln.ecc w v c })).retire n 4) s
/-- The value of an event counter (Table 17.2). -/
def State.counter (s : State) (cls agent num : Nat) : Nat :=
  let l := s.leader agent
  let b := s.bank agent
  let a := s.array agent
  let w := s.weights
  match cls with
  | 0 => if num = 0 then l.issue else if num = 0x10 then l.orphan else tget 0 l.stalls num
  | 1 => match num with
    | 0 => b.issue | 8 => b.ce | 9 => b.ue | 0xA => b.refdue | 0xB => b.closeRef * 2 ^ 32 + b.closeOpen % 2 ^ 32 | 0xC => b.alerts
    | 0xD => b.debtMax.toNat | k => tget 0 b.stalls k
  | 2 => match num with | 0 => l.retry | 1 => l.degradedN | _ => l.poisonedN
  | 3 => match num with | 0 => a.issue | 1 => a.throttled | 2 => a.ce | 3 => a.ue | _ => a.sdc
  | 4 => if num = 0 then tget 0 s.hub.portOrphan agent else tget 0 s.hub.portStale agent
  | 5 => if num = 0 then s.host.orphan else s.host.stale
  | 6 => tget 0 s.hub.sliceStale agent
  | 7 => b.fqStale
  | 8 => w.fcStale
  | 9 => l.stale
  | _ => match num with
    | 0 => tget 0 w.fills agent | 1 => tget 0 w.rereads agent | 2 => tget 0 w.uepages agent | 3 => tget 0 w.progs agent
    | 4 => tget 0 w.erasesN agent | _ => tget 0 w.retiredN agent
/-- The value that DIAGLD reads; with `cb`, the stored check bits. -/
def State.diagRead (s : State) (D : Word) (cb : Bool) : Word :=
  let sel := fun (d : Word) (c : BitVec 8) => if cb then c.setWidth 64 else d
  match bits D 63 60 with
  | 0 =>
    if bit D 59 then
      let sl := s.slot (bits D 52 40) (bits D 39 37)
      let w := bits D 26 16
      let d := sl.latch.extractLsb' (64 * w) 64
      sel d (if sl.poison.getLsbD w then eccPoison d else eccOf d)
    else
      let w := cellWord D
      sel (memDw s.rows (8 * w)) (s.rowEcc w)
  | 1 =>
    let pl := (s.array (bits D 49 40)).plane (if bit D 32 then 1 else 0)
    let d := memDw pl.data (8 * bits D 12 0)
    sel d (eccGet pl.ecc (bits D 12 0) d)
  | 2 =>
    let ln := (s.array (bits D 49 40)).line (bits D 24 16)
    let d := memDw ln.data (8 * bits D 6 0)
    sel d (eccGet ln.ecc (bits D 6 0) d)
  | 3 => BitVec.ofNat 64 (s.counter (bits D 47 44) (bits D 39 16) (bits D 7 0))
  | 4 => (s.leader (bits D 47 40)).spineLog.getD (bits D 1 0) 0
  | 5 => BitVec.ofNat 64 (Config.weight (bits D 7 0))
  | _ => BitVec.ofNat 64 (tget Phys.reset s.weights.phys (8704 * bits D 42 40 + bits D 13 0)).erases
def execDiagld (d a : BitVec 5) (c : BitVec 1) (s : State) : Outcome State Fault Refusal :=
  onLeaderK (.diagld d a c) [a.toNat] (fun n s =>
    let D := s.xr n a.toNat
    if !diagOk D ∨ (c = 1 ∧ 2 < bits D 63 60) then s.trap n .illegal D 0
    else if bits D 63 60 = 0 ∧ bit D 59 ∧ s.rowqAimed (bits D 52 40) then s.stall n 0x0B
    else if bits D 63 60 = 0 ∧ bit D 59 = false then s.atCell n (cellWord D) fun s => s.result n d.toNat (s.diagRead D (c == 1)) 4
    else s.result n d.toNat (s.diagRead D (c == 1)) 4) s

end Sys2Proof.Machine
end

