-- ==== Sys2Proof/Machine/Power.lean ====
section
/-! DEFINITION. The purser: interval ends, throttle and permit, ramps and fillers, and the thermal rules (R378 to R386, R427). -/
namespace Sys2Proof.Machine

open Host (Outcome)

/-! ### Charges (R378 to R380) -/

/-- The EN class of an event class: 0 row, 1 matrix, 2 memory, 3 link, 4 none but the total (Table 17.1). Number 0xD is the model's own, for the
filler cycles of an array that ran no format, counted in picojoules (log entry 42). -/
def weightClass (num : Nat) : Nat :=
  if num < 2 then 0 else if num < 8 ∨ num = 0xD then 1 else if num < 0xB then 2 else if num = 0xB then 3 else 4
/-- Add `pj` picojoules of a class to a task's totals. -/
def Task.charged (t : Task) (cls pj : Nat) : Task :=
  let t := { t with total := t.total + pj }
  match cls with
  | 0 => { t with row := t.row + pj }
  | 1 => { t with mat := t.mat + pj }
  | 2 => { t with mem := t.mem + pj }
  | 3 => { t with link := t.link + pj }
  | _ => t
/-- The energy registers at an interval end: nanojoules of the exact totals. -/
def Task.latched (t : Task) : Task :=
  { t with enTask := t.total / 1000, enMat := t.mat / 1000, enRow := t.row / 1000, enMem := t.mem / 1000, enLink := t.link / 1000 }
/-- The charge of one entry of the interval's counts: event class, task, count. -/
def chargeOf (e : Nat × Nat × Nat) : Nat := if e.1 = 0xD then e.2.2 else e.2.2 * Config.weight e.1
/-- Bound-rope cycles of a task not yet charged, in picojoules. -/
def Task.ropeDue (t : Task) : Nat := (t.ropeCyc - t.ropeCharged) * Config.weight 0x0C

/-! ### Throttle and permit (R382, R384) -/

/-- STEP after an interval with draw `pj` picojoules: a draw of one watt is 10^6 picojoules in a microsecond. -/
def Hub.throttled (h : Hub) (pj : Nat) (deadline : Bool) : Hub :=
  let cap := h.cap * 1000000
  if cap < pj then
    { h with low := 0, step := if 15 ≤ h.step ∨ (deadline ∧ h.hstep ≤ h.step) then h.step else h.step + 1 }
  else if pj * 16 < 15 * cap then
    if h.low = 7 then { h with low := 0, step := h.step - 1 } else { h with low := h.low + 1 }
  else { h with low := 0 }
/-- The permit value after an interval whose EN.ROW charges are `pj`. -/
def Hub.permitted (h : Hub) (pj : Nat) : Hub :=
  let w := h.wrow * 1000000
  if w < pj then { h with rowLow := 0, permit := max 4 (h.permit - 4) }
  else if pj * 8 < 7 * w then
    if h.rowLow = 7 then { h with rowLow := 0, permit := max h.permit (min h.pmax (h.permit + 4)) } else { h with rowLow := h.rowLow + 1 }
  else { h with rowLow := 0 }
/-- The interval's counts: those of the state, the bound-rope cycles apart, and the beats `bs` of transfers sent again, by task (log entry 41). -/
def State.intervalCounts (s : State) (bs : List (Nat × Nat)) : List (Nat × Nat × Nat) :=
  (s.counts.map fun (e : Nat × Nat) => (e.1 / 2 ^ 33, e.1 % 2 ^ 33, e.2)) ++ bs.map fun e => (8, e.1, e.2)
/-- PURSER_INTERVAL_END: the interval's charges reach the tasks' totals and registers; the throttle and the permit are judged. The events are
the state's own counts; to the spine beats among them `cs` adds those of transfers sent again, by task (weight number 8), task 0 standing for CTX 0. -/
def State.purserEnd (s : State) (cs : List (Nat × Nat × Nat)) : State :=
  if s.time / 1000 ≤ s.hub.lastUs then s else
  let cs := s.intervalCounts ((cs.filter fun e => e.1 == 8).map fun e => e.2)
  let ropes := s.tasks.foldl (fun n e => n + e.2.ropeDue) 0
  let draw := cs.foldl (fun n e => n + chargeOf e) ropes
  let rows := cs.foldl (fun n e => n + if weightClass e.1 = 0 then chargeOf e else 0) 0
  let s := cs.foldl (fun s e => if e.2.1 = 0 ∨ (s.task e.2.1).rcd = [] then s
                                else s.setTask e.2.1 ((s.task e.2.1).charged (weightClass e.1) (chargeOf e))) s
  let tasks := tmap Task.reset (fun _ (t : Task) => ({ t.charged 4 t.ropeDue with ropeCharged := t.ropeCyc }).latched) s.tasks
  let hub := (s.hub.throttled draw s.deadlineBound).permitted rows
  { s with counts := [], tasks := tasks, hub := { hub with lastUs := s.hub.lastUs + 1, thermal := false } }
def execPurserIntervalEnd (cs : List (Nat × Nat × Nat)) (s : State) : Outcome State Fault Refusal := onEvent (fun s => s.purserEnd cs) s
/-- STEP_ARRIVAL: the purser's throttle step reaches array `a` (R383). -/
def execStepArrival (a : Nat) (s : State) : Outcome State Fault Refusal :=
  onEvent (fun s => if 768 ≤ a then s else s.setArray a { s.array a with step := s.hub.step }) s

/-! ### Ramps (R385, R386) -/

/-- The array issues, or with no binding fills, in this many of every 16 cycles. -/
def Array_.enabled (a : Array_) : Nat := if a.filler && a.owner.isNone then a.ramp - 1 else min a.ramp (16 - a.step)
/-- The array's ramp interval, of units of 0.1 µs, has ended. -/
def Array_.rampDue (a : Array_) (now : Nat) : Bool := decide (a.rampAt + 250 * a.rampI ≤ now)
/-- The end of its latest ramp interval. -/
def Array_.rampMark (a : Array_) (now : Nat) : Nat := a.rampAt + (now - a.rampAt) / (250 * a.rampI) * (250 * a.rampI)
/-- Watts × 6,400 that one more issue cycle in 16 adds; a step that the throttle makes ineffective adds nothing. -/
def State.rampAdds (s : State) (i : Nat) : Nat :=
  let a := s.array i
  if 16 - a.step ≤ a.ramp then 0
  else if a.lastFmt = 0 then (s.openAt 16 (2 ^ 56 + i)).toNat
  else Config.weight a.lastFmt
/-- The interval ends of arrays that the slew limit left over have passed: they keep k until a later one. -/
def State.keepRamps (s : State) (as : List Nat) : State :=
  as.foldl (fun s i => s.setArray i { s.array i with rampAt := (s.array i).rampMark s.cycle }) s
/-- Raise k on the ramping arrays `as`, in their order, while the sum of the added draws `sum` stays within the slew limit. -/
def State.raiseRamps (s : State) : Nat → List Nat → State
  | _, [] => s
  | sum, i :: r =>
    let a := s.array i
    let sum' := sum + s.rampAdds i
    if a.rampSlew * a.rampI * 640 < sum' then s.keepRamps (i :: r)
    else State.raiseRamps (s.setArray i { a with ramp := a.ramp + 1, rampAt := a.rampMark s.cycle }) sum' r
/-- Insert an array in order of binding, the lower package number first within one binding. -/
def State.insertRamp (s : State) (i : Nat) : List Nat → List Nat
  | [] => [i]
  | j :: r =>
    if (s.array i).bindAt < (s.array j).bindAt ∨ ((s.array i).bindAt = (s.array j).bindAt ∧ i < j) then i :: j :: r
    else j :: State.insertRamp s i r
/-- RAMP_INTERVAL_END: ramping arrays whose interval has ended rise, the least recently bound first; filler arrays fall, those that a new binding
has taken and not yet issued on included. -/
def State.rampEnd (s : State) : State :=
  let due := s.arrays.filter fun e => e.2.rampDue s.cycle
  let up := (due.filter fun e => e.2.owner.isSome && !e.2.filler && decide (e.2.ramp < 16)).foldl (fun l e => s.insertRamp e.1 l) []
  let down := (due.filter fun e => e.2.filler && decide (0 < e.2.ramp)).map fun e => e.1
  let s := down.foldl (fun s i =>
    let a := s.array i
    let s := s.fillerCharge i (250 * a.rampI)
    s.setArray i { a with ramp := if a.owner.isSome then max 1 (a.ramp - 1) else a.ramp - 1, filler := decide (1 < a.ramp), rampAt := a.rampMark s.cycle }) s
  s.raiseRamps 0 up
def execRampIntervalEnd (s : State) : Outcome State Fault Refusal := onEvent (fun s => s.rampEnd) s

/-! ### Heat (R427) -/

/-- THERMAL_THROTTLE: the hottest sensor is past 100 °C; STEP rises once in the interval, past HSTEP if need be, and tasks with a deadline
are judged again when it does (R371, R372). -/
def State.thermalStep (s : State) : State :=
  if s.hub.thermal then s else
  let up := min 15 (s.hub.step + 1)
  let s := { s with hub := { s.hub with thermal := true, step := up } }
  if s.hub.hstep < up then s.rejudge fun _ => true else s
def execThermalThrottle (s : State) : Outcome State Fault Refusal := onEvent (fun s => s.thermalStep) s
/-- THERMAL_SHUTDOWN: at 110 °C the package powers down, after it has written its record. -/
def execThermalShutdown (s : State) : Outcome State Fault Refusal :=
  onEvent (fun s => { s.record 5 0 0 0 [110] with down := true }) s

end Sys2Proof.Machine
end

