-- ==== Sys2Proof/Machine/Edges.lean ====
section
/-! DEFINITION. The edges of the package: the host port with its windows, register page and mailbox, the links, the operator's settings, and
package reset with the root of trust (R6, R22, R40, R411 to R424, R426). -/
namespace Sys2Proof.Machine

open Host (Outcome)

/-! ### Messages (R414 to R416) -/

/-- Send a message to the host. A completion's tag stays outstanding until the message has been received. -/
def State.send (s : State) (m : HostMsg) : State := { s with host := { s.host with out := s.host.out ++ [m] } }
/-- A completion of a READ (0x81) or a WRITE (0x82). -/
def State.complete (s : State) (opc tag stat : Nat) (data : List (BitVec 8)) : State :=
  let s := s.send { opc := opc, tag := tag, stat := stat, data := data, slot := 0 }
  { s with host := { s.host with tags := s.host.tags ++ [tag] } }
/-- Fields of a header (Table 19.7). -/
def hdrOpc (h : Word) : Nat := bits h 63 56
def hdrLen (h : Word) : Nat := bits h 47 42 + 1
def hdrTag (h : Word) : Nat := bits h 41 32
/-- A RES0 field or STAT of a request's header is not zero. -/
def hdrBad (h : Word) : Bool := decide (bits h 55 48 ≠ 0 ∨ bits h 31 0 ≠ 0)

/-! ### Windows (R412, R413, R418) -/

/-- Window `w`, when its entry is valid: context, bytes, host base, virtual base (Table 19.1). -/
def State.hostWindow (s : State) (w : Nat) : Option (Nat × Nat × Nat × Nat) :=
  let d := fun k => (tget [] s.host.windows w).getD k 0
  if w < 64 ∧ bit (d 0) 63 then some (bits (d 0) 55 46, 128 * bits (d 0) 45 0, bits (d 1) 51 0, bits (d 2) 51 0) else none
/-- The first window that claims all of `[h, h + len)`. -/
def State.windowAt (s : State) (h len : Nat) : Option (Nat × Nat × Nat × Nat) :=
  (List.range 64).findSome? fun w => match s.hostWindow w with
    | some x => if x.2.2.1 ≤ h ∧ h + len ≤ x.2.2.1 + x.2.1 then some x else none
    | none => none
/-- The probe of a host access, as a leader access that only SYNC and PHASED regions of this part admit. -/
def State.hostProbe (s : State) (c va len : Nat) (write : Bool) : Except Cause Target :=
  if va % len ≠ 0 then .error .misaligned
  else if scratchBase ≤ va then .error .regionMiss
  else match s.probe c (.leader 192) (s.walk c va) va len { rd := !write, wr := write, align := len } with
    | .error e => .error e
    | .ok (.row pa cls scope home) => if cls = 1 ∨ cls = 3 then .ok (.row pa cls scope home) else .error .permission
    | .ok _ => .error .permission
/-- What the endpoint's accesses of context `c` leave behind: the walks of the aligned ones, and their lines at the slices, charged to CTX 0 (R246,
R251, R258, R379). -/
def State.hostTouch (s : State) (c : Nat) (ps : List (Nat × Nat)) (write : Bool) : State :=
  let s := s.hubWalk c 0 ((ps.filter fun p => decide (p.1 % p.2 = 0 ∧ p.1 < scratchBase)).map fun p => p.1)
  ps.foldl (fun s p => match s.hostProbe c p.1 p.2 write with
    | .ok (.row pa cls scope home) =>
      if write then s.l2Use 0 { line := pa / 128, dirty := true, cls := cls, scope := scope, home := home }
      else s.sliceLine hubRope c (s.ctx c).inn 0 p.1 pa cls scope home
    | _ => s) s
/-- Performed or accepted: SYNC data is written at its slice, PHASED data waits for a belay of the instance (R413). -/
def State.hostPut (s : State) (c pa cls scope home : Nat) (bs : List (BitVec 8)) : State :=
  if cls = 3 then s.writeRows pa bs
  else { s with pend := s.pend ++ [{ agent := hostAgent, ctx := c, inn := (s.ctx c).inn, task := 0, kind := .store, cmd := 0, done := true
                                     seen := true, cls := cls, scope := scope, home := home, pa := pa, data := bs
                                     strip := false }] }
/-- The STAT code of a failed probe (Table 19.7). -/
def statOf : Cause → Nat
  | .misaligned => 2
  | .regionMiss => 3
  | _ => 4
/-- A request that R358 drops at the endpoint counts there. -/
def State.hostStale (s : State) : State := { s with host := { s.host with stale := s.host.stale + 1 } }

/-! ### The register page and the mailbox (R415, R417) -/

/-- Registers of the page by offset: 0 EPID, 1 EPSTAT, 2 REQ.i, 3 RSP.i, 4 EVEN (Table 19.8). -/
inductive PageReg where
  | epid | epstat | req (i : Nat) | rsp (i : Nat) | even
  deriving DecidableEq, Repr
def pageReg (off : Nat) : Option PageReg :=
  if off = 0 then some .epid
  else if off = 8 then some .epstat
  else if off = 0x2000 then some .even
  else if 0x1000 ≤ off ∧ off < 0x1100 then
    (if off % 16 = 0 then some (.req ((off - 0x1000) / 16)) else if off % 16 = 8 then some (.rsp ((off - 0x1000) / 16)) else none)
  else none
def State.mail (s : State) (i : Nat) : MailSlot := tget MailSlot.reset s.host.slots i
def State.setMail (s : State) (i : Nat) (m : MailSlot) : State :=
  { s with host := { s.host with slots := tput MailSlot.reset s.host.slots i m } }
/-- The value of a page register. -/
def State.pageRead (s : State) : PageReg → Word
  | .epid => 0x40100001
  | .epstat => BitVec.ofNat 64 ((if s.hub.recovery then 1 else 0) + (if s.hub.service then 2 else 0))
  | .req i => (s.mail i).req
  | .rsp i => (s.mail i).rsp
  | .even => s.host.even
/-- A write of REQ: the register takes the value (R5); busy, it sets OVR and starts nothing; with a nonzero OP it starts a request and
clears DONE (R417). -/
def State.reqWrite (s : State) (i : Nat) (v : Word) : State :=
  let m := s.mail i
  let v := v &&& ~~~0x0C00000000000000#64
  if m.busy then s.setMail i { m with req := v, rsp := m.rsp ||| 0x4000000000000000#64 }
  else if bits v 63 60 = 0 then s.setMail i { m with req := v }
  else
    let k := s.host.order + 1
    let s := s.setMail i { req := v, cmd := v, rsp := m.rsp &&& ~~~0x8000000000000000#64, busy := true, order := k }
    { s with host := { s.host with order := k } }
/-- A write of a page register; the read-only ones do not change. -/
def State.pageWrite (s : State) (r : PageReg) (v : Word) : State :=
  match r with
  | .epid | .epstat => s
  | .req i => s.reqWrite i v
  | .rsp i => let m := s.mail i
              s.setMail i { m with rsp := if bit v 62 then m.rsp &&& ~~~0x4000000000000000#64 else m.rsp }
  | .even => { s with host := { s.host with even := v &&& 0xFFFF#64 } }

/-! ### READ and WRITE (R413, R415, R416) -/

/-- The address lies in the register page. -/
def State.inPage (s : State) (h : Nat) : Bool := decide (s.host.ebase ≤ h) && decide (h < s.host.ebase + 65536)
/-- The page register that an access names, if it is an aligned access of 8 bytes at a listed offset. -/
def State.pageAt (s : State) (h len : Nat) : Option PageReg := if len = 8 then pageReg (h - s.host.ebase) else none
/-- A READ that is not dropped. -/
def State.hostReadAt (s : State) (tag h len : Nat) : State :=
  if s.inPage h then match s.pageAt h len with
    | none => s.complete 0x81 tag 6 []
    | some r => s.complete 0x81 tag 0 (leBytes 8 (s.pageRead r).toNat)
  else match s.windowAt h len with
    | none => s.hostStale.complete 0x81 tag 1 []
    | some (c, _, hb, vb) =>
      if c ≠ 0 ∧ (s.ctx c).st ≠ 1 then s.hostStale.complete 0x81 tag 1 []
      else
        let u := s.hostTouch c [(vb + (h - hb), len)] false
        match s.hostProbe c (vb + (h - hb)) len false with
        | .error e => u.complete 0x81 tag (statOf e) []
        | .ok t =>
          let bs := (List.range len).map fun k => s.hubByte (nobody c) 0 s.weights.epoch (t.plus k)
          if bs.any fun b => b.2 then u.complete 0x81 tag 5 [] else (u.charge 0x0B 0 len).complete 0x81 tag 0 (bs.map fun b => b.1)
/-- A WRITE that is not dropped. -/
def State.hostWriteAt (s : State) (tag h : Nat) (data : List (BitVec 8)) : State :=
  let len := data.length
  if s.inPage h then match s.pageAt h len with
    | none => s.complete 0x82 tag 6 []
    | some r => (s.pageWrite r (BitVec.ofNat 64 (leNat data))).complete 0x82 tag 0 []
  else match s.windowAt h len with
    | none => s.hostStale.complete 0x82 tag 1 []
    | some (c, _, hb, vb) =>
      if c ≠ 0 ∧ (s.ctx c).st ≠ 1 then s.hostStale.complete 0x82 tag 1 []
      else
        let u := s.hostTouch c [(vb + (h - hb), len)] true
        match s.hostProbe c (vb + (h - hb)) len true with
        | .error e => u.complete 0x82 tag (statOf e) []
        | .ok (.row pa cls scope home) => ((u.hostPut c pa cls scope home data).charge 0x0B 0 len).complete 0x82 tag 0 []
        | .ok _ => u.complete 0x82 tag 4 []
/-- A message of the host: an idle slot does nothing; a request whose tag is still outstanding is dropped and recorded; a malformed or
reserved header completes with STAT 7; a READ or WRITE is served. Payload bytes that the message does not carry are zero. -/
def State.hostMessage (s : State) (h0 h1 : Word) (data : List (BitVec 8)) : State :=
  let tag := hdrTag h0
  if !s.hub.link || hdrOpc h0 == 0 then s
  else if s.host.tags.contains tag then s.record 5 0 0 0 [h0]
  else match hdrOpc h0 with
    | 1 => if hdrBad h0 then s.complete 0x81 tag 7 [] else s.hostReadAt tag h1.toNat (hdrLen h0)
    | 2 => if hdrBad h0 then s.complete 0x82 tag 7 []
           else s.hostWriteAt tag h1.toNat ((List.range (hdrLen h0)).map fun k => data.getD k 0)
    | _ => s.complete 0x82 tag 7 []
/-- HOST_READ: a message whose OPC is READ. -/
def execHostRead (h0 h1 : Word) (s : State) : Outcome State Fault Refusal :=
  onEvent (fun s => if hdrOpc h0 = 1 then s.hostMessage h0 h1 [] else s) s
/-- HOST_WRITE: a message with any other OPC, with the payload that follows it. -/
def execHostWrite (h0 h1 : Word) (data : List (BitVec 8)) (s : State) : Outcome State Fault Refusal :=
  onEvent (fun s => if hdrOpc h0 = 1 then s else s.hostMessage h0 h1 data) s
/-- REGISTER_WRITE: a host write of 8 bytes at offset `off` of the register page. -/
def execRegisterWrite (tag off : Nat) (v : Word) (s : State) : Outcome State Fault Refusal :=
  onEvent (fun s =>
    if s.host.tags.contains tag || !s.hub.link then s
    else match pageReg off with
      | none => s.complete 0x82 (tag % 1024) 6 []
      | some r => (s.pageWrite r v).complete 0x82 (tag % 1024) 0 []) s

/-! ### The mailbox operations (R365, R417, R418, R424, R426) -/

/-- Slot `i` is the next that the hub serves: its request waits and no other arrived before it. -/
def State.mailNext (s : State) (i : Nat) : Bool :=
  let m := s.mail i
  m.busy && m.order != 0 && s.host.slots.all fun e => !e.2.busy || e.2.order == 0 || decide (m.order ≤ e.2.order)
/-- Serve slot `i`'s request when its OP is one of `ops`. In recovery every OP but ATTEST is refused (R421). -/
def State.serveMail (s : State) (i : Nat) (ops : List Nat) (f : State → Nat → Nat → State) : State :=
  let v := (s.mail i).cmd
  let op := bits v 63 60
  if !s.mailNext i || !ops.contains op then s
  else
    let s := s.setMail i { s.mail i with order := 0 }
    if s.hub.recovery && op != 3 then s.mailDone i 0x21 0xB0 0 else f s (bits v 57 52) (bits v 51 0)
/-- `[va, va + len)` lies in window `w`: the window's context. -/
def State.mailWindow (s : State) (w va len : Nat) : Option Nat :=
  match s.hostWindow w with
  | some (c, n, _, vb) => if vb ≤ va ∧ va + len ≤ vb + n then some c else none
  | none => none
/-- MAILBOX_LAUNCH (R418): the record lies in the window; the request goes to the hub's launch queue. -/
def execMailboxLaunch (i : Nat) (s : State) : Outcome State Fault Refusal :=
  onEvent (fun s => s.serveMail i [1] fun s w arg =>
    match s.mailWindow w arg 256 with
    | none => s.mailDone i 0x21 4 0
    | some c =>
      let r : LaunchReq := { leader := none, slot := some i, ctx := c, inn := (s.ctx c).inn, task := 0, level := 2, va := arg }
      { s with hub := { s.hub with arriving := s.hub.arriving ++ [r] } }) s
/-- MAILBOX_KILL (R418): T is ARG[50:0], FREE is ARG[51]. -/
def execMailboxKill (i : Nat) (s : State) : Outcome State Fault Refusal :=
  onEvent (fun s => s.serveMail i [2] fun s _ arg =>
    let T : Word := BitVec.ofNat 64 (arg % 2 ^ 51 + arg / 2 ^ 51 * 2 ^ 63)
    match s.killResult T with
    | none => s.mailDone i 0x21 1 0
    | some (r, go) => (if go then s.startKill (bits T 23 14) (bits T 13 0) (bit T 63) else s).mailDone i 0 0 r.toNat) s
/-- The attestation report over a nonce, without its signature (Table 19.4). -/
def State.report (s : State) (nonce : List (BitVec 8)) : List (BitVec 8) :=
  let pad := fun (n : Nat) (bs : List (BitVec 8)) => (List.range n).map fun k => bs.getD k 0
  pad 32 nonce ++ pad 32 Config.identityKey ++ ((List.range 3).flatMap fun k => pad 48 (s.hub.booted.getD k [])) ++ leBytes 4 Config.minSecurityVersion
    ++ leBytes 4 s.hub.cap ++ leBytes 4 s.hub.staging ++ leBytes 8 Config.serial ++ leBytes 8 s.time ++ leBytes 20 0
/-- Pieces of at most 32 bytes, each aligned to its size, from `va` on. -/
def hostPieces (va len : Nat) : List (Nat × Nat) :=
  if va % 32 = 0 then (List.range (len / 32)).map fun k => (va + 32 * k, 32) else (List.range len).map fun k => (va + k, 1)
/-- MAILBOX_ATTEST (R424): the nonce is read and the signed report written through the window; a fault gives its cause and writes nothing. -/
def State.attest (s : State) (i w arg : Nat) : State :=
  match s.mailWindow w arg 352 with
  | none => s.mailDone i 0x21 4 0
  | some c =>
    if c ≠ 0 ∧ (s.ctx c).st ≠ 1 then s.mailDone i 0x21 4 0
    else
      let fault := fun (ps : List (Nat × Nat)) (wr : Bool) => ps.findSome? fun p => match s.hostProbe c p.1 p.2 wr with
        | .error e => some e.code
        | .ok _ => none
      let u := (s.hostTouch c (hostPieces arg 32) false).hostTouch c (hostPieces (arg + 32) 320) true
      match fault (hostPieces arg 32) false, fault (hostPieces (arg + 32) 320) true with
      | some e, _ => u.mailDone i 0x21 e 0
      | none, some e => u.mailDone i 0x21 e 0
      | none, none =>
        let bs := (hostPieces arg 32).flatMap fun p => match s.hostProbe c p.1 p.2 false with
          | .ok t => (List.range p.2).map fun k => s.hubByte (nobody c) 0 s.weights.epoch (t.plus k)
          | .error _ => []
        if bs.any fun b => b.2 then u.mailDone i 0x21 0x10 0
        else
          let body := s.report (bs.map fun b => b.1)
          let sig := Config.identitySign (Config.sha512 body)
          let rep := body ++ (List.range 64).map fun k => sig.getD k 0
          let t := (hostPieces (arg + 32) 320).foldl (fun t p => match s.hostProbe c p.1 p.2 true with
            | .ok (.row pa cls scope home) => t.hostPut c pa cls scope home ((rep.drop (p.1 - (arg + 32))).take p.2)
            | _ => t) u
          t.mailDone i 0 0 0
def execMailboxAttest (i : Nat) (s : State) : Outcome State Fault Refusal :=
  onEvent (fun s => s.serveMail i [3] fun s w arg => s.attest i w arg) s
/-- MAILBOX_REPLAY (R426): the context and the recorded task that its next re-run launch takes its verdicts from. -/
def execMailboxReplay (i : Nat) (s : State) : Outcome State Fault Refusal :=
  onEvent (fun s => s.serveMail i [4] fun s _ arg =>
    { s with hub := { s.hub with replay := some (arg / 2 ^ 32 % 1024, arg % 2 ^ 32) } }.mailDone i 0 0 0) s
/-- MAILBOX_BAD_OP (R417). -/
def execMailboxBadOp (i : Nat) (s : State) : Outcome State Fault Refusal :=
  onEvent (fun s => s.serveMail i [5, 6, 7, 8, 9, 10, 11, 12, 13, 14, 15] fun s _ _ => s.mailDone i 0x20 0 0) s
/-- WINDOW_ENTRY_WRITE: management firmware writes window entry `i`; reserved bits are zero (Table 19.1). -/
def execWindowEntryWrite (i : Nat) (ws : List Word) (s : State) : Outcome State Fault Refusal :=
  onEvent (fun s =>
    let d := fun k => ws.getD k 0
    let e := [d 0 &&& 0x80FFFFFFFFFFFFFF#64, d 1 &&& 0x000FFFFFFFFFFF80#64, d 2 &&& 0x000FFFFFFFFFFF80#64]
    if 64 ≤ i then s else { s with host := { s.host with windows := tput [] s.host.windows i (if e = [0, 0, 0] then [] else e) } }) s

/-! ### Links (R411, R419) -/

/-- UCIE_LINK_TRAINING: the link to the host trains, or is down while it trains again. -/
def execUcieLinkTraining (ok : Bool) (s : State) : Outcome State Fault Refusal :=
  onEvent (fun s => { s with hub := { s.hub with link := ok } }) s
/-- FLIT_RETRY: the failed flit is sent again at link level, so its requests are delivered once and in order: nothing else changes. -/
def execFlitRetry (_port : Nat) (s : State) : Outcome State Fault Refusal := onEvent (fun s => s) s

/-! ### Operator settings (R22, R40, R330, R331, R371, R384, R385, R415, R419, R425) -/

/-- OPERATOR_SETTING_CHANGE: setting `which` takes the value `v` when it lies in the setting's range. 0 cap, 1 slew limit, 2 ramp interval,
3 HSTEP, 4 W_row, 5 P_max; 6 staging GiB, 7 ring MiB and 8 EBASE for the next package reset; 9 install purse; 10 the row address of the ring's region for the next package reset; 16 to 23 endurance budget of
a weight stack; from 0x10000 on the port of part `which` − 0x10000. -/
def State.setting (s : State) (which v : Nat) : State :=
  let h := s.hub
  let put := fun (ok : Bool) (h' : Hub) => if ok then { s with hub := h' } else s
  match which with
  | 0 => put (decide (1600 ≤ v ∧ v ≤ 4800)) { h with cap := v }
  | 1 => put (decide (100 ≤ v ∧ v ≤ 1600)) { h with slew := v }
  | 2 => put (decide (1 ≤ v ∧ v ≤ 100)) { h with interval := v }
  | 3 => if v ≤ 12 then { s with hub := { h with hstep := v } }.holdStep s.deadlineBound else s
  | 4 => put (decide (100 ≤ v ∧ v ≤ 1200)) { h with wrow := v }
  | 5 => put (decide (4 ≤ v ∧ v ≤ 32)) { h with pmax := v }
  | 6 => put (decide (4 ≤ v ∧ v ≤ 32 ∧ v % 4 = 0)) { h with bootStaging := v }
  | 7 => put (decide (64 ≤ v ∧ v ≤ 4096)) { h with bootRing := v }
  | 8 => put (decide (v % 65536 = 0 ∧ v < 2 ^ 52)) { h with bootEbase := v }
  | 10 => put (decide (v % 128 = 0 ∧ v < 2 ^ 40)) { h with bootRingAt := some v }
  | 9 => if v ≤ 2 ^ 48 then { s with weights := { s.weights with purseSet := v, purse := v } } else s
  | _ =>
    if 16 ≤ which ∧ which < 24 then
      (if 1 ≤ v ∧ v ≤ 3000 then { s with weights := { s.weights with budget := tput 2700 s.weights.budget (which - 16) v } } else s)
    else if 0x10000 ≤ which ∧ which < 0x10000 + 8192 then
      { s with hub := { h with routes := tput 0 h.routes (which - 0x10000) (min v 16) } }
    else s
def execOperatorSettingChange (which v : Nat) (s : State) : Outcome State Fault Refusal := onEvent (fun s => s.setting which v) s

/-! ### Package reset and boot (R6, R421, R422) -/

/-- The little-endian field of `n` bytes at offset `o` of an image. -/
def imageField (m : List (BitVec 8)) (o n : Nat) : Nat := leNat ((m.drop o).take n)
/-- The largest body of a kind (Table 19.9). -/
def bodyLimit (kind : Nat) : Nat := match kind with | 1 => 32 * 2 ^ 20 | 2 => 4 * 2 ^ 20 | _ => 2 ^ 20
/-- The root's checks of one image at its place `kind` in the boot order. -/
def imageOk (kind : Nat) (m : List (BitVec 8)) : Bool :=
  let zero := fun (o n : Nat) => ((m.drop o).take n).all fun b => b == 0
  let len := imageField m 16 8
  let key := (m.drop 192).take 32
  decide (256 ≤ m.length ∧ imageField m 0 4 = 0x09194C59 ∧ imageField m 4 2 = kind ∧ imageField m 6 2 = 1
    ∧ imageField m 8 4 ≤ 32 ∧ Config.minSecurityVersion ≤ imageField m 8 4 ∧ imageField m 12 4 ≤ 3
    ∧ len ≠ 0 ∧ len % 64 = 0 ∧ len ≤ bodyLimit kind ∧ m.length = 256 + len
    ∧ imageField m 24 8 % 64 = 0 ∧ imageField m 32 8 % 4 = 0 ∧ imageField m 32 8 < len)
  && zero 40 88 && zero 224 32 && (Config.sha512 key == Config.vendorKeyDigest (imageField m 12 4))
  && Config.ed25519Verify key (Config.sha512 (m.take 128 ++ m.drop 256)) ((m.drop 128).take 64)
/-- The digests of the images that loaded, in boot order, up to the first that fails. -/
def bootImages (kind : Nat) : List (List (BitVec 8)) → List (List (BitVec 8))
  | [] => []
  | m :: r => if imageOk kind m then ((Config.sha512 (m.take 128 ++ m.drop 256)).take 48) :: bootImages (kind + 1) r else []
/-- What a package reset keeps: the flash, its endurance counters, and the operator's settings; RAMP takes its reset value (Table 9.3). -/
def Weights.kept (w : Weights) : Weights :=
  { Weights.reset with
    exts := w.exts, phys := w.phys, bytes := w.bytes, purse := w.purse, purseSet := w.purseSet, budget := w.budget
    erasesN := w.erasesN, retiredN := w.retiredN, epoch := w.epoch, nextId := w.nextId }
def Hub.kept (h : Hub) : Hub :=
  { Hub.reset with
    cap := h.cap, hstep := h.hstep, wrow := h.wrow, pmax := h.pmax, permit := min 16 h.pmax
    bootStaging := h.bootStaging, bootRing := h.bootRing, bootRingAt := h.bootRingAt, bootEbase := h.bootEbase, staging := h.bootStaging, routes := h.routes }
/-- PACKAGE_RESET: every field takes its reset value and the root loads the three images in order. One that fails leaves the part in
recovery, and none after it is tried. -/
def State.packageReset (s : State) (imgs : List (List (BitVec 8))) : State :=
  let ds := bootImages 1 (imgs.take 3)
  let ok := decide (ds.length = 3)
  { State.reset with
    agenda := s.agenda, turn := s.turn, free := s.free
    hub := { s.hub.kept with recovery := !ok, service := false, booted := ds }
    tiers := if s.hub.pmax < 16 then (List.range 128).map fun t => (t, { Tier.reset with value := s.hub.pmax }) else []
    host := { HostPort.reset with ebase := s.hub.bootEbase }
    ring := { Ring.reset with size := s.hub.bootRing * 16384, base := s.hub.bootRingAt }
    weights := s.weights.kept }
def execPackageReset (imgs : List (List (BitVec 8))) (s : State) : Outcome State Fault Refusal := onEvent (fun s => s.packageReset imgs) s

end Sys2Proof.Machine
end

