-- ==== Sys2Proof/Machine/Lanes.lean ====
section
/-! DEFINITION. The lane instructions of majors 0x21 to 0x27: integer, fixed-point, floating-point, compares, predicates, reductions,
slides, permutes, whole rows between banks, and conversions (R152 to R168). -/
namespace Sys2Proof.Machine

open Host (Outcome)

/-! ### Element operations -/

def okInt (F : Nat) : Bool := decide (F < 8)
def okIntFp (F : Nat) : Bool := decide (F < 12)
def okNarrow (F : Nat) : Bool := decide (F < 8 ∧ F % 4 ≠ 3)
def okFp (F : Nat) : Bool := decide (8 ≤ F ∧ F < 12)
def okFpSmall (F : Nat) : Bool := decide (8 ≤ F ∧ F < 11)
def okCode (F : Nat) : Bool := decide (F < 32 ∧ F ≠ 0x12)

/-- An integer result from w, a, b, d, reduced modulo 2^(width of vd), without flags. -/
def pureEl (f : Nat → Nat → Nat → Nat → Int) (md : Nat := 1) : Bank → Nat → Nat → Nat → Nat → Nat → Nat × FFlags × Bool :=
  fun _ F _ a b d => let w := 8 * esizeOf F; (wrapZ (f w a b d) (md * w), 0, false)
/-- A saturating result. -/
def satEl (f : Bank → Nat → Nat → Nat → Int) (sg : Bool) : Bank → Nat → Nat → Nat → Nat → Nat → Nat × FFlags × Bool :=
  fun bk F _ a b _ => let w := 8 * esizeOf F
    let r := if sg then satS (f bk w a b) w else satU (f bk w a b) w
    (wrapZ r.1 w, 0, r.2)
/-- A floating-point result under the bank's FRM and VT.FZ. -/
def fpEl (f : Fmt → Nat → Nat → Nat → Nat → Nat → Nat × FFlags) : Bank → Nat → Nat → Nat → Nat → Nat → Nat × FFlags × Bool :=
  fun bk F _ a b d => match fmtOf F with
    | some G => let r := f G bk.frm.toNat (vtFZ bk.vt) a b d; (r.1, r.2, false)
    | none => (0, 0, false)
def mul64 (F : Nat) : Nat := if esizeOf F = 8 then 4 else 1

def opVadd : ElOp := { ok := okInt, f := pureEl fun _ a b _ => a + b }
def opVsub : ElOp := { ok := okInt, f := pureEl fun _ a b _ => (a : Int) - b }
def opVmul : ElOp := { ok := okInt, mult := mul64, lat := 4, f := pureEl fun _ a b _ => a * b }
def opVmulh : ElOp := { ok := okInt, mult := mul64, lat := 4, f := pureEl fun w a b _ => sextN a w * sextN b w / (2 ^ w : Nat) }
def opVmulhu : ElOp := { ok := okInt, mult := mul64, lat := 4, f := pureEl fun w a b _ => ((a * b / 2 ^ w : Nat) : Int) }
def opVmac : ElOp :=
  { ok := okInt, acc := true, mult := mul64, lat := 4, f := pureEl fun w a b d => d + sextN a w * sextN b w }
def opVand : ElOp := { ok := okIntFp, f := pureEl fun _ a b _ => (a &&& b : Nat) }
def opVor : ElOp := { ok := okIntFp, f := pureEl fun _ a b _ => (a ||| b : Nat) }
def opVxor : ElOp := { ok := okIntFp, f := pureEl fun _ a b _ => (a ^^^ b : Nat) }
def opVsll : ElOp := { ok := okInt, f := pureEl fun w a b _ => (a * 2 ^ (b % w) : Nat) }
def opVsrl : ElOp := { ok := okInt, f := pureEl fun w a b _ => (a / 2 ^ (b % w) : Nat) }
def opVsra : ElOp := { ok := okInt, f := pureEl fun w a b _ => sextN a w / (2 ^ (b % w) : Nat) }
def opVmin : ElOp := { ok := okInt, f := pureEl fun w a b _ => min (sextN a w) (sextN b w) }
def opVmax : ElOp := { ok := okInt, f := pureEl fun w a b _ => max (sextN a w) (sextN b w) }
def opVminu : ElOp := { ok := okInt, f := pureEl fun _ a b _ => (min a b : Nat) }
def opVmaxu : ElOp := { ok := okInt, f := pureEl fun _ a b _ => (max a b : Nat) }
def opVsplat : ElOp := { ok := okIntFp, useA := false, f := pureEl fun _ _ b _ => b }
def opViota : ElOp :=
  { ok := okInt, useA := false, useB := false, f := fun _ F i _ _ _ => (wrapZ i (8 * esizeOf F), 0, false) }

def opVadds : ElOp := { ok := okInt, f := satEl (fun _ w a b => sextN a w + sextN b w) true }
def opVsubs : ElOp := { ok := okInt, f := satEl (fun _ w a b => sextN a w - sextN b w) true }
def opVaddsu : ElOp := { ok := okInt, f := satEl (fun _ _ a b => a + b) false }
def opVsubsu : ElOp := { ok := okInt, f := satEl (fun _ _ a b => (a : Int) - b) false }
def opVssra : ElOp :=
  { ok := okInt, lat := 3, f := fun bk F _ a b _ => let w := 8 * esizeOf F
      (wrapZ (roundFix bk.vxrm.toNat (sextN a w) (b % w)) w, 0, false) }
def opVwmul : ElOp := { ok := okNarrow, md := 2, lat := 4, f := pureEl (fun w a b _ => sextN a w * sextN b w) 2 }
def opVwmac : ElOp := { ok := okNarrow, acc := true, md := 2, lat := 4, f := pureEl (fun w a b d => d + sextN a w * sextN b w) 2 }
def opVwmacu : ElOp := { ok := okNarrow, acc := true, md := 2, lat := 4, f := pureEl (fun _ a b d => d + a * b) 2 }
def opVnclip : ElOp :=
  { ok := okNarrow, ma := 2, lat := 3
    f := satEl (fun bk w a b => roundFix bk.vxrm.toNat (sextN a (2 * w)) (b % (2 * w))) true }
def opVnclipu : ElOp :=
  { ok := okNarrow, ma := 2, lat := 3, f := satEl (fun bk w a b => roundFix bk.vxrm.toNat a (b % (2 * w))) false }

def mul4Fp64 (F : Nat) : Nat := if F = 0x0B then 4 else 1
def opVfadd : ElOp := { ok := okFp, mult := mul4Fp64, lat := 5, f := fpEl fun G m z a b _ => fpAdd G m z a b }
def opVfsub : ElOp := { ok := okFp, mult := mul4Fp64, lat := 5, f := fpEl fun G m z a b _ => fpSub G m z a b }
def opVfmul : ElOp := { ok := okFp, mult := mul4Fp64, lat := 5, f := fpEl fun G m z a b _ => fpMul G m z a b }
def opVfma : ElOp := { ok := okFp, acc := true, mult := mul4Fp64, lat := 5, f := fpEl fun G m z a b d => fpFma G m z a b d }
/-- The smaller or larger of two values, −0 below +0 and a NaN giving way to the other input (R155). -/
def fpMinMax (big : Bool) (F : Fmt) (mode fz a b : Nat) : Nat × FFlags :=
  let x := fpIn F fz a
  let y := fpIn F fz b
  let less := fLt x y || (!fLt y x && x.isNeg && !y.isNeg)
  let v := if x.isNan then y else if y.isNan then x else if less != big then x else y
  let r := roundFp F mode fz v
  (r.1, snanFlag F a ||| snanFlag F b ||| r.2)
def opVfmin : ElOp := { ok := okFp, f := fpEl fun G m z a b _ => fpMinMax false G m z a b }
def opVfmax : ElOp := { ok := okFp, f := fpEl fun G m z a b _ => fpMinMax true G m z a b }
/-- VFSGN moves bits only: the sign of the result from the two sign bits. -/
def signEl (f : Bool → Bool → Bool) : Bank → Nat → Nat → Nat → Nat → Nat → Nat × FFlags × Bool :=
  fun _ F _ a b _ => let h := 2 ^ (8 * esizeOf F - 1)
    (a % h + (if f (a / h % 2 == 1) (b / h % 2 == 1) then h else 0), 0, false)
def opVfsgnJ : ElOp := { ok := okFp, f := signEl fun _ b => b }
def opVfsgnN : ElOp := { ok := okFp, f := signEl fun _ b => !b }
def opVfsgnX : ElOp := { ok := okFp, f := signEl fun a b => a != b }
def opVfexp2 : ElOp := { ok := okFpSmall, useB := false, lat := 8, f := fpEl fun G m z a _ _ => fpExp2 G m z a }
def opVfrece : ElOp := { ok := okFpSmall, useB := false, lat := 4, f := fpEl fun G m z a _ _ => fpRece G m z a }

/-- VADD (Table 6.2). -/
def execVadd (d a b p e : BitVec 3) (s : State) : Outcome State Fault Refusal :=
  ElOp.run opVadd (.vadd d a b p e) d a (.row b) p e s
def execVaddScalar (d a p e : BitVec 3) (y : BitVec 4) (s : State) : Outcome State Fault Refusal :=
  ElOp.run opVadd (.vaddScalar d a p e y) d a (.scalar y) p e s
/-- VSUB (Table 6.2). -/
def execVsub (d a b p e : BitVec 3) (s : State) : Outcome State Fault Refusal :=
  ElOp.run opVsub (.vsub d a b p e) d a (.row b) p e s
def execVsubScalar (d a p e : BitVec 3) (y : BitVec 4) (s : State) : Outcome State Fault Refusal :=
  ElOp.run opVsub (.vsubScalar d a p e y) d a (.scalar y) p e s
/-- VMUL (Table 6.2). -/
def execVmul (d a b p e : BitVec 3) (s : State) : Outcome State Fault Refusal :=
  ElOp.run opVmul (.vmul d a b p e) d a (.row b) p e s
def execVmulScalar (d a p e : BitVec 3) (y : BitVec 4) (s : State) : Outcome State Fault Refusal :=
  ElOp.run opVmul (.vmulScalar d a p e y) d a (.scalar y) p e s
/-- VMULH (Table 6.2). -/
def execVmulh (d a b p e : BitVec 3) (s : State) : Outcome State Fault Refusal :=
  ElOp.run opVmulh (.vmulh d a b p e) d a (.row b) p e s
def execVmulhScalar (d a p e : BitVec 3) (y : BitVec 4) (s : State) : Outcome State Fault Refusal :=
  ElOp.run opVmulh (.vmulhScalar d a p e y) d a (.scalar y) p e s
/-- VMULHU (Table 6.2). -/
def execVmulhu (d a b p e : BitVec 3) (s : State) : Outcome State Fault Refusal :=
  ElOp.run opVmulhu (.vmulhu d a b p e) d a (.row b) p e s
def execVmulhuScalar (d a p e : BitVec 3) (y : BitVec 4) (s : State) : Outcome State Fault Refusal :=
  ElOp.run opVmulhu (.vmulhuScalar d a p e y) d a (.scalar y) p e s
/-- VMAC (Table 6.2). -/
def execVmac (d a b p e : BitVec 3) (s : State) : Outcome State Fault Refusal :=
  ElOp.run opVmac (.vmac d a b p e) d a (.row b) p e s
def execVmacScalar (d a p e : BitVec 3) (y : BitVec 4) (s : State) : Outcome State Fault Refusal :=
  ElOp.run opVmac (.vmacScalar d a p e y) d a (.scalar y) p e s
/-- VAND (Table 6.2). -/
def execVand (d a b p e : BitVec 3) (s : State) : Outcome State Fault Refusal :=
  ElOp.run opVand (.vand d a b p e) d a (.row b) p e s
def execVandScalar (d a p e : BitVec 3) (y : BitVec 4) (s : State) : Outcome State Fault Refusal :=
  ElOp.run opVand (.vandScalar d a p e y) d a (.scalar y) p e s
/-- VOR (Table 6.2). -/
def execVor (d a b p e : BitVec 3) (s : State) : Outcome State Fault Refusal :=
  ElOp.run opVor (.vor d a b p e) d a (.row b) p e s
def execVorScalar (d a p e : BitVec 3) (y : BitVec 4) (s : State) : Outcome State Fault Refusal :=
  ElOp.run opVor (.vorScalar d a p e y) d a (.scalar y) p e s
/-- VXOR (Table 6.2). -/
def execVxor (d a b p e : BitVec 3) (s : State) : Outcome State Fault Refusal :=
  ElOp.run opVxor (.vxor d a b p e) d a (.row b) p e s
def execVxorScalar (d a p e : BitVec 3) (y : BitVec 4) (s : State) : Outcome State Fault Refusal :=
  ElOp.run opVxor (.vxorScalar d a p e y) d a (.scalar y) p e s
/-- VSLL (Table 6.2). -/
def execVsll (d a b p e : BitVec 3) (s : State) : Outcome State Fault Refusal :=
  ElOp.run opVsll (.vsll d a b p e) d a (.row b) p e s
def execVsllScalar (d a p e : BitVec 3) (y : BitVec 4) (s : State) : Outcome State Fault Refusal :=
  ElOp.run opVsll (.vsllScalar d a p e y) d a (.scalar y) p e s
/-- VSRL (Table 6.2). -/
def execVsrl (d a b p e : BitVec 3) (s : State) : Outcome State Fault Refusal :=
  ElOp.run opVsrl (.vsrl d a b p e) d a (.row b) p e s
def execVsrlScalar (d a p e : BitVec 3) (y : BitVec 4) (s : State) : Outcome State Fault Refusal :=
  ElOp.run opVsrl (.vsrlScalar d a p e y) d a (.scalar y) p e s
/-- VSRA (Table 6.2). -/
def execVsra (d a b p e : BitVec 3) (s : State) : Outcome State Fault Refusal :=
  ElOp.run opVsra (.vsra d a b p e) d a (.row b) p e s
def execVsraScalar (d a p e : BitVec 3) (y : BitVec 4) (s : State) : Outcome State Fault Refusal :=
  ElOp.run opVsra (.vsraScalar d a p e y) d a (.scalar y) p e s
/-- VMIN (Table 6.2). -/
def execVmin (d a b p e : BitVec 3) (s : State) : Outcome State Fault Refusal :=
  ElOp.run opVmin (.vmin d a b p e) d a (.row b) p e s
def execVminScalar (d a p e : BitVec 3) (y : BitVec 4) (s : State) : Outcome State Fault Refusal :=
  ElOp.run opVmin (.vminScalar d a p e y) d a (.scalar y) p e s
/-- VMAX (Table 6.2). -/
def execVmax (d a b p e : BitVec 3) (s : State) : Outcome State Fault Refusal :=
  ElOp.run opVmax (.vmax d a b p e) d a (.row b) p e s
def execVmaxScalar (d a p e : BitVec 3) (y : BitVec 4) (s : State) : Outcome State Fault Refusal :=
  ElOp.run opVmax (.vmaxScalar d a p e y) d a (.scalar y) p e s
/-- VMINU (Table 6.2). -/
def execVminu (d a b p e : BitVec 3) (s : State) : Outcome State Fault Refusal :=
  ElOp.run opVminu (.vminu d a b p e) d a (.row b) p e s
def execVminuScalar (d a p e : BitVec 3) (y : BitVec 4) (s : State) : Outcome State Fault Refusal :=
  ElOp.run opVminu (.vminuScalar d a p e y) d a (.scalar y) p e s
/-- VMAXU (Table 6.2). -/
def execVmaxu (d a b p e : BitVec 3) (s : State) : Outcome State Fault Refusal :=
  ElOp.run opVmaxu (.vmaxu d a b p e) d a (.row b) p e s
def execVmaxuScalar (d a p e : BitVec 3) (y : BitVec 4) (s : State) : Outcome State Fault Refusal :=
  ElOp.run opVmaxu (.vmaxuScalar d a p e y) d a (.scalar y) p e s
/-- VADDS (R153, R154). -/
def execVadds (d a b p e : BitVec 3) (s : State) : Outcome State Fault Refusal :=
  ElOp.run opVadds (.vadds d a b p e) d a (.row b) p e s
def execVaddsScalar (d a p e : BitVec 3) (y : BitVec 4) (s : State) : Outcome State Fault Refusal :=
  ElOp.run opVadds (.vaddsScalar d a p e y) d a (.scalar y) p e s
/-- VSUBS (R153, R154). -/
def execVsubs (d a b p e : BitVec 3) (s : State) : Outcome State Fault Refusal :=
  ElOp.run opVsubs (.vsubs d a b p e) d a (.row b) p e s
def execVsubsScalar (d a p e : BitVec 3) (y : BitVec 4) (s : State) : Outcome State Fault Refusal :=
  ElOp.run opVsubs (.vsubsScalar d a p e y) d a (.scalar y) p e s
/-- VADDSU (R153, R154). -/
def execVaddsu (d a b p e : BitVec 3) (s : State) : Outcome State Fault Refusal :=
  ElOp.run opVaddsu (.vaddsu d a b p e) d a (.row b) p e s
def execVaddsuScalar (d a p e : BitVec 3) (y : BitVec 4) (s : State) : Outcome State Fault Refusal :=
  ElOp.run opVaddsu (.vaddsuScalar d a p e y) d a (.scalar y) p e s
/-- VSUBSU (R153, R154). -/
def execVsubsu (d a b p e : BitVec 3) (s : State) : Outcome State Fault Refusal :=
  ElOp.run opVsubsu (.vsubsu d a b p e) d a (.row b) p e s
def execVsubsuScalar (d a p e : BitVec 3) (y : BitVec 4) (s : State) : Outcome State Fault Refusal :=
  ElOp.run opVsubsu (.vsubsuScalar d a p e y) d a (.scalar y) p e s
/-- VWMUL (R153, R154). -/
def execVwmul (d a b p e : BitVec 3) (s : State) : Outcome State Fault Refusal :=
  ElOp.run opVwmul (.vwmul d a b p e) d a (.row b) p e s
def execVwmulScalar (d a p e : BitVec 3) (y : BitVec 4) (s : State) : Outcome State Fault Refusal :=
  ElOp.run opVwmul (.vwmulScalar d a p e y) d a (.scalar y) p e s
/-- VWMAC (R153, R154). -/
def execVwmac (d a b p e : BitVec 3) (s : State) : Outcome State Fault Refusal :=
  ElOp.run opVwmac (.vwmac d a b p e) d a (.row b) p e s
def execVwmacScalar (d a p e : BitVec 3) (y : BitVec 4) (s : State) : Outcome State Fault Refusal :=
  ElOp.run opVwmac (.vwmacScalar d a p e y) d a (.scalar y) p e s
/-- VWMACU (R153, R154). -/
def execVwmacu (d a b p e : BitVec 3) (s : State) : Outcome State Fault Refusal :=
  ElOp.run opVwmacu (.vwmacu d a b p e) d a (.row b) p e s
def execVwmacuScalar (d a p e : BitVec 3) (y : BitVec 4) (s : State) : Outcome State Fault Refusal :=
  ElOp.run opVwmacu (.vwmacuScalar d a p e y) d a (.scalar y) p e s
/-- VNCLIP (R153, R154). -/
def execVnclip (d a b p e : BitVec 3) (s : State) : Outcome State Fault Refusal :=
  ElOp.run opVnclip (.vnclip d a b p e) d a (.row b) p e s
def execVnclipScalar (d a p e : BitVec 3) (y : BitVec 4) (s : State) : Outcome State Fault Refusal :=
  ElOp.run opVnclip (.vnclipScalar d a p e y) d a (.scalar y) p e s
/-- VNCLIPU (R153, R154). -/
def execVnclipu (d a b p e : BitVec 3) (s : State) : Outcome State Fault Refusal :=
  ElOp.run opVnclipu (.vnclipu d a b p e) d a (.row b) p e s
def execVnclipuScalar (d a p e : BitVec 3) (y : BitVec 4) (s : State) : Outcome State Fault Refusal :=
  ElOp.run opVnclipu (.vnclipuScalar d a p e y) d a (.scalar y) p e s
/-- VSSRA (R153, R154). -/
def execVssra (d a b p e : BitVec 3) (s : State) : Outcome State Fault Refusal :=
  ElOp.run opVssra (.vssra d a b p e) d a (.row b) p e s
def execVssraScalar (d a p e : BitVec 3) (y : BitVec 4) (s : State) : Outcome State Fault Refusal :=
  ElOp.run opVssra (.vssraScalar d a p e y) d a (.scalar y) p e s
/-- VFADD (Table 6.3). -/
def execVfadd (d a b p e : BitVec 3) (s : State) : Outcome State Fault Refusal :=
  ElOp.run opVfadd (.vfadd d a b p e) d a (.row b) p e s
def execVfaddScalar (d a p e : BitVec 3) (y : BitVec 4) (s : State) : Outcome State Fault Refusal :=
  ElOp.run opVfadd (.vfaddScalar d a p e y) d a (.scalar y) p e s
/-- VFSUB (Table 6.3). -/
def execVfsub (d a b p e : BitVec 3) (s : State) : Outcome State Fault Refusal :=
  ElOp.run opVfsub (.vfsub d a b p e) d a (.row b) p e s
def execVfsubScalar (d a p e : BitVec 3) (y : BitVec 4) (s : State) : Outcome State Fault Refusal :=
  ElOp.run opVfsub (.vfsubScalar d a p e y) d a (.scalar y) p e s
/-- VFMUL (Table 6.3). -/
def execVfmul (d a b p e : BitVec 3) (s : State) : Outcome State Fault Refusal :=
  ElOp.run opVfmul (.vfmul d a b p e) d a (.row b) p e s
def execVfmulScalar (d a p e : BitVec 3) (y : BitVec 4) (s : State) : Outcome State Fault Refusal :=
  ElOp.run opVfmul (.vfmulScalar d a p e y) d a (.scalar y) p e s
/-- VFMA (Table 6.3). -/
def execVfma (d a b p e : BitVec 3) (s : State) : Outcome State Fault Refusal :=
  ElOp.run opVfma (.vfma d a b p e) d a (.row b) p e s
def execVfmaScalar (d a p e : BitVec 3) (y : BitVec 4) (s : State) : Outcome State Fault Refusal :=
  ElOp.run opVfma (.vfmaScalar d a p e y) d a (.scalar y) p e s
/-- VFMIN (Table 6.3). -/
def execVfmin (d a b p e : BitVec 3) (s : State) : Outcome State Fault Refusal :=
  ElOp.run opVfmin (.vfmin d a b p e) d a (.row b) p e s
def execVfminScalar (d a p e : BitVec 3) (y : BitVec 4) (s : State) : Outcome State Fault Refusal :=
  ElOp.run opVfmin (.vfminScalar d a p e y) d a (.scalar y) p e s
/-- VFMAX (Table 6.3). -/
def execVfmax (d a b p e : BitVec 3) (s : State) : Outcome State Fault Refusal :=
  ElOp.run opVfmax (.vfmax d a b p e) d a (.row b) p e s
def execVfmaxScalar (d a p e : BitVec 3) (y : BitVec 4) (s : State) : Outcome State Fault Refusal :=
  ElOp.run opVfmax (.vfmaxScalar d a p e y) d a (.scalar y) p e s
/-- VFSGNJ (Table 6.3). -/
def execVfsgnJ (d a b p e : BitVec 3) (s : State) : Outcome State Fault Refusal :=
  ElOp.run opVfsgnJ (.vfsgnJ d a b p e) d a (.row b) p e s
def execVfsgnJScalar (d a p e : BitVec 3) (y : BitVec 4) (s : State) : Outcome State Fault Refusal :=
  ElOp.run opVfsgnJ (.vfsgnJScalar d a p e y) d a (.scalar y) p e s
/-- VFSGNN (Table 6.3). -/
def execVfsgnN (d a b p e : BitVec 3) (s : State) : Outcome State Fault Refusal :=
  ElOp.run opVfsgnN (.vfsgnN d a b p e) d a (.row b) p e s
def execVfsgnNScalar (d a p e : BitVec 3) (y : BitVec 4) (s : State) : Outcome State Fault Refusal :=
  ElOp.run opVfsgnN (.vfsgnNScalar d a p e y) d a (.scalar y) p e s
/-- VFSGNX (Table 6.3). -/
def execVfsgnX (d a b p e : BitVec 3) (s : State) : Outcome State Fault Refusal :=
  ElOp.run opVfsgnX (.vfsgnX d a b p e) d a (.row b) p e s
def execVfsgnXScalar (d a p e : BitVec 3) (y : BitVec 4) (s : State) : Outcome State Fault Refusal :=
  ElOp.run opVfsgnX (.vfsgnXScalar d a p e y) d a (.scalar y) p e s

/-- VSPLAT (Table 6.2). -/
def execVsplat (d p e : BitVec 3) (y : BitVec 4) (s : State) : Outcome State Fault Refusal :=
  ElOp.run opVsplat (.vsplat d p e y) d 0 (.scalar y) p e s
/-- VIOTA (Table 6.2). -/
def execViota (d p e : BitVec 3) (s : State) : Outcome State Fault Refusal := ElOp.run opViota (.viota d p e) d 0 (.row 0) p e s
/-- VFEXP2 (R82). -/
def execVfexp2 (d a p e : BitVec 3) (s : State) : Outcome State Fault Refusal := ElOp.run opVfexp2 (.vfexp2 d a p e) d a (.row 0) p e s
/-- VFRECE (R83). -/
def execVfrece (d a p e : BitVec 3) (s : State) : Outcome State Fault Refusal := ElOp.run opVfrece (.vfrece d a p e) d a (.row 0) p e s

/-- VSEL: pm selects, and every element below VL is written (R152). -/
def vselSpec (d a : BitVec 3) (q : Src2) (p e : BitVec 3) (b : Bank) : LaneSpec :=
  let F := effFmt b.vt e
  let es := esizeOf F
  let pr := b.pr p.toNat
  let is := List.range b.vl
  let va := (b.slot a.toNat).latch
  { okFmt := okIntFp F, okLim := decide (b.vl * es ≤ rowLimit b.vt)
    regs := (a.toNat, false) :: q.regs ++ [(d.toNat, true)]
    needs := elNeeds a.toNat es (is.filter fun i => pr.getLsbD (es * i)) ++ q.needs es (is.filter fun i => !pr.getLsbD (es * i))
    bmax := b.vl * es, els := is
    out := { rows := [{ k := d.toNat, es := es,
                        vs := is.map fun i => (i, if pr.getLsbD (es * i) then rowGet va es i else q.get b es i) }] } }
def execVsel (d a b p e : BitVec 3) (s : State) : Outcome State Fault Refusal :=
  onBank (.vsel d a b p e) (fun g s => s.lane (.vsel d a b p e) g (vselSpec d a (.row b) p e)) s
def execVselScalar (d a p e : BitVec 3) (y : BitVec 4) (s : State) : Outcome State Fault Refusal :=
  onBank (.vselScalar d a p e y) (fun g s => s.lane (.vselScalar d a p e y) g (vselSpec d a (.scalar y) p e)) s

/-! ### Compares and predicates (R156, R157) -/

/-- The conditions of VCMP: eq, ne, lt, ge, ltu, geu (Table 2.6). -/
def intCond (c w a b : Nat) : Bool :=
  match c with
  | 0 => a == b
  | 1 => a != b
  | 2 => decide (sextN a w < sextN b w)
  | 3 => decide (sextN b w ≤ sextN a w)
  | 4 => decide (a < b)
  | _ => decide (b ≤ a)
/-- The conditions of VFCMP: eq, ne, lt, le, gt, ge, un, and its flags. -/
def fpCond (c : Nat) (F : Fmt) (fz a b : Nat) : Bool × FFlags :=
  let x := fpIn F fz a
  let y := fpIn F fz b
  let nan := x.isNan || y.isNan
  let sn := snanFlag F a ||| snanFlag F b
  let ord := if nan then flNV else 0
  match c with
  | 0 => (!nan && !fLt x y && !fLt y x, sn)
  | 1 => (nan || fLt x y || fLt y x, sn)
  | 2 => (!nan && fLt x y, ord)
  | 3 => (!nan && !fLt y x, ord)
  | 4 => (!nan && fLt y x, ord)
  | 5 => (!nan && !fLt x y, ord)
  | _ => (nan, sn)
/-- A compare into predicate `d`. -/
def cmpSpec (ok : Nat → Bool) (f : Bank → Nat → Nat → Nat → Bool × FFlags) (d a : BitVec 3) (q : Src2) (p e : BitVec 3) (b : Bank) : LaneSpec :=
  let F := effFmt b.vt e
  let es := esizeOf F
  let act := activeEls (b.pr p.toNat) b.vl es
  let va := (b.slot a.toNat).latch
  let rs := act.map fun i => (i, f b F (rowGet va es i) (q.get b es i))
  { okFmt := ok F, okLim := decide (b.vl * es ≤ rowLimit b.vt)
    regs := (a.toNat, false) :: q.regs
    needs := elNeeds a.toNat es (List.range b.vl) ++ q.needs es (List.range b.vl)
    bmax := b.vl * es, els := act
    out := { p := some (d.toNat, rs.foldl (fun v r => putBits v (es * r.1) 1 (if r.2.1 then 1 else 0)) (b.pr d.toNat),
                        byteMask (act.map fun i => (es * i, 1)))
             fl := rs.foldl (fun fl r => fl ||| r.2.2) 0 } }
def intCmp (c : BitVec 3) (_ : Bank) (F a b : Nat) : Bool × FFlags := (intCond c.toNat (8 * esizeOf F) a b, 0)
def fpCmp (c : BitVec 3) (bk : Bank) (F a b : Nat) : Bool × FFlags :=
  match fmtOf F with
  | some G => fpCond c.toNat G (vtFZ bk.vt) a b
  | none => (false, 0)
def execVcmp (d a b p e c : BitVec 3) (s : State) : Outcome State Fault Refusal :=
  onBank (.vcmp d a b p e c) (fun g s => s.lane (.vcmp d a b p e c) g (cmpSpec okInt (intCmp c) d a (.row b) p e)) s
def execVcmpScalar (d a p e : BitVec 3) (y : BitVec 4) (c : BitVec 3) (s : State) : Outcome State Fault Refusal :=
  onBank (.vcmpScalar d a p e y c) (fun g s => s.lane (.vcmpScalar d a p e y c) g (cmpSpec okInt (intCmp c) d a (.scalar y) p e)) s
def execVfcmp (d a b p e c : BitVec 3) (s : State) : Outcome State Fault Refusal :=
  onBank (.vfcmp d a b p e c) (fun g s => s.lane (.vfcmp d a b p e c) g (cmpSpec okFp (fpCmp c) d a (.row b) p e)) s
def execVfcmpScalar (d a p e : BitVec 3) (y : BitVec 4) (c : BitVec 3) (s : State) : Outcome State Fault Refusal :=
  onBank (.vfcmpScalar d a p e y c) (fun g s => s.lane (.vfcmpScalar d a p e y c) g (cmpSpec okFp (fpCmp c) d a (.scalar y) p e)) s

/-- A predicate operation over all 12,288 bits, written where the selected predicate is 1 (R157). -/
def predSpec (f : PredBits → PredBits → PredBits) (d a b p : BitVec 3) (bk : Bank) : LaneSpec :=
  let m := bk.pr p.toNat
  { bmax := 1536, lat := 1, els := [0]
    out := { p := some (d.toNat, (f (bk.pr a.toNat) (bk.pr b.toNat) &&& m) ||| (bk.pr d.toNat &&& ~~~m), m) } }
def execPand (d a b p : BitVec 3) (s : State) : Outcome State Fault Refusal :=
  onBank (.pand d a b p) (fun g s => s.lane (.pand d a b p) g (predSpec (fun x y => x &&& y) d a b p)) s
def execPor (d a b p : BitVec 3) (s : State) : Outcome State Fault Refusal :=
  onBank (.por d a b p) (fun g s => s.lane (.por d a b p) g (predSpec (fun x y => x ||| y) d a b p)) s
def execPxor (d a b p : BitVec 3) (s : State) : Outcome State Fault Refusal :=
  onBank (.pxor d a b p) (fun g s => s.lane (.pxor d a b p) g (predSpec (fun x y => x ^^^ y) d a b p)) s
def execPandn (d a b p : BitVec 3) (s : State) : Outcome State Fault Refusal :=
  onBank (.pandn d a b p) (fun g s => s.lane (.pandn d a b p) g (predSpec (fun x y => x &&& ~~~y) d a b p)) s

/-! ### Reductions and counts (R79, R158, R159) -/

/-- One level of the tree of R79: absent elements give way. -/
def treeLevel (op : Nat → Nat → Nat × FFlags) : List (Option Nat) → List (Option Nat) × FFlags
  | a :: b :: r =>
    let t := treeLevel op r
    match a, b with
    | none, _ => (b :: t.1, t.2)
    | _, none => (a :: t.1, t.2)
    | some x, some y => let q := op x y; (some q.1 :: t.1, t.2 ||| q.2)
  | l => (l, 0)
/-- `tree(n)` over a list whose length is padded to a power of two, with `fuel` levels. -/
def treeFold (op : Nat → Nat → Nat × FFlags) : Nat → List (Option Nat) → Option Nat × FFlags
  | 0, l => (l.headD none, 0)
  | n + 1, l =>
    match l with
    | [] => (none, 0)
    | [a] => (a, 0)
    | _ => let t := treeLevel op l; let q := treeFold op n t.1; (q.1, t.2 ||| q.2)
/-- The smallest power of two that is at least n. -/
def pow2Up (n : Nat) : Nat := if n ≤ 1 then 1 else 2 ^ (Nat.log2 (n - 1) + 1)

/-- A reduction result of w bits extended into a y register (R158). -/
def redExt (F v : Nat) : Word :=
  if isSignedCode F then wordZ (sextN v (8 * esizeOf F)) else BitVec.ofNat 64 v
/-- An arithmetic reduction of row `a`. -/
def redSpec (ok : Nat → Bool) (ly : Nat) (f : Bank → Nat → List (Option Nat) → Nat × FFlags) (a p e : BitVec 3) (y : BitVec 4) (b : Bank) :
    LaneSpec :=
  let F := effFmt b.vt e
  let es := esizeOf F
  let pr := b.pr p.toNat
  let va := (b.slot a.toNat).latch
  let r := f b F ((List.range b.vl).map fun i => if pr.getLsbD (es * i) then some (rowGet va es i) else none)
  { okFmt := ok F, okLim := decide (b.vl * es ≤ rowLimit b.vt), regs := [(a.toNat, false)]
    needs := elNeeds a.toNat es (activeEls pr b.vl es), bmax := b.vl * es, lat := ly, latC := true, els := activeEls pr b.vl es
    out := { y := some (y.toNat, redExt F r.1), fl := r.2 } }
def redSum (_ : Bank) (F : Nat) (l : List (Option Nat)) : Nat × FFlags :=
  (l.foldl (fun acc x => acc + x.getD 0) 0 % 2 ^ (8 * esizeOf F), 0)
/-- The smaller or larger in the format's own sense; the empty result is the other end of the format. -/
def redMinMax (big : Bool) (_ : Bank) (F : Nat) (l : List (Option Nat)) : Nat × FFlags :=
  let w := 8 * esizeOf F
  let key := fun (v : Nat) => if isSignedCode F then sextN v w else (v : Int)
  let top : Nat := if isSignedCode F then 2 ^ (w - 1) - 1 else 2 ^ w - 1
  let bot : Nat := if isSignedCode F then 2 ^ (w - 1) else 0
  (l.foldl (fun acc x => match x with
    | none => acc
    | some v => if (decide (key acc < key v)) == big then v else acc) (if big then bot else top), 0)
/-- A floating-point reduction tree (R79): each step reads its operands through `fp_in` and rounds once, so that under VT.FZ = 10 an intermediate
subnormal is flushed at the next step (log entry 64). -/
def redFp (op : Fmt → Nat → Nat → Nat → Nat → Nat × FFlags) (empty : Fmt → Nat) (b : Bank) (F : Nat) (l : List (Option Nat)) : Nat × FFlags :=
  match fmtOf F with
  | none => (0, 0)
  | some G =>
    let r := treeFold (op G b.frm.toNat (vtFZ b.vt)) 16 (l ++ List.replicate (pow2Up l.length - l.length) none)
    (r.1.getD (empty G), r.2)
def execVredsum (a p e : BitVec 3) (y : BitVec 4) (s : State) : Outcome State Fault Refusal :=
  onBank (.vredsum a p e y) (fun g s => s.lane (.vredsum a p e y) g (redSpec okInt 6 redSum a p e y)) s
def execVredmin (a p e : BitVec 3) (y : BitVec 4) (s : State) : Outcome State Fault Refusal :=
  onBank (.vredmin a p e y) (fun g s => s.lane (.vredmin a p e y) g (redSpec okInt 6 (redMinMax false) a p e y)) s
def execVredmax (a p e : BitVec 3) (y : BitVec 4) (s : State) : Outcome State Fault Refusal :=
  onBank (.vredmax a p e y) (fun g s => s.lane (.vredmax a p e y) g (redSpec okInt 6 (redMinMax true) a p e y)) s
def execVfredsum (a p e : BitVec 3) (y : BitVec 4) (s : State) : Outcome State Fault Refusal :=
  onBank (.vfredsum a p e y) (fun g s => s.lane (.vfredsum a p e y) g (redSpec okFp 12 (redFp fpAdd fun _ => 0) a p e y)) s
def execVfredmax (a p e : BitVec 3) (y : BitVec 4) (s : State) : Outcome State Fault Refusal :=
  onBank (.vfredmax a p e y) (fun g s => s.lane (.vfredmax a p e y) g (redSpec okFp 12 (redFp (fpMinMax true) fun G => infOrMax G true) a p e y)) s

/-- VPOPC and VFIRST: the active elements whose bit in predicate `a` is 1 (Table 6.4). The row limit is checked though no row is named (log
entry 67); the sweep is that of VL elements of the format, the model's choice (R147, log entry 67). -/
def countSpec (first push : Bool) (a p e : BitVec 3) (y : BitVec 4) (b : Bank) : LaneSpec :=
  let F := effFmt b.vt e
  let es := esizeOf F
  let hit := (activeEls (b.pr p.toNat) b.vl es).filter fun i => (b.pr a.toNat).getLsbD (es * i)
  { okFmt := okCode F, okLim := decide (b.vl * es ≤ rowLimit b.vt), bmax := b.vl * es, lat := 4, latC := true
    els := activeEls (b.pr p.toNat) b.vl es
    out := { y := some (y.toNat, if first then (match hit with | [] => BitVec.allOnes 64 | i :: _ => BitVec.ofNat 64 i)
                                 else BitVec.ofNat 64 hit.length)
             push := if push then some hit.length else none } }
def execVpopc (a p e : BitVec 3) (y : BitVec 4) (s : State) : Outcome State Fault Refusal :=
  onBank (.vpopc a p e y) (fun g s => s.lane (.vpopc a p e y) g (countSpec false false a p e y)) s
def execVpopcQ (a p e : BitVec 3) (y : BitVec 4) (s : State) : Outcome State Fault Refusal :=
  onBank (.vpopcQ a p e y) (fun g s => s.lane (.vpopcQ a p e y) g (countSpec false true a p e y)) s
def execVfirst (a p e : BitVec 3) (y : BitVec 4) (s : State) : Outcome State Fault Refusal :=
  onBank (.vfirst a p e y) (fun g s => s.lane (.vfirst a p e y) g (countSpec true false a p e y)) s

/-! ### Slides, permutes and compression (R160 to R162) -/

/-- A move of elements: `src i` is the source element of active element i, or a value; `ix` bytes hold an index of a second row operand. -/
def moveSpec (d a : BitVec 3) (p e : BitVec 3) (lat : Nat) (latC : Bool) (lim : Bool) (ix : Nat) (more : List (Nat × Bool)) (needB : List Nat → List (Nat × Nat × Nat × Nat))
    (src : Nat → Option (Nat ⊕ Nat)) (b : Bank) : LaneSpec :=
  let F := effFmt b.vt e
  let es := esizeOf F
  let act := activeEls (b.pr p.toNat) b.vl es
  let va := (b.slot a.toNat).latch
  let m := act.filterMap fun i => (src i).map fun v => (i, v)
  { okFmt := okCode F, okLim := lim && decide (b.vl * es ≤ rowLimit b.vt)
    regs := (a.toNat, false) :: more ++ [(d.toNat, true)]
    needs := needB (List.range b.vl) ++ (List.range b.vl).filterMap fun i => match src i with | some (.inl j) => some (a.toNat, i, es * j, es) | _ => none
    bmax := b.vl * max es ix, lat := lat, latC := latC, els := m.map fun x => x.1
    out := { rows := [{ k := d.toNat, es := es, vs := m.map fun x => (x.1, match x.2 with | .inl j => rowGet va es j | .inr v => v) }] } }
def slideSpec (up : Bool) (d a p e : BitVec 3) (f : BitVec 1) (y : BitVec 4) (b : Bank) : LaneSpec :=
  let k := (b.yr y.toNat).toNat
  let fill : Option (Nat ⊕ Nat) :=
    if f = 1 then some (.inr ((b.yr (y.toNat + 1)).toNat % 2 ^ (8 * esizeOf (effFmt b.vt e)))) else none
  moveSpec d a p e (if up then 3 else 2) (!up) true 0 [] (fun _ => [])
    (fun i => if up then (if k ≤ i then some (.inl (i - k)) else fill) else (if i + k < b.vl then some (.inl (i + k)) else fill)) b
def execVslideup (d a p e : BitVec 3) (f : BitVec 1) (y : BitVec 4) (s : State) : Outcome State Fault Refusal :=
  onBank (.vslideup d a p e f y) (fun g s => s.lane (.vslideup d a p e f y) g (slideSpec true d a p e f y)) s
def execVslidedn (d a p e : BitVec 3) (f : BitVec 1) (y : BitVec 4) (s : State) : Outcome State Fault Refusal :=
  onBank (.vslidedn d a p e f y) (fun g s => s.lane (.vslidedn d a p e f y) g (slideSpec false d a p e f y)) s
def permSpec (d a b p e : BitVec 3) (x : BitVec 1) (bk : Bank) : LaneSpec :=
  let es := esizeOf (effFmt bk.vt e)
  let ix := if x = 1 then 2 else es
  let vb := (bk.slot b.toNat).latch
  moveSpec d a p e 2 true (decide (bk.vl * ix ≤ rowLimit bk.vt)) ix [(b.toNat, false)] (fun act => elNeeds b.toNat ix act)
    (fun i => let j := rowGet vb ix i; some (if j < bk.vl then .inl j else .inr 0)) bk
def execVperm (d a b p e : BitVec 3) (x : BitVec 1) (s : State) : Outcome State Fault Refusal :=
  onBank (.vperm d a b p e x) (fun g s => s.lane (.vperm d a b p e x) g (permSpec d a b p e x)) s
/-- VCOMPRESS: pm selects elements and is no write mask. -/
def compressSpec (d a p e : BitVec 3) (b : Bank) : LaneSpec :=
  let F := effFmt b.vt e
  let es := esizeOf F
  let act := activeEls (b.pr p.toNat) b.vl es
  let va := (b.slot a.toNat).latch
  { okFmt := okCode F, okLim := decide (b.vl * es ≤ rowLimit b.vt), regs := [(a.toNat, false), (d.toNat, true)]
    needs := elNeeds a.toNat es act, bmax := b.vl * es, latC := true, els := act
    out := { rows := [{ k := d.toNat, es := es, vs := act.zipIdx.map fun x => (x.2, rowGet va es x.1) }] } }
def execVcompress (d a p e : BitVec 3) (s : State) : Outcome State Fault Refusal :=
  onBank (.vcompress d a p e) (fun g s => s.lane (.vcompress d a p e) g (compressSpec d a p e)) s

/-! ### Whole rows between banks (R163, R164) -/

/-- The pattern word of VSHUF and the index word of VBCAST hold nothing else and no reserved MODE. -/
def collWordOk (bcast : Bool) (w : Word) : Bool := if bcast then decide (w.toNat < 32) else decide (w.toNat < 512 ∧ bits w 7 5 = 0)
/-- The rope bank index that bank index `i` receives from (Table 6.5). -/
def Coll.source (c : Coll) (i : Nat) : Nat :=
  if c.bcast then c.m % 32 else if c.m / 256 % 2 = 0 then i ^^^ (c.m % 32) else (i + 32 - c.m % 32) % 32
/-- The checks of a collective at its bank. -/
def collSpec (c : Coll) (b : Bank) : LaneSpec :=
  let F := effFmt b.vt c.e
  { okFmt := okCode F, okLim := decide (b.vl * esizeOf F ≤ rowLimit b.vt), regs := [(c.a.toNat, false), (c.d.toNat, true)]
    named := true, dup := false, out := {} }
/-- VSHUF and VBCAST issue: the bank passes its checks and waits for the other participants (R164). The check of the pattern or index word stands
before the row checks, with the word in TVAL: the model's choice (log entry 66). -/
def State.collIssue (s : State) (i : Instr) (g : Nat) (c : Coll) (w : Word) : State :=
  let b := s.bank g
  let sp := collSpec c b
  match b.run with
  | none => s
  | some r =>
    if r.coll.isSome then s
    else if s.cycle < b.laneAt || s.laneHeld g sp then s.bstall g 1
    else if b.tfetch || !sp.okFmt || !sp.okLim then s.bankTrap g .illegal (instrWords i) 0
    else if !collWordOk c.bcast w then s.bankTrap g .illegal w 0
    else match s.rowsChk g sp.regs with
      | .wait => s.bstall g 1
      | .bad k v e => let t := s.bankTrap g k v e
                      if k = .permission then t.useFree else t
      | .ok => s.setBank g { b with run := some { r with coll := some c } }
def execVshuf (d a p e : BitVec 3) (y : BitVec 4) (s : State) : Outcome State Fault Refusal :=
  onBank (.vshuf d a p e y) (fun g s =>
    let w := (s.bank g).yr y.toNat
    s.collIssue (.vshuf d a p e y) g { bcast := false, d := d, a := a, p := p, e := e, m := w.toNat } w) s
def execVbcast (d a p e : BitVec 3) (y : BitVec 4) (s : State) : Outcome State Fault Refusal :=
  onBank (.vbcast d a p e y) (fun g s =>
    let w := (s.bank g).yr y.toNat
    s.collIssue (.vbcast d a p e y) g { bcast := true, d := d, a := a, p := p, e := e, m := w.toNat } w) s

/-- The write of one receiver of a collective: its own elements from the source's row, poison carried word by word. -/
def collWrite (c : Coll) (b : Bank) (src : Option Bank) : RowW :=
  let es := esizeOf (effFmt b.vt c.e)
  let act := activeEls (b.pr c.p.toNat) b.vl es
  match src with
  | none => { k := c.d.toNat, es := es, vs := act.map fun i => (i, 0) }
  | some sb =>
    let sl := sb.slot c.a.toNat
    { k := c.d.toNat, es := es, vs := act.map fun i => (i, rowGet sl.latch es i)
      carry := if sl.poison = 0 then [] else (act.filter fun i => sl.poison.getLsbD (es * i / 8)).map fun i => es * i / 8 }
/-- The bank has left the block of entry `num` for one that it fetched itself (R138). -/
def Bank.fetched (b : Bank) (num : Nat) : Bool := b.tfetch && b.run.any fun r => r.entry == some num
/-- The banks of rope `n` that take part in the running block of entry `num`: those that have not completed it (R164). -/
def State.participants (s : State) (n num : Nat) : List Nat :=
  match (s.leader n).rowq.find? fun e => e.num == num with
  | none => []
  | some e => (List.range 32).filter fun i => e.banks.getLsbD i && e.open_.getLsbD i && !(s.bank (bankOf n i)).fetched num
/-- A collective of rope `n` that every participant has issued. -/
def State.readyCollective (s : State) (n : Nat) : Option (List Nat) :=
  (s.leader n).rowq.findSome? fun e =>
    let ps := s.participants n e.num
    if !ps.isEmpty && ps.all fun i => match (s.bank (bankOf n i)).run with
        | some r => r.entry == some e.num && r.coll.isSome
        | none => false
    then some ps else none
/-- COLLECTIVE_START (R165): every source register is read before any destination is written, then each participant's instruction completes. Where the
participants name different registers or kinds, each receiver's own stand (log entry 66). -/
def State.collective (s : State) (n : Nat) : State :=
  match s.readyCollective n with
  | none => s
  | some ps =>
    let longest := ps.foldl (fun m i => let b := s.bank (bankOf n i)
                                        max m ((b.run.bind fun r => r.coll).elim 0 fun c => b.vl * esizeOf (effFmt b.vt c.e))) 0
    let one := ps.any fun i => (s.bank (bankOf n i)).run.any fun r => r.coll.any fun c => c.bcast
    (ps.foldl (fun t i =>
      let g := bankOf n i
      let b := s.bank g
      match b.run.bind fun r => r.coll with
      | none => t
      | some c =>
        let j := c.source i
        let w := collWrite c b (if ps.contains j then some (s.bank (bankOf n j)) else none)
        let tb := t.bank g
        let tb := tb.laneOut { rows := [w] } (s.cycle + 1 - max 1 ((b.vl * w.es + 383) / 384))
        let tb := { tb with run := tb.run.map fun r => { r with coll := none, rank := r.rank + 1 } }
        (t.setBank g tb).bretire g 4) s).beats n (s.leader n).taskOf ((if one then 1 else ps.length) * beatsOf longest)
def execCollectiveStart (n : Nat) (s : State) : Outcome State Fault Refusal := onEvent (fun s => s.collective n) s

/-! ### Conversions (R166 to R168) -/

/-- One conversion of VCVT from code S to code D. -/
def cvtEl (b : Bank) (S D v : Nat) : Nat × FFlags × Bool :=
  let mode := b.frm.toNat
  let fz := vtFZ b.vt
  let wS := 8 * esizeOf S
  let wD := 8 * esizeOf D
  if S = D then (v, 0, false) else
  match fmtOf S, fmtOf D with
  | none, none =>
    let z := if isSignedCode S then sextN v wS else (v : Int)
    let r := if isSignedCode D then satS z wD else satU z wD
    (wrapZ r.1 wD, 0, r.2)
  | none, some G =>
    let r := roundFp G mode fz (fOfInt (if isSignedCode S then sextN v wS else (v : Int)))
    (r.1, r.2, false)
  | some G, none =>
    let r := fpToInt mode (isSignedCode D) wD (fpIn G fz v)
    (r.1, r.2, false)
  | some G, some H =>
    let r := roundFp H mode fz (fpIn G fz v)
    (r.1, snanFlag G v ||| r.2, false)
def cvtSpec (d a p e : BitVec 3) (f : BitVec 5) (b : Bank) : LaneSpec :=
  let S := effFmt b.vt e
  let D := f.toNat
  let sS := esizeOf S
  let sD := esizeOf D
  let act := activeEls (b.pr p.toNat) b.vl sS
  let va := (b.slot a.toNat).latch
  let rs := act.map fun i => (i, cvtEl b S D (rowGet va sS i))
  { okFmt := okIntFp S, okLim := decide (b.vl * max sS sD ≤ rowLimit b.vt), regs := [(a.toNat, false), (d.toNat, true)]
    needs := elNeeds a.toNat sS (List.range b.vl), bmax := b.vl * max sS sD, lat := 4, els := act
    out := { rows := [{ k := d.toNat, es := sD, vs := rs.map fun r => (r.1, r.2.1) }]
             fl := rs.foldl (fun fl r => fl ||| r.2.2.1) 0, sat := rs.any fun r => r.2.2.2 } }
def execVcvt (d a p e : BitVec 3) (f : BitVec 5) (s : State) : Outcome State Fault Refusal :=
  onBank (.vcvt d a p e f) (fun g s => s.lane (.vcvt d a p e f) g (cvtSpec d a p e f)) s

/-- The bytes of packed elements of `w` bits (R74): element i at bits [w·i + w − 1 : w·i]. -/
def packBytes (w : Nat) (es : List Nat) : List Nat :=
  let n := es.foldr (fun v acc => v % 2 ^ w + 2 ^ w * acc) 0
  (List.range (w * es.length / 8)).map fun j => n / 256 ^ j % 256
/-- Blocks of 32. -/
def blocks32 {α : Type} : Nat → List α → List (List α)
  | 0, _ => []
  | n + 1, l => l.take 32 :: blocks32 n (l.drop 32)
/-- The packed blocks of elements 0 to VL − 1 of row `a`: scale, elements, flags; a signaling NaN sets NV with its block. VT.FZ flushes the source's
subnormals, as a floating-point source: the model's choice (R69, R167, R168, log entry 96). -/
def packRow (b : Bank) (S code : Nat) (a : BitVec 3) : List (Nat × List Nat × FFlags) :=
  match fmtOf S with
  | none => []
  | some G =>
    let va := (b.slot a.toNat).latch
    let vs := (List.range b.vl).map fun i => fpIn G (vtFZ b.vt) (rowGet va (esizeOf S) i)
    (blocks32 (b.vl / 32) vs).map (packBlock code b.frm.toNat (vtFZ b.vt))
def scaleWrites (l : BitVec 3) (bs : List (Nat × List Nat × FFlags)) : List (Nat × Nat) :=
  bs.zipIdx.map fun e => (768 * l.toNat + e.2, e.1.1)
def packFlags (bs : List (Nat × List Nat × FFlags)) : FFlags := bs.foldl (fun fl e => fl ||| e.2.2) 0
def packSpec (d a sc l e : BitVec 3) (f : BitVec 5) (b : Bank) : LaneSpec :=
  let S := effFmt b.vt e
  let w := mxWidth f.toNat
  let bs := packRow b S f.toNat a
  let bytes := bs.flatMap fun x => packBytes w x.2.1
  { okFmt := okFpSmall S, okLim := decide (b.vl % 32 = 0 ∧ b.vl * esizeOf S ≤ rowLimit b.vt)
    regs := [(a.toNat, false), (d.toNat, true), (sc.toNat, true)]
    needs := elNeeds a.toNat (esizeOf S) (List.range b.vl), bmax := max (b.vl * esizeOf S) (b.vl * w / 8), lat := 4, latC := true
    els := List.range b.vl
    out := { rows := [{ k := d.toNat, es := 1, vs := bytes.zipIdx.map fun x => (x.2, x.1) },
                      { k := sc.toNat, es := 1, vs := scaleWrites l bs }]
             fl := packFlags bs } }
def execVpackmx (d a sc l e : BitVec 3) (f : BitVec 5) (s : State) : Outcome State Fault Refusal :=
  onBank (.vpackmx d a sc l e f) (fun g s => s.lane (.vpackmx d a sc l e f) g (packSpec d a sc l e f)) s
/-- A value into format `F`: exact when it fits, and through `round_fp` otherwise (R167). -/
def exactOrRound (F : Fmt) (mode fz : Nat) (v : FVal) : Nat × FFlags :=
  let r := roundFp F mode 0 v
  if r.2 = 0 then r else roundFp F mode fz v
/-- VUNPACKMX (R167): the MX elements it reads are not flushed, whatever VT.FZ says: the model's choice (R69, log entry 96). -/
def unpackSpec (d a sc l : BitVec 3) (f : BitVec 5) (b : Bank) : LaneSpec :=
  let S := vtEF b.vt
  let w := mxWidth S
  let n := 8 * b.vl / w
  let sD := esizeOf f.toNat
  let va := (b.slot a.toNat).latch
  let vs := (b.slot sc.toNat).latch
  let at_ := fun i => 768 * l.toNat + i / 32
  let rs := (List.range n).map fun i => (i, match fmtOf f.toNat with
    | some G => exactOrRound G b.frm.toNat (vtFZ b.vt) (scaled (rowGetByte vs (at_ i)).toNat (packedElem S (packGet va 0 w i)))
    | none => (0, 0))
  { okFmt := decide (0x0C ≤ S ∧ S ≤ 0x11), okLim := decide (b.vl % (4 * w) = 0 ∧ b.vl ≤ rowLimit b.vt ∧ n * sD ≤ rowLimit b.vt)
    regs := [(a.toNat, false), (d.toNat, true), (sc.toNat, false)]
    needs := (List.range b.vl).map (fun j => (a.toNat, 8 * j / w, j, 1)) ++
             (List.range (n / 32)).map (fun j => (sc.toNat, 32 * j, 768 * l.toNat + j, 1))
    bmax := max b.vl (n * sD), lat := 4, latC := true, els := List.range n
    out := { rows := [{ k := d.toNat, es := sD, vs := rs.map fun r => (r.1, r.2.1) }], fl := rs.foldl (fun fl r => fl ||| r.2.2) 0 } }
def execVunpackmx (d a sc l : BitVec 3) (f : BitVec 5) (s : State) : Outcome State Fault Refusal :=
  onBank (.vunpackmx d a sc l f) (fun g s => s.lane (.vunpackmx d a sc l f) g (unpackSpec d a sc l f)) s
/-- The plane stride of R168. -/
def planeStride (vt : Word) : Nat := if vtPROT vt then 768 else 1536
/-- The byte of plane `j` for eight elements (R73, R168): bit 7 − j of q for element i at bit i. -/
def planeByte (j : Nat) (qs : List Nat) : Nat := qs.zipIdx.foldl (fun acc e => acc + (e.1 / 2 ^ (7 - j) % 2) * 2 ^ e.2) 0
def bpisplitSpec (d a sc l e : BitVec 3) (f : BitVec 5) (b : Bank) : LaneSpec :=
  let S := effFmt b.vt e
  let P := planeStride b.vt
  let bs := packRow b S f.toNat a
  let qs := bs.flatMap fun x => x.2.1
  { okFmt := okFpSmall S, okLim := decide (b.vl % 32 = 0 ∧ b.vl ≤ 8 * P ∧ b.vl * esizeOf S ≤ rowLimit b.vt)
    regs := [(a.toNat, false), (d.toNat, true), (sc.toNat, true)]
    needs := elNeeds a.toNat (esizeOf S) (List.range b.vl), bmax := b.vl * esizeOf S, lat := 4, latC := true
    els := List.range b.vl
    out := { rows := [{ k := d.toNat, es := 1, vs := (List.range 8).flatMap fun j => (List.range (b.vl / 8)).map fun i =>
                          (P * j + i, planeByte j ((qs.drop (8 * i)).take 8)) },
                      { k := sc.toNat, es := 1, vs := scaleWrites l bs }]
             fl := packFlags bs } }
def execVbpisplit (d a sc l e : BitVec 3) (f : BitVec 5) (s : State) : Outcome State Fault Refusal :=
  onBank (.vbpisplit d a sc l e f) (fun g s => s.lane (.vbpisplit d a sc l e f) g (bpisplitSpec d a sc l e f)) s
/-- The eight bits of element `i` from planes 0 to p − 1 of stride `P` (R73): a plane not read gives 0. -/
def planeElem (r : RowBits) (P p i : Nat) : Nat :=
  (List.range p).foldl (fun acc j => acc + ((rowGetByte r (P * j + i / 8)).toNat / 2 ^ (i % 8) % 2) * 2 ^ (7 - j)) 0
def bpijoinSpec (d a sc l : BitVec 3) (f : BitVec 5) (b : Bank) : LaneSpec :=
  let S := vtEF b.vt
  let P := planeStride b.vt
  let p := bpiPlanes S
  let n := 8 * b.vl
  let sD := esizeOf f.toNat
  let va := (b.slot a.toNat).latch
  let vs := (b.slot sc.toNat).latch
  let rs := (List.range n).map fun i => (i, match fmtOf f.toNat with
    | some G => roundFp G b.frm.toNat (vtFZ b.vt) (scaled (rowGetByte vs (768 * l.toNat + i / 32)).toNat (bpiVal S (planeElem va P p i)))
    | none => (0, 0))
  { okFmt := decide (0x13 ≤ S), okLim := decide (b.vl % 4 = 0 ∧ b.vl ≤ P ∧ n * sD ≤ rowLimit b.vt)
    regs := [(a.toNat, false), (d.toNat, true), (sc.toNat, false)]
    needs := ((List.range p).flatMap fun j => (List.range b.vl).map fun i => (a.toNat, 8 * i, P * j + i, 1)) ++
             (List.range (n / 32)).map (fun j => (sc.toNat, 32 * j, 768 * l.toNat + j, 1))
    bmax := max (p * b.vl) (n * sD), lat := 4, latC := true, els := List.range n
    out := { rows := [{ k := d.toNat, es := sD, vs := rs.map fun r => (r.1, r.2.1) }], fl := rs.foldl (fun fl r => fl ||| r.2.2) 0 } }
def execVbpijoin (d a sc l : BitVec 3) (f : BitVec 5) (s : State) : Outcome State Fault Refusal :=
  onBank (.vbpijoin d a sc l f) (fun g s => s.lane (.vbpijoin d a sc l f) g (bpijoinSpec d a sc l f)) s

end Sys2Proof.Machine
end

