-- ==== Sys2Proof/Machine/LeaderAlu.lean ====
section
/-! DEFINITION. Integer, address and bitfield instructions of the leader (R89 to R94). Each reads x registers, writes one and does
nothing else. -/
namespace Sys2Proof.Machine

open Host (Outcome)

/-! ### Results (Tables 4.3, 4.5, 4.6) -/

/-- xb with a shift amount: B mod 64 (R89). -/
def sh6 (b : Word) : Nat := b.toNat % 64
def aluAdd (a b : Word) : Word := a + b
def aluSub (a b : Word) : Word := a - b
def aluAnd (a b : Word) : Word := a &&& b
def aluOr (a b : Word) : Word := a ||| b
def aluXor (a b : Word) : Word := a ^^^ b
def aluAndn (a b : Word) : Word := a &&& ~~~b
def aluSll (a b : Word) : Word := a <<< sh6 b
def aluSrl (a b : Word) : Word := a >>> sh6 b
def aluSra (a b : Word) : Word := a.sshiftRight (sh6 b)
def aluSlt (a b : Word) : Word := b01 (a.slt b)
def aluSltu (a b : Word) : Word := b01 (a.ult b)
def aluMin (a b : Word) : Word := if a.slt b then a else b
def aluMax (a b : Word) : Word := if a.slt b then b else a
def aluMinu (a b : Word) : Word := if a.ult b then a else b
def aluMaxu (a b : Word) : Word := if a.ult b then b else a
def aluMul (a b : Word) : Word := a * b
/-- High half of the signed product. -/
def aluMulh (a b : Word) : Word := wordZ (a.toInt * b.toInt / 2 ^ 64)
/-- High half of the unsigned product. -/
def aluMulhu (a b : Word) : Word := BitVec.ofNat 64 (a.toNat * b.toNat / 2 ^ 64)
/-- Signed quotient toward zero; a zero divisor gives all ones (Table 4.5). -/
def aluDiv (a b : Word) : Word := if b = 0 then BitVec.allOnes 64 else wordZ (a.toInt.tdiv b.toInt)
def aluDivu (a b : Word) : Word := if b = 0 then BitVec.allOnes 64 else BitVec.ofNat 64 (a.toNat / b.toNat)
/-- Signed remainder with the sign of the dividend; a zero divisor gives the dividend. -/
def aluRem (a b : Word) : Word := if b = 0 then a else wordZ (a.toInt.tmod b.toInt)
def aluRemu (a b : Word) : Word := if b = 0 then a else BitVec.ofNat 64 (a.toNat % b.toNat)
/-- Number of zero bits above the highest one bit among the low `n` bits of `a`. -/
def leadZeros (a : Word) : Nat → Nat
  | 0 => 0
  | n + 1 => if a.getLsbD n then 0 else leadZeros a n + 1
/-- Number of zero bits from bit `k` upward, `n` bits left. -/
def trailZeros (a : Word) (k : Nat) : Nat → Nat
  | 0 => 0
  | n + 1 => if a.getLsbD k then 0 else trailZeros a (k + 1) n + 1
/-- Number of one bits among the low `n` bits. -/
def oneBits (a : Word) : Nat → Nat
  | 0 => 0
  | n + 1 => oneBits a n + (if a.getLsbD n then 1 else 0)
/-- 8, 16 or 32 (Table 2.5). -/
def widthOf (w : BitVec 2) : Nat := 8 * 2 ^ w.toNat
/-- A with the bits `[pos+len-1:pos]` of `old` replaced by A's low `len` bits. -/
def insertBits (old a : Word) (pos len : Nat) : Word :=
  let m := BitVec.ofNat 64 ((2 ^ len - 1) * 2 ^ pos)
  (old &&& ~~~m) ||| ((a <<< pos) &&& m)

/-! ### Shapes -/

/-- A register-register instruction. -/
def alu3 (i : Instr) (d a b : BitVec 5) (f : Word → Word → Word) (s : State) : Outcome State Fault Refusal :=
  onLeader i [a.toNat, b.toNat] (fun n s => s.result n d.toNat (f (s.xr n a.toNat) (s.xr n b.toNat)) 4) s
/-- A register-immediate instruction; its length is that of its encoding. -/
def alu2 (i : Instr) (d a : BitVec 5) (f : Word → Word) (s : State) : Outcome State Fault Refusal :=
  onLeader i [a.toNat] (fun n s => s.result n d.toNat (f (s.xr n a.toNat)) (instrLen i)) s

/-! ### Meanings -/

/-- ADD (R89). -/
def execAdd (d a b : BitVec 5) (s : State) : Outcome State Fault Refusal :=
  alu3 (.add d a b) d a b aluAdd s
/-- SUB (R89). -/
def execSub (d a b : BitVec 5) (s : State) : Outcome State Fault Refusal :=
  alu3 (.sub d a b) d a b aluSub s
/-- AND (R89). -/
def execAnd (d a b : BitVec 5) (s : State) : Outcome State Fault Refusal :=
  alu3 (.and d a b) d a b aluAnd s
/-- OR (R89). -/
def execOr (d a b : BitVec 5) (s : State) : Outcome State Fault Refusal :=
  alu3 (.or d a b) d a b aluOr s
/-- XOR (R89). -/
def execXor (d a b : BitVec 5) (s : State) : Outcome State Fault Refusal :=
  alu3 (.xor d a b) d a b aluXor s
/-- ANDN (R89). -/
def execAndn (d a b : BitVec 5) (s : State) : Outcome State Fault Refusal :=
  alu3 (.andn d a b) d a b aluAndn s
/-- SLL (R89). -/
def execSll (d a b : BitVec 5) (s : State) : Outcome State Fault Refusal :=
  alu3 (.sll d a b) d a b aluSll s
/-- SRL (R89). -/
def execSrl (d a b : BitVec 5) (s : State) : Outcome State Fault Refusal :=
  alu3 (.srl d a b) d a b aluSrl s
/-- SRA (R89). -/
def execSra (d a b : BitVec 5) (s : State) : Outcome State Fault Refusal :=
  alu3 (.sra d a b) d a b aluSra s
/-- SLT (R89). -/
def execSlt (d a b : BitVec 5) (s : State) : Outcome State Fault Refusal :=
  alu3 (.slt d a b) d a b aluSlt s
/-- SLTU (R89). -/
def execSltu (d a b : BitVec 5) (s : State) : Outcome State Fault Refusal :=
  alu3 (.sltu d a b) d a b aluSltu s
/-- MIN (R89). -/
def execMin (d a b : BitVec 5) (s : State) : Outcome State Fault Refusal :=
  alu3 (.min d a b) d a b aluMin s
/-- MAX (R89). -/
def execMax (d a b : BitVec 5) (s : State) : Outcome State Fault Refusal :=
  alu3 (.max d a b) d a b aluMax s
/-- MINU (R89). -/
def execMinu (d a b : BitVec 5) (s : State) : Outcome State Fault Refusal :=
  alu3 (.minu d a b) d a b aluMinu s
/-- MAXU (R89). -/
def execMaxu (d a b : BitVec 5) (s : State) : Outcome State Fault Refusal :=
  alu3 (.maxu d a b) d a b aluMaxu s
/-- MUL (R93). -/
def execMul (d a b : BitVec 5) (s : State) : Outcome State Fault Refusal :=
  alu3 (.mul d a b) d a b aluMul s
/-- MULH (R93). -/
def execMulh (d a b : BitVec 5) (s : State) : Outcome State Fault Refusal :=
  alu3 (.mulh d a b) d a b aluMulh s
/-- MULHU (R93). -/
def execMulhu (d a b : BitVec 5) (s : State) : Outcome State Fault Refusal :=
  alu3 (.mulhu d a b) d a b aluMulhu s
/-- DIV (R93). -/
def execDiv (d a b : BitVec 5) (s : State) : Outcome State Fault Refusal :=
  alu3 (.div d a b) d a b aluDiv s
/-- DIVU (R93). -/
def execDivu (d a b : BitVec 5) (s : State) : Outcome State Fault Refusal :=
  alu3 (.divu d a b) d a b aluDivu s
/-- REM (R93). -/
def execRem (d a b : BitVec 5) (s : State) : Outcome State Fault Refusal :=
  alu3 (.rem d a b) d a b aluRem s
/-- REMU (R93). -/
def execRemu (d a b : BitVec 5) (s : State) : Outcome State Fault Refusal :=
  alu3 (.remu d a b) d a b aluRemu s
/-- LEA (R89). -/
def execLea (d a b : BitVec 5) (sh : BitVec 2) (s : State) : Outcome State Fault Refusal :=
  alu3 (.lea d a b sh) d a b (fun x y => x + (y <<< sh.toNat)) s
/-- MADD reads xd as its addend (R93). -/
def execMadd (d a b : BitVec 5) (s : State) : Outcome State Fault Refusal :=
  onLeader (.madd d a b) [a.toNat, b.toNat, d.toNat]
    (fun n s => s.result n d.toNat (s.xr n d.toNat + s.xr n a.toNat * s.xr n b.toNat) 4) s
/-- ADDI (R90). -/
def execAddi (d a : BitVec 5) (i : BitVec 16) (s : State) : Outcome State Fault Refusal :=
  alu2 (.addi d a i) d a (fun x => x + i.signExtend 64) s
/-- ADDI (R90) behind EXT, W = 42. -/
def execAddiExt (d a : BitVec 5) (i : BitVec 42) (s : State) : Outcome State Fault Refusal :=
  alu2 (.addiExt d a i) d a (fun x => x + i.signExtend 64) s
/-- ANDI (R90). -/
def execAndi (d a : BitVec 5) (i : BitVec 16) (s : State) : Outcome State Fault Refusal :=
  alu2 (.andi d a i) d a (fun x => x &&& i.setWidth 64) s
/-- ANDI (R90) behind EXT, W = 42. -/
def execAndiExt (d a : BitVec 5) (i : BitVec 42) (s : State) : Outcome State Fault Refusal :=
  alu2 (.andiExt d a i) d a (fun x => x &&& i.setWidth 64) s
/-- ORI (R90). -/
def execOri (d a : BitVec 5) (i : BitVec 16) (s : State) : Outcome State Fault Refusal :=
  alu2 (.ori d a i) d a (fun x => x ||| i.setWidth 64) s
/-- ORI (R90) behind EXT, W = 42. -/
def execOriExt (d a : BitVec 5) (i : BitVec 42) (s : State) : Outcome State Fault Refusal :=
  alu2 (.oriExt d a i) d a (fun x => x ||| i.setWidth 64) s
/-- XORI (R90). -/
def execXori (d a : BitVec 5) (i : BitVec 16) (s : State) : Outcome State Fault Refusal :=
  alu2 (.xori d a i) d a (fun x => x ^^^ i.setWidth 64) s
/-- XORI (R90) behind EXT, W = 42. -/
def execXoriExt (d a : BitVec 5) (i : BitVec 42) (s : State) : Outcome State Fault Refusal :=
  alu2 (.xoriExt d a i) d a (fun x => x ^^^ i.setWidth 64) s
/-- SLTI (R90). -/
def execSlti (d a : BitVec 5) (i : BitVec 16) (s : State) : Outcome State Fault Refusal :=
  alu2 (.slti d a i) d a (fun x => b01 (x.slt (i.signExtend 64))) s
/-- SLTI (R90) behind EXT, W = 42. -/
def execSltiExt (d a : BitVec 5) (i : BitVec 42) (s : State) : Outcome State Fault Refusal :=
  alu2 (.sltiExt d a i) d a (fun x => b01 (x.slt (i.signExtend 64))) s
/-- SLTIU (R90). -/
def execSltiu (d a : BitVec 5) (i : BitVec 16) (s : State) : Outcome State Fault Refusal :=
  alu2 (.sltiu d a i) d a (fun x => b01 (x.ult (i.signExtend 64))) s
/-- SLTIU (R90) behind EXT, W = 42. -/
def execSltiuExt (d a : BitVec 5) (i : BitVec 42) (s : State) : Outcome State Fault Refusal :=
  alu2 (.sltiuExt d a i) d a (fun x => b01 (x.ult (i.signExtend 64))) s
/-- SLLI (R91). -/
def execSlli (d a : BitVec 5) (sh : BitVec 6) (s : State) : Outcome State Fault Refusal :=
  alu2 (.slli d a sh) d a (fun x => x <<< sh.toNat) s
/-- SRLI (R91). -/
def execSrli (d a : BitVec 5) (sh : BitVec 6) (s : State) : Outcome State Fault Refusal :=
  alu2 (.srli d a sh) d a (fun x => x >>> sh.toNat) s
/-- SRAI (R91). -/
def execSrai (d a : BitVec 5) (sh : BitVec 6) (s : State) : Outcome State Fault Refusal :=
  alu2 (.srai d a sh) d a (fun x => x.sshiftRight sh.toNat) s
/-- MOVHI (R92). -/
def execMovhi (d : BitVec 5) (i : BitVec 16) (s : State) : Outcome State Fault Refusal :=
  onLeader (.movhi d i) [] (fun n s => s.result n d.toNat (i.signExtend 64 <<< 16) (instrLen (.movhi d i))) s
/-- MOVHI (R92). -/
def execMovhiExt (d : BitVec 5) (i : BitVec 42) (s : State) : Outcome State Fault Refusal :=
  onLeader (.movhiExt d i) [] (fun n s => s.result n d.toNat (i.signExtend 64 <<< 16) (instrLen (.movhiExt d i))) s
/-- CLZ: 64 when A is 0 (R94). -/
def execClz (d a : BitVec 5) (s : State) : Outcome State Fault Refusal :=
  alu2 (.clz d a) d a (fun x => BitVec.ofNat 64 (leadZeros x 64)) s
/-- CTZ: 64 when A is 0 (R94). -/
def execCtz (d a : BitVec 5) (s : State) : Outcome State Fault Refusal :=
  alu2 (.ctz d a) d a (fun x => BitVec.ofNat 64 (trailZeros x 0 64)) s
/-- POPC (R94). -/
def execPopc (d a : BitVec 5) (s : State) : Outcome State Fault Refusal :=
  alu2 (.popc d a) d a (fun x => BitVec.ofNat 64 (oneBits x 64)) s
/-- SEXT (R94). -/
def execSext (d a : BitVec 5) (w : BitVec 2) (s : State) : Outcome State Fault Refusal :=
  alu2 (.sext d a w) d a (fun x => (x.setWidth (widthOf w)).signExtend 64) s
/-- ZEXT (R94). -/
def execZext (d a : BitVec 5) (w : BitVec 2) (s : State) : Outcome State Fault Refusal :=
  alu2 (.zext d a w) d a (fun x => (x.setWidth (widthOf w)).setWidth 64) s
/-- BFX (R94). -/
def execBfx (d a : BitVec 5) (p l : BitVec 6) (s : State) : Outcome State Fault Refusal :=
  alu2 (.bfx d a p l) d a (fun x => (x.extractLsb' p.toNat (l.toNat + 1)).signExtend 64) s
/-- BFXU (R94). -/
def execBfxu (d a : BitVec 5) (p l : BitVec 6) (s : State) : Outcome State Fault Refusal :=
  alu2 (.bfxu d a p l) d a (fun x => (x.extractLsb' p.toNat (l.toNat + 1)).setWidth 64) s
/-- BFI reads xd (R94). -/
def execBfi (d a : BitVec 5) (p l : BitVec 6) (s : State) : Outcome State Fault Refusal :=
  onLeader (.bfi d a p l) [a.toNat, d.toNat]
    (fun n s => s.result n d.toNat (insertBits (s.xr n d.toNat) (s.xr n a.toNat) p.toNat (l.toNat + 1)) 4) s

end Sys2Proof.Machine
end

