-- ==== Sys2Proof/Machine/Dispatch.lean ====
section
/-! DEFINITION. What each row of the opcode table does: one arm per constructor, one meaning each. -/
namespace Sys2Proof.Machine

open Host (Outcome)

def exec (i : Instr) (s : State) : Host.Outcome State Fault Refusal :=
  match i with
  | .add d a b => Sys2Proof.Machine.execAdd d a b s
  | .sub d a b => Sys2Proof.Machine.execSub d a b s
  | .and d a b => Sys2Proof.Machine.execAnd d a b s
  | .or d a b => Sys2Proof.Machine.execOr d a b s
  | .xor d a b => Sys2Proof.Machine.execXor d a b s
  | .andn d a b => Sys2Proof.Machine.execAndn d a b s
  | .sll d a b => Sys2Proof.Machine.execSll d a b s
  | .srl d a b => Sys2Proof.Machine.execSrl d a b s
  | .sra d a b => Sys2Proof.Machine.execSra d a b s
  | .slt d a b => Sys2Proof.Machine.execSlt d a b s
  | .sltu d a b => Sys2Proof.Machine.execSltu d a b s
  | .min d a b => Sys2Proof.Machine.execMin d a b s
  | .max d a b => Sys2Proof.Machine.execMax d a b s
  | .minu d a b => Sys2Proof.Machine.execMinu d a b s
  | .maxu d a b => Sys2Proof.Machine.execMaxu d a b s
  | .lea d a b s1 => Sys2Proof.Machine.execLea d a b s1 s
  | .addi d a i1 => Sys2Proof.Machine.execAddi d a i1 s
  | .addiExt d a i1 => Sys2Proof.Machine.execAddiExt d a i1 s
  | .andi d a i1 => Sys2Proof.Machine.execAndi d a i1 s
  | .andiExt d a i1 => Sys2Proof.Machine.execAndiExt d a i1 s
  | .ori d a i1 => Sys2Proof.Machine.execOri d a i1 s
  | .oriExt d a i1 => Sys2Proof.Machine.execOriExt d a i1 s
  | .xori d a i1 => Sys2Proof.Machine.execXori d a i1 s
  | .xoriExt d a i1 => Sys2Proof.Machine.execXoriExt d a i1 s
  | .slti d a i1 => Sys2Proof.Machine.execSlti d a i1 s
  | .sltiExt d a i1 => Sys2Proof.Machine.execSltiExt d a i1 s
  | .sltiu d a i1 => Sys2Proof.Machine.execSltiu d a i1 s
  | .sltiuExt d a i1 => Sys2Proof.Machine.execSltiuExt d a i1 s
  | .slli d a s1 => Sys2Proof.Machine.execSlli d a s1 s
  | .srli d a s1 => Sys2Proof.Machine.execSrli d a s1 s
  | .srai d a s1 => Sys2Proof.Machine.execSrai d a s1 s
  | .movhi d i1 => Sys2Proof.Machine.execMovhi d i1 s
  | .movhiExt d i1 => Sys2Proof.Machine.execMovhiExt d i1 s
  | .mul d a b => Sys2Proof.Machine.execMul d a b s
  | .mulh d a b => Sys2Proof.Machine.execMulh d a b s
  | .mulhu d a b => Sys2Proof.Machine.execMulhu d a b s
  | .div d a b => Sys2Proof.Machine.execDiv d a b s
  | .divu d a b => Sys2Proof.Machine.execDivu d a b s
  | .rem d a b => Sys2Proof.Machine.execRem d a b s
  | .remu d a b => Sys2Proof.Machine.execRemu d a b s
  | .madd d a b => Sys2Proof.Machine.execMadd d a b s
  | .clz d a => Sys2Proof.Machine.execClz d a s
  | .ctz d a => Sys2Proof.Machine.execCtz d a s
  | .popc d a => Sys2Proof.Machine.execPopc d a s
  | .sext d a w => Sys2Proof.Machine.execSext d a w s
  | .zext d a w => Sys2Proof.Machine.execZext d a w s
  | .bfx d a p l => Sys2Proof.Machine.execBfx d a p l s
  | .bfxu d a p l => Sys2Proof.Machine.execBfxu d a p l s
  | .bfi d a p l => Sys2Proof.Machine.execBfi d a p l s
  | .ld d a s1 h o => Sys2Proof.Machine.execLd d a s1 h o s
  | .ldExt d a s1 h o => Sys2Proof.Machine.execLdExt d a s1 h o s
  | .st d a s1 h o => Sys2Proof.Machine.execSt d a s1 h o s
  | .stExt d a s1 h o => Sys2Proof.Machine.execStExt d a s1 h o s
  | .lda d a z => Sys2Proof.Machine.execLda d a z s
  | .sta a b z => Sys2Proof.Machine.execSta a b z s
  | .amo d a b z o => Sys2Proof.Machine.execAmo d a b z o s
  | .cas d a b z => Sys2Proof.Machine.execCas d a b z s
  | .pfl a h o => Sys2Proof.Machine.execPfl a h o s
  | .pflExt a h o => Sys2Proof.Machine.execPflExt a h o s
  | .cflush a o => Sys2Proof.Machine.execCflush a o s
  | .cflushExt a o => Sys2Proof.Machine.execCflushExt a o s
  | .cdiscard a o => Sys2Proof.Machine.execCdiscard a o s
  | .cdiscardExt a o => Sys2Proof.Machine.execCdiscardExt a o s
  | .beq a b o => Sys2Proof.Machine.execBeq a b o s
  | .beqExt a b o => Sys2Proof.Machine.execBeqExt a b o s
  | .bne a b o => Sys2Proof.Machine.execBne a b o s
  | .bneExt a b o => Sys2Proof.Machine.execBneExt a b o s
  | .blt a b o => Sys2Proof.Machine.execBlt a b o s
  | .bltExt a b o => Sys2Proof.Machine.execBltExt a b o s
  | .bge a b o => Sys2Proof.Machine.execBge a b o s
  | .bgeExt a b o => Sys2Proof.Machine.execBgeExt a b o s
  | .bltu a b o => Sys2Proof.Machine.execBltu a b o s
  | .bltuExt a b o => Sys2Proof.Machine.execBltuExt a b o s
  | .bgeu a b o => Sys2Proof.Machine.execBgeu a b o s
  | .bgeuExt a b o => Sys2Proof.Machine.execBgeuExt a b o s
  | .j o => Sys2Proof.Machine.execJ o s
  | .jExt o => Sys2Proof.Machine.execJExt o s
  | .jal o => Sys2Proof.Machine.execJal o s
  | .jalExt o => Sys2Proof.Machine.execJalExt o s
  | .jalr d a o => Sys2Proof.Machine.execJalr d a o s
  | .jalrExt d a o => Sys2Proof.Machine.execJalrExt d a o s
  | .callg n => Sys2Proof.Machine.execCallg n s
  | .retg => Sys2Proof.Machine.execRetg s
  | .loop a i1 => Sys2Proof.Machine.execLoop a i1 s
  | .leave => Sys2Proof.Machine.execLeave s
  | .csrr d c => Sys2Proof.Machine.execCsrr d c s
  | .csrw d a c => Sys2Proof.Machine.execCsrw d a c s
  | .csrs d a c => Sys2Proof.Machine.execCsrs d a c s
  | .csrc d a c => Sys2Proof.Machine.execCsrc d a c s
  | .syscall c => Sys2Proof.Machine.execSyscall c s
  | .tret => Sys2Proof.Machine.execTret s
  | .wfe => Sys2Proof.Machine.execWfe s
  | .halt => Sys2Proof.Machine.execHalt s
  | .bkpt c => Sys2Proof.Machine.execBkpt c s
  | .reclaim d a => Sys2Proof.Machine.execReclaim d a s
  | .kill d a => Sys2Proof.Machine.execKill d a s
  | .rgninv d a => Sys2Proof.Machine.execRgninv d a s
  | .diagst d a c => Sys2Proof.Machine.execDiagst d a c s
  | .diagld d a c => Sys2Proof.Machine.execDiagld d a c s
  | .savectx d a => Sys2Proof.Machine.execSavectx d a s
  | .loadctx a => Sys2Proof.Machine.execLoadctx a s
  | .belay s1 => Sys2Proof.Machine.execBelay s1 s
  | .belayRed d a s1 o => Sys2Proof.Machine.execBelayRed d a s1 o s
  | .publish s1 => Sys2Proof.Machine.execPublish s1 s
  | .cairn a b => Sys2Proof.Machine.execCairn a b s
  | .trigger => Sys2Proof.Machine.execTrigger s
  | .launch d a b => Sys2Proof.Machine.execLaunch d a b s
  | .vf a => Sys2Proof.Machine.execVf a s
  | .setvl d a b k => Sys2Proof.Machine.execSetvl d a b k s
  | .setvlC d a b k => Sys2Proof.Machine.execSetvlC d a b k s
  | .setvlQ a b k => Sys2Proof.Machine.execSetvlQ a b k s
  | .vrd d a s1 => Sys2Proof.Machine.execVrd d a s1 s
  | .vwr a b s1 => Sys2Proof.Machine.execVwr a b s1 s
  | .bmask d a => Sys2Proof.Machine.execBmask d a s
  | .act d n => Sys2Proof.Machine.execAct d n s
  | .actw d n => Sys2Proof.Machine.execActw d n s
  | .wb d => Sys2Proof.Machine.execWb d s
  | .pre d => Sys2Proof.Machine.execPre d s
  | .pred d => Sys2Proof.Machine.execPred d s
  | .ref d => Sys2Proof.Machine.execRef d s
  | .rowcpy d a n => Sys2Proof.Machine.execRowcpy d a n s
  | .rowfill d n => Sys2Proof.Machine.execRowfill d n s
  | .vadd d a b p e => Sys2Proof.Machine.execVadd d a b p e s
  | .vaddScalar d a p e y => Sys2Proof.Machine.execVaddScalar d a p e y s
  | .vsub d a b p e => Sys2Proof.Machine.execVsub d a b p e s
  | .vsubScalar d a p e y => Sys2Proof.Machine.execVsubScalar d a p e y s
  | .vmul d a b p e => Sys2Proof.Machine.execVmul d a b p e s
  | .vmulScalar d a p e y => Sys2Proof.Machine.execVmulScalar d a p e y s
  | .vmulh d a b p e => Sys2Proof.Machine.execVmulh d a b p e s
  | .vmulhScalar d a p e y => Sys2Proof.Machine.execVmulhScalar d a p e y s
  | .vmulhu d a b p e => Sys2Proof.Machine.execVmulhu d a b p e s
  | .vmulhuScalar d a p e y => Sys2Proof.Machine.execVmulhuScalar d a p e y s
  | .vmac d a b p e => Sys2Proof.Machine.execVmac d a b p e s
  | .vmacScalar d a p e y => Sys2Proof.Machine.execVmacScalar d a p e y s
  | .vand d a b p e => Sys2Proof.Machine.execVand d a b p e s
  | .vandScalar d a p e y => Sys2Proof.Machine.execVandScalar d a p e y s
  | .vor d a b p e => Sys2Proof.Machine.execVor d a b p e s
  | .vorScalar d a p e y => Sys2Proof.Machine.execVorScalar d a p e y s
  | .vxor d a b p e => Sys2Proof.Machine.execVxor d a b p e s
  | .vxorScalar d a p e y => Sys2Proof.Machine.execVxorScalar d a p e y s
  | .vsll d a b p e => Sys2Proof.Machine.execVsll d a b p e s
  | .vsllScalar d a p e y => Sys2Proof.Machine.execVsllScalar d a p e y s
  | .vsrl d a b p e => Sys2Proof.Machine.execVsrl d a b p e s
  | .vsrlScalar d a p e y => Sys2Proof.Machine.execVsrlScalar d a p e y s
  | .vsra d a b p e => Sys2Proof.Machine.execVsra d a b p e s
  | .vsraScalar d a p e y => Sys2Proof.Machine.execVsraScalar d a p e y s
  | .vmin d a b p e => Sys2Proof.Machine.execVmin d a b p e s
  | .vminScalar d a p e y => Sys2Proof.Machine.execVminScalar d a p e y s
  | .vmax d a b p e => Sys2Proof.Machine.execVmax d a b p e s
  | .vmaxScalar d a p e y => Sys2Proof.Machine.execVmaxScalar d a p e y s
  | .vminu d a b p e => Sys2Proof.Machine.execVminu d a b p e s
  | .vminuScalar d a p e y => Sys2Proof.Machine.execVminuScalar d a p e y s
  | .vmaxu d a b p e => Sys2Proof.Machine.execVmaxu d a b p e s
  | .vmaxuScalar d a p e y => Sys2Proof.Machine.execVmaxuScalar d a p e y s
  | .vsplat d p e y => Sys2Proof.Machine.execVsplat d p e y s
  | .viota d p e => Sys2Proof.Machine.execViota d p e s
  | .vsel d a b p e => Sys2Proof.Machine.execVsel d a b p e s
  | .vselScalar d a p e y => Sys2Proof.Machine.execVselScalar d a p e y s
  | .vadds d a b p e => Sys2Proof.Machine.execVadds d a b p e s
  | .vaddsScalar d a p e y => Sys2Proof.Machine.execVaddsScalar d a p e y s
  | .vsubs d a b p e => Sys2Proof.Machine.execVsubs d a b p e s
  | .vsubsScalar d a p e y => Sys2Proof.Machine.execVsubsScalar d a p e y s
  | .vaddsu d a b p e => Sys2Proof.Machine.execVaddsu d a b p e s
  | .vaddsuScalar d a p e y => Sys2Proof.Machine.execVaddsuScalar d a p e y s
  | .vsubsu d a b p e => Sys2Proof.Machine.execVsubsu d a b p e s
  | .vsubsuScalar d a p e y => Sys2Proof.Machine.execVsubsuScalar d a p e y s
  | .vwmul d a b p e => Sys2Proof.Machine.execVwmul d a b p e s
  | .vwmulScalar d a p e y => Sys2Proof.Machine.execVwmulScalar d a p e y s
  | .vwmac d a b p e => Sys2Proof.Machine.execVwmac d a b p e s
  | .vwmacScalar d a p e y => Sys2Proof.Machine.execVwmacScalar d a p e y s
  | .vwmacu d a b p e => Sys2Proof.Machine.execVwmacu d a b p e s
  | .vwmacuScalar d a p e y => Sys2Proof.Machine.execVwmacuScalar d a p e y s
  | .vnclip d a b p e => Sys2Proof.Machine.execVnclip d a b p e s
  | .vnclipScalar d a p e y => Sys2Proof.Machine.execVnclipScalar d a p e y s
  | .vnclipu d a b p e => Sys2Proof.Machine.execVnclipu d a b p e s
  | .vnclipuScalar d a p e y => Sys2Proof.Machine.execVnclipuScalar d a p e y s
  | .vssra d a b p e => Sys2Proof.Machine.execVssra d a b p e s
  | .vssraScalar d a p e y => Sys2Proof.Machine.execVssraScalar d a p e y s
  | .vfadd d a b p e => Sys2Proof.Machine.execVfadd d a b p e s
  | .vfaddScalar d a p e y => Sys2Proof.Machine.execVfaddScalar d a p e y s
  | .vfsub d a b p e => Sys2Proof.Machine.execVfsub d a b p e s
  | .vfsubScalar d a p e y => Sys2Proof.Machine.execVfsubScalar d a p e y s
  | .vfmul d a b p e => Sys2Proof.Machine.execVfmul d a b p e s
  | .vfmulScalar d a p e y => Sys2Proof.Machine.execVfmulScalar d a p e y s
  | .vfma d a b p e => Sys2Proof.Machine.execVfma d a b p e s
  | .vfmaScalar d a p e y => Sys2Proof.Machine.execVfmaScalar d a p e y s
  | .vfmin d a b p e => Sys2Proof.Machine.execVfmin d a b p e s
  | .vfminScalar d a p e y => Sys2Proof.Machine.execVfminScalar d a p e y s
  | .vfmax d a b p e => Sys2Proof.Machine.execVfmax d a b p e s
  | .vfmaxScalar d a p e y => Sys2Proof.Machine.execVfmaxScalar d a p e y s
  | .vfsgnJ d a b p e => Sys2Proof.Machine.execVfsgnJ d a b p e s
  | .vfsgnJScalar d a p e y => Sys2Proof.Machine.execVfsgnJScalar d a p e y s
  | .vfsgnN d a b p e => Sys2Proof.Machine.execVfsgnN d a b p e s
  | .vfsgnNScalar d a p e y => Sys2Proof.Machine.execVfsgnNScalar d a p e y s
  | .vfsgnX d a b p e => Sys2Proof.Machine.execVfsgnX d a b p e s
  | .vfsgnXScalar d a p e y => Sys2Proof.Machine.execVfsgnXScalar d a p e y s
  | .vfexp2 d a p e => Sys2Proof.Machine.execVfexp2 d a p e s
  | .vfrece d a p e => Sys2Proof.Machine.execVfrece d a p e s
  | .vcmp d a b p e c => Sys2Proof.Machine.execVcmp d a b p e c s
  | .vcmpScalar d a p e y c => Sys2Proof.Machine.execVcmpScalar d a p e y c s
  | .vfcmp d a b p e c => Sys2Proof.Machine.execVfcmp d a b p e c s
  | .vfcmpScalar d a p e y c => Sys2Proof.Machine.execVfcmpScalar d a p e y c s
  | .pand d a b p => Sys2Proof.Machine.execPand d a b p s
  | .por d a b p => Sys2Proof.Machine.execPor d a b p s
  | .pxor d a b p => Sys2Proof.Machine.execPxor d a b p s
  | .pandn d a b p => Sys2Proof.Machine.execPandn d a b p s
  | .vredsum a p e y => Sys2Proof.Machine.execVredsum a p e y s
  | .vredmin a p e y => Sys2Proof.Machine.execVredmin a p e y s
  | .vredmax a p e y => Sys2Proof.Machine.execVredmax a p e y s
  | .vfredsum a p e y => Sys2Proof.Machine.execVfredsum a p e y s
  | .vfredmax a p e y => Sys2Proof.Machine.execVfredmax a p e y s
  | .vpopc a p e y => Sys2Proof.Machine.execVpopc a p e y s
  | .vpopcQ a p e y => Sys2Proof.Machine.execVpopcQ a p e y s
  | .vfirst a p e y => Sys2Proof.Machine.execVfirst a p e y s
  | .vslideup d a p e f y => Sys2Proof.Machine.execVslideup d a p e f y s
  | .vslidedn d a p e f y => Sys2Proof.Machine.execVslidedn d a p e f y s
  | .vperm d a b p e x => Sys2Proof.Machine.execVperm d a b p e x s
  | .vcompress d a p e => Sys2Proof.Machine.execVcompress d a p e s
  | .vshuf d a p e y => Sys2Proof.Machine.execVshuf d a p e y s
  | .vbcast d a p e y => Sys2Proof.Machine.execVbcast d a p e y s
  | .vcvt d a p e f => Sys2Proof.Machine.execVcvt d a p e f s
  | .vpackmx d a s1 l e f => Sys2Proof.Machine.execVpackmx d a s1 l e f s
  | .vunpackmx d a s1 l f => Sys2Proof.Machine.execVunpackmx d a s1 l f s
  | .vbpisplit d a s1 l e f => Sys2Proof.Machine.execVbpisplit d a s1 l e f s
  | .vbpijoin d a s1 l f => Sys2Proof.Machine.execVbpijoin d a s1 l f s
  | .vld d p e o x y h => Sys2Proof.Machine.execVld d p e o x y h s
  | .vst d p e o x y h => Sys2Proof.Machine.execVst d p e o x y h s
  | .vldx d b p e o x y h => Sys2Proof.Machine.execVldx d b p e o x y h s
  | .vstx d b p e o x y h => Sys2Proof.Machine.execVstx d b p e o x y h s
  | .vldseg d n p e o x y h => Sys2Proof.Machine.execVldseg d n p e o x y h s
  | .vstseg d n p e o x y h => Sys2Proof.Machine.execVstseg d n p e o x y h s
  | .vldxPeer d a b p e o x m => Sys2Proof.Machine.execVldxPeer d a b p e o x m s
  | .vstxPeer d a b p e o x m => Sys2Proof.Machine.execVstxPeer d a b p e o x m s
  | .yadd d a b => Sys2Proof.Machine.execYadd d a b s
  | .ysub d a b => Sys2Proof.Machine.execYsub d a b s
  | .yand d a b => Sys2Proof.Machine.execYand d a b s
  | .yor d a b => Sys2Proof.Machine.execYor d a b s
  | .yxor d a b => Sys2Proof.Machine.execYxor d a b s
  | .ysll d a b => Sys2Proof.Machine.execYsll d a b s
  | .ysrl d a b => Sys2Proof.Machine.execYsrl d a b s
  | .ysra d a b => Sys2Proof.Machine.execYsra d a b s
  | .ymul d a b => Sys2Proof.Machine.execYmul d a b s
  | .vext d a k => Sys2Proof.Machine.execVext d a k s
  | .vins a b k => Sys2Proof.Machine.execVins a b k s
  | .yaddi d a i1 => Sys2Proof.Machine.execYaddi d a i1 s
  | .yaddiExt d a i1 => Sys2Proof.Machine.execYaddiExt d a i1 s
  | .ymovi d i1 => Sys2Proof.Machine.execYmovi d i1 s
  | .ymoviExt d i1 => Sys2Proof.Machine.execYmoviExt d i1 s
  | .yb c a b o => Sys2Proof.Machine.execYb c a b o s
  | .yloop a o => Sys2Proof.Machine.execYloop a o s
  | .tfetch a => Sys2Proof.Machine.execTfetch a s
  | .stop => Sys2Proof.Machine.execStop s
  | .ycsr d n => Sys2Proof.Machine.execYcsr d n s
  | .mlds m a b p => Sys2Proof.Machine.execMlds m a b p s
  | .mstr m a b c l p => Sys2Proof.Machine.execMstr m a b c l p s
  | .mzero m a => Sys2Proof.Machine.execMzero m a s
  | .mdrain m a b c q r u s1 => Sys2Proof.Machine.execMdrain m a b c q r u s1 s
  | .macld m a b => Sys2Proof.Machine.execMacld m a b s
  | .macst m a b => Sys2Proof.Machine.execMacst m a b s
  | .mtile m g => Sys2Proof.Machine.execMtile m g s
  | .mtileAs m g => Sys2Proof.Machine.execMtileAs m g s
  | .copy t a x => Sys2Proof.Machine.execCopy t a x s
  | .copym t a b m k p r x => Sys2Proof.Machine.execCopym t a b m k p r x s
  | .cancel t => Sys2Proof.Machine.execCancel t s
  | .wait t l s1 r m => Sys2Proof.Machine.execWait t l s1 r m s
  | .stage t a b => Sys2Proof.Machine.execStage t a b s
  | .consign t a => Sys2Proof.Machine.execConsign t a s
  | .bankTrap n => Sys2Proof.Machine.execBankTrap n s
  | .asyncFault n => Sys2Proof.Machine.execAsyncFault n s
  | .vfBlockStart g => Sys2Proof.Machine.execVfBlockStart g s
  | .setvlEntry g => Sys2Proof.Machine.execSetvlEntry g s
  | .stripCommit n => Sys2Proof.Machine.execStripCommit n s
  | .vwrEntry g => Sys2Proof.Machine.execVwrEntry g s
  | .vrdEntry g => Sys2Proof.Machine.execVrdEntry g s
  | .rowOpenComplete g k => Sys2Proof.Machine.execRowOpenComplete g k s
  | .writeBackStart g k => Sys2Proof.Machine.execWriteBackStart g k s
  | .writeBackEnd g k => Sys2Proof.Machine.execWriteBackEnd g k s
  | .prechargeStart g k => Sys2Proof.Machine.execPrechargeStart g k s
  | .closingEnd g k => Sys2Proof.Machine.execClosingEnd g k s
  | .slotBusyEnd g k => Sys2Proof.Machine.execSlotBusyEnd g k s
  | .refreshTick g k => Sys2Proof.Machine.execRefreshTick g k s
  | .refreshForcedClose g k => Sys2Proof.Machine.execRefreshForcedClose g k s
  | .openLimit g k => Sys2Proof.Machine.execOpenLimit g k s
  | .foreignRequest g id => Sys2Proof.Machine.execForeignRequest g id s
  | .neighbourRefresh g k => Sys2Proof.Machine.execNeighbourRefresh g k s
  | .permitGrant tier => Sys2Proof.Machine.execPermitGrant tier s
  | .permitArrival tier => Sys2Proof.Machine.execPermitArrival tier s
  | .spineTransferReceive n src dst ok beat group => Sys2Proof.Machine.execSpineTransferReceive n src dst ok beat group s
  | .spineRetry n => Sys2Proof.Machine.execSpineRetry n s
  | .beatPairResend n beat group fails k => Sys2Proof.Machine.execBeatPairResend n beat group fails k s
  | .collectiveStart n => Sys2Proof.Machine.execCollectiveStart n s
  | .loadReturn id v cause => Sys2Proof.Machine.execLoadReturn id v cause s
  | .slicePerform id => Sys2Proof.Machine.execSlicePerform id s
  | .remoteRequest part ctx inn va len kind v => Sys2Proof.Machine.execRemoteRequest part ctx inn va len kind v s
  | .remoteTimeout id => Sys2Proof.Machine.execRemoteTimeout id s
  | .orphanResponse id => Sys2Proof.Machine.execOrphanResponse id s
  | .belayMarkerFire g => Sys2Proof.Machine.execBelayMarkerFire g s
  | .belayCompletion n => Sys2Proof.Machine.execBelayCompletion n s
  | .cairnMarkerFire g => Sys2Proof.Machine.execCairnMarkerFire g s
  | .cairnPoint n => Sys2Proof.Machine.execCairnPoint n s
  | .triggerPoint n => Sys2Proof.Machine.execTriggerPoint n s
  | .triggerDependantStart task => Sys2Proof.Machine.execTriggerDependantStart task s
  | .matrixQueueHandoff n => Sys2Proof.Machine.execMatrixQueueHandoff n s
  | .arraySwitchPoint a => Sys2Proof.Machine.execArraySwitchPoint a s
  | .mtileStep a => Sys2Proof.Machine.execMtileStep a s
  | .planeLoadDone a => Sys2Proof.Machine.execPlaneLoadDone a s
  | .matrixCommandEnd a => Sys2Proof.Machine.execMatrixCommandEnd a s
  | .verdict a => Sys2Proof.Machine.execVerdict a s
  | .allowanceGrant a => Sys2Proof.Machine.execAllowanceGrant a s
  | .tileCommit a => Sys2Proof.Machine.execTileCommit a s
  | .copyStart n => Sys2Proof.Machine.execCopyStart n s
  | .copyBoundary n => Sys2Proof.Machine.execCopyBoundary n s
  | .copyDone n => Sys2Proof.Machine.execCopyDone n s
  | .followOnHandover n => Sys2Proof.Machine.execFollowOnHandover n s
  | .stageRun => Sys2Proof.Machine.execStageRun s
  | .stagingFill ext page ok => Sys2Proof.Machine.execStagingFill ext page ok s
  | .consignmentAccept => Sys2Proof.Machine.execConsignmentAccept s
  | .consignProgramPage stack ok => Sys2Proof.Machine.execConsignProgramPage stack ok s
  | .consignVerify id ok => Sys2Proof.Machine.execConsignVerify id ok s
  | .consignPublish id => Sys2Proof.Machine.execConsignPublish id s
  | .extentErase phys => Sys2Proof.Machine.execExtentErase phys s
  | .installPurseRefill => Sys2Proof.Machine.execInstallPurseRefill s
  | .launchRequestArrival => Sys2Proof.Machine.execLaunchRequestArrival s
  | .admission reason fr binds => Sys2Proof.Machine.execAdmission reason fr binds s
  | .bind i1 => Sys2Proof.Machine.execBind i1 s
  | .quantumEnd i1 => Sys2Proof.Machine.execQuantumEnd i1 s
  | .preemption n => Sys2Proof.Machine.execPreemption n s
  | .restore n => Sys2Proof.Machine.execRestore n s
  | .stripRewind n => Sys2Proof.Machine.execStripRewind n s
  | .reclaimWaveArrival ctx agent => Sys2Proof.Machine.execReclaimWaveArrival ctx agent s
  | .remoteKillArrival part ctx inn => Sys2Proof.Machine.execRemoteKillArrival part ctx inn s
  | .fenceComplete ctx => Sys2Proof.Machine.execFenceComplete ctx s
  | .quarantineClear ctx inn => Sys2Proof.Machine.execQuarantineClear ctx inn s
  | .budgetStop task => Sys2Proof.Machine.execBudgetStop task s
  | .purserIntervalEnd cs => Sys2Proof.Machine.execPurserIntervalEnd cs s
  | .stepArrival a => Sys2Proof.Machine.execStepArrival a s
  | .rampIntervalEnd => Sys2Proof.Machine.execRampIntervalEnd s
  | .thermalThrottle => Sys2Proof.Machine.execThermalThrottle s
  | .thermalShutdown => Sys2Proof.Machine.execThermalShutdown s
  | .wfeTimeout n => Sys2Proof.Machine.execWfeTimeout n s
  | .packageReset imgs => Sys2Proof.Machine.execPackageReset imgs s
  | .stackReset st => Sys2Proof.Machine.execStackReset st s
  | .hostRead h0 h1 => Sys2Proof.Machine.execHostRead h0 h1 s
  | .hostWrite h0 h1 data => Sys2Proof.Machine.execHostWrite h0 h1 data s
  | .mailboxLaunch i1 => Sys2Proof.Machine.execMailboxLaunch i1 s
  | .mailboxKill i1 => Sys2Proof.Machine.execMailboxKill i1 s
  | .mailboxAttest i1 => Sys2Proof.Machine.execMailboxAttest i1 s
  | .mailboxReplay i1 => Sys2Proof.Machine.execMailboxReplay i1 s
  | .mailboxBadOp i1 => Sys2Proof.Machine.execMailboxBadOp i1 s
  | .registerWrite tag off v => Sys2Proof.Machine.execRegisterWrite tag off v s
  | .illegalInstructionWord w0 w1 => Sys2Proof.Machine.execIllegalInstructionWord w0 w1 s
  | .contextCreate ctx ws => Sys2Proof.Machine.execContextCreate ctx ws s
  | .operatorKillRequest ctx inn free => Sys2Proof.Machine.execOperatorKillRequest ctx inn free s
  | .bindRecordWrite i1 ws => Sys2Proof.Machine.execBindRecordWrite i1 ws s
  | .windowEntryWrite i1 ws => Sys2Proof.Machine.execWindowEntryWrite i1 ws s
  | .errorLogCopy g => Sys2Proof.Machine.execErrorLogCopy g s
  | .ucieLinkTraining ok => Sys2Proof.Machine.execUcieLinkTraining ok s
  | .flitRetry port => Sys2Proof.Machine.execFlitRetry port s
  | .quarantineAnnouncementArrival part ctx inn => Sys2Proof.Machine.execQuarantineAnnouncementArrival part ctx inn s
  | .operatorSettingChange which v => Sys2Proof.Machine.execOperatorSettingChange which v s

end Sys2Proof.Machine
end

