-- ==== Sys2Proof/Machine/Fetch.lean ====
section
/-! DEFINITION. What happens next: time passing, the checks at a leader's and a bank's instruction boundary, the fetch and decoding of the
next instruction, and the schedule that the model follows when none is given (R43, R44, R50, R54, R55, R388, R392, R394). -/
namespace Sys2Proof.Machine

/-! ### Time -/

/-- Cycles in `[c, c + n)` whose number modulo 16 is at least `e`. -/
def offCycles (c n e : Nat) : Nat :=
  n / 16 * (16 - e) + ((List.range (n % 16)).filter fun k => decide (e ≤ (c + k) % 16)).length
/-- `n` cycles pass: the clock advances, bound ropes and disabled array cycles count, and messages in flight reach the host or
the other part. -/
def State.elapse (s : State) (n : Nat) : State :=
  if n = 0 then s else
  let ropes := fun (t : Nat) => (s.leaders.filter fun e => e.2.bind.any fun b => b.task == t).length
  { s with
    cycle := s.cycle + n
    leaders := tmap Leader.reset (fun _ (l : Leader) => l.passes n) s.leaders
    banks := tmap Bank.reset (fun _ (b : Bank) => b.passes n) s.banks
    tasks := tmap Task.reset (fun k (t : Task) => { t with ropeCyc := t.ropeCyc + n * ropes k }) s.tasks
    arrays := tmap Array_.reset (fun _ (a : Array_) =>
      if a.owner.isSome then { a with throttled := a.throttled + offCycles s.cycle n a.enabled } else a) s.arrays
    host := { s.host with out := [], tags := [] }
    hub := { s.hub with answers := [], portOut := [], service := s.hub.service || !s.hub.recovery } }

/-! ### A leader's boundary (R392) -/

/-- The decoder's answer for the words at an address; a word that is no instruction is ILLEGAL_INSTRUCTION_WORD (R54). -/
noncomputable def instrAt (w0 w1 : IWord) (last : Bool) : Instr :=
  match decode (if last then [w0] else [w0, w1]) with
  | .ok (i, _) => i
  | .error _ => .illegalInstructionWord w0 (if last then 0 else w1)
/-- A thread runs on rope `n`. -/
def State.running (s : State) (n : Nat) : Bool := (s.leader n).bind.isSome && (s.leader n).run
/-- The leader waits for a strip commit; while a bank of the rope is stopped by a trap, the handler issues (R237, R397). -/
def State.awaitsCommit (s : State) (n : Nat) : Bool :=
  (s.leader n).commitWait.isSome && !((s.leader n).act && (List.range 32).any fun i => (s.bank (bankOf n i)).trap.isSome)
/-- What leader `n` does at its boundary before it issues (R392): the stop of a kill; the stop for a budget; a WFE whose event has come completes first
(R234), but inside a loop its stall is the point of a pre-emption, after which it completes (R105); a strip rewind; a pre-emption, which records a
pending trap in the frame and leaves it pending there (R26); a trap restored with the frame, a bank trap, an asynchronous fault; or the wait for a
strip commit. -/
def State.leaderBoundary (s : State) (n : Nat) : Option State :=
  let l := s.leader n
  if l.killed then some (s.setLeader n { l with run := false })
  else if (s.task l.taskOf).alive && (s.task l.taskOf).overrun.isSome then some (s.budgetStop l.taskOf)
  else if l.wfeAt.isSome && s.wfeReady n && !(s.yielding n && l.inLoop) then none
  else if l.rewind.isSome && !l.act then some (s.stripRewind n)
  else if s.yielding n then some (s.preemption n)
  else if l.pendTrap.isSome && !l.act then
    (match l.pendTrap with
     | some t => some ((s.setLeader n { l with pendTrap := none }).deliver n t)
     | none => none)
  else if (s.pendingBankTrap n).isSome && !l.act then some (s.deliverBankTrap n)
  else if !l.async.isEmpty && !l.act then some (s.deliverAsync n)
  else if s.awaitsCommit n then some (s.holds n 0x0B)
  else none
/-- Leader `n` at its turn: nothing without a running thread; its boundary events; a fetch outside IMEM traps; else the instruction at PC
with the sequencer named in `cur`. -/
noncomputable def State.leaderTurn (s : State) (n : Nat) : State × Option Instr :=
  if !s.running n then (s, none)
  else match s.leaderBoundary n with
  | some s => (s, none)
  | none =>
    let l := s.leader n
    if 0x40000 ≤ l.pc.toNat then (s.trap n .illegal l.pc 0, none)
    else ({ s with cur := .leader n }, some (instrAt (l.fetchWord 0) (l.fetchWord 1) (decide (l.pc.toNat = 0x3FFFC))))

/-! ### A bank's boundary (R44, R116, R394) -/

/-- Major of a word. -/
def majorOf (w : IWord) : Nat := w.toNat / 2 ^ 26
/-- Instructions of the block that stand before word `w`; a pair counts once. A branch to the second word of the 32nd instruction's pair
finds 32 before it, as the 33rd does: the spec does not number such an instruction (log entry 58). -/
def State.blockCount (s : State) (g w : Nat) : Nat :=
  ((List.range w).foldl (fun (a : Nat × Bool) k =>
    if a.2 then (a.1, false) else (a.1 + 1, decide (majorOf (s.blockWord g k) = 0x3F))) (0, false)).1
/-- A major that is allowed in a block. -/
def bankMajor (m : Nat) : Bool := decide (0x20 ≤ m) && decide (m < 0x30)
/-- Bank `g` has nothing to issue: no live thread is bound, a trap, a rewind or a yield holds it, a collective is under way, or rows are still
owed to it (R115, R281, R399). -/
def State.bankIdle (s : State) (g : Nat) : Bool :=
  let b := s.bank g
  !s.boundLive (ropeOf g) || b.trap.isSome || (s.leader (ropeOf g)).rewind.isSome || b.run.any (fun r => r.coll.isSome) || !b.owed.isEmpty || s.bankHeld g
/-- Bank `g` at its turn: a trap of REFDUE or OPEN_LIMIT is taken at the boundary, whether or not a block runs, with the slot's status word as it
stands (R116, R306); a block that was fetched with an uncorrectable word is consumed (R313); else its next word is checked against the block's
limits, decoded and issued. -/
noncomputable def State.bankTurn (s : State) (g : Nat) : State × Option Instr :=
  let b := s.bank g
  if s.bankIdle g then (s, none)
  else match (if b.multi.isNone then b.trapQ else []) with
  | t :: q => (s.setBank g { b with trapQ := q, trap := some { t with tpc := b.pcAddr, tval := s.rowStatus g t.telem.toNat } }, none)
  | [] => match b.run with
    | none => (s, none)
    | some r =>
      let w0 := s.blockWord g r.wpos
      let w1 := s.blockWord g (r.wpos + 1)
      let ext := decide (majorOf w0 = 0x3F)
      let last := decide (blockLen r.desc ≤ r.wpos + 1)
      let s := { s with cur := Seq.bank g }
      if b.fetchUe then ((s.setBank g { b with fetchUe := false }).bankConsume g .ueConsumed b.pcAddr 0, none)
      else if 32 ≤ s.blockCount g r.wpos || (ext && last) || !bankMajor (majorOf (if ext then w1 else w0)) then
        (s, some (.illegalInstructionWord w0 (if last then 0 else w1)))
      else (s, some (instrAt w0 w1 last))

/-! ### The schedule -/

/-- An event of the part, its firmware, its operator or its host, and no word of an instruction stream. -/
def isEvent (i : Instr) : Bool :=
  !i.encoded && (match i with | .illegalInstructionWord _ _ => false | _ => true)
/-- What can happen on a bound rope without a choice from outside. -/
noncomputable def ropeActs (n : Nat) : List Activity :=
  .issue (.leader n) :: (([.stripCommit n, .belayCompletion n, .cairnPoint n, .triggerPoint n, .matrixQueueHandoff n, .copyStart n,
    .copyBoundary n, .copyDone n, .followOnHandover n, .restore n, .collectiveStart n, .wfeTimeout n, .spineRetry n] : List Instr).map .event)
noncomputable def bankActs (g : Nat) : List Activity :=
  .issue (.bank g) :: ((([.vfBlockStart g, .setvlEntry g, .vwrEntry g, .vrdEntry g, .belayMarkerFire g, .cairnMarkerFire g] : List Instr) ++
    (List.range 8).flatMap fun k => [Instr.rowOpenComplete g k, .writeBackStart g k, .writeBackEnd g k, .prechargeStart g k, .closingEnd g k,
      .slotBusyEnd g k, .refreshTick g k, .refreshForcedClose g k, .openLimit g k, .neighbourRefresh g k]).map .event)
noncomputable def arrayActs (a : Nat) : List Activity :=
  ([.arraySwitchPoint a, .mtileStep a, .planeLoadDone a, .matrixCommandEnd a, .verdict a, .allowanceGrant a, .tileCommit a] : List Instr).map .event
/-- What can happen in the rest of the package. -/
noncomputable def State.packageActs (s : State) : List Activity :=
  (s.reqs.flatMap fun r => [Instr.slicePerform r.id, .loadReturn r.id 0 0, .orphanResponse r.id]).map .event ++
  ((s.reqs.filter fun r => r.miss).flatMap fun r => match r.tgt with
    | .row pa _ _ _ => [Instr.foreignRequest (bankOfPa pa) r.id]
    | _ => []).map .event ++
  (s.hub.binds.flatMap fun e => [Instr.quantumEnd e.1, .bind e.1]).map .event ++
  (s.tasks.flatMap fun e => [Instr.triggerDependantStart e.1, .budgetStop e.1]).map .event ++
  (((List.range 768).filter fun a => (s.array a).step != s.hub.step).map Instr.stepArrival).map .event ++
  (((List.range 128).filter fun t => (s.tier t).value != s.hub.permit).map Instr.permitArrival).map .event ++
  (s.tiers.map fun e => Instr.permitGrant e.1).map .event ++
  (((List.range 6144).flatMap fun g => (List.range 8).filterMap fun k =>
    if (s.slot g k).nextTick g k ≤ s.cycle then some (Instr.refreshTick g k) else none)).map .event ++
  (s.ctxs.flatMap fun e => if e.2.kill.isSome then (List.range 8).map (Instr.reclaimWaveArrival e.1) ++ [.fenceComplete e.1] else []).map .event ++
  (([.launchRequestArrival, .stageRun, .consignmentAccept, .installPurseRefill, .purserIntervalEnd [], .rampIntervalEnd] : List Instr).map .event)
/-- Every candidate of the present state, in a fixed order: bound ropes, the banks of other ropes that are not as after reset (their
registers go on closing, writing back and refreshing), the package. -/
noncomputable def State.candidates (s : State) : List Activity :=
  ((s.leaders.filter fun e => e.2.bind.isSome).flatMap fun e =>
    ropeActs e.1 ++ ((List.range 32).flatMap fun i => bankActs (bankOf e.1 i)) ++ ((List.range 4).flatMap fun j => arrayActs (4 * e.1 + j))) ++
  ((s.banks.filter fun e => (s.leader (ropeOf e.1)).bind.isNone).flatMap fun e => bankActs e.1) ++
  s.packageActs
/-- The next activity: the agenda's first; with an empty agenda the candidate whose turn it is, and after the last one a cycle passes. -/
noncomputable def State.choose (s : State) : Activity × State :=
  match s.agenda with
  | a :: r => (a, { s with agenda := r })
  | [] => match s.candidates[s.turn]? with
    | some a => (a, { s with turn := s.turn + 1 })
    | none => (.elapse 1, { s with turn := 0 })
/-- Carry out an activity as far as the instruction or event that it executes. -/
noncomputable def State.carry (s : State) (a : Activity) : State × Option Instr :=
  match a with
  | .issue (.leader n) => s.leaderTurn n
  | .issue (.bank g) => s.bankTurn g
  | .event i => if isEvent i then (s, some i) else (s, none)
  | .upset g el => (s.setBank g { s.bank g with upset := some el }, none)
  | .elapse k => (s.elapse k, none)

/-! ### Placing a word where it is fetched next -/

/-- A binding to CTX 0 under which a thread runs with no task. -/
def bareBinding : Binding :=
  { ctx := 0, inn := 0, task := 0, prot := false, prio := 0, amask := 0, rcd := 0, frame := 0, level := 0, inst := 0, ord := 0 }
/-- The two words placed at rope 0's PC, or, when they are bank-side, as the block that its bank 0 runs; that sequencer issues next. -/
def State.placeWords (s : State) (w0 w1 : IWord) : State :=
  let l := s.leader 0
  let l := { l with bind := some (l.bind.getD bareBinding), run := true }
  if bankMajor (majorOf (if majorOf w0 = 0x3F then w1 else w0)) then
    let s := s.setLeader 0 { l with imem := tput 0 (tput 0 l.imem 0 w0) 1 w1 }
    let b := s.bank 0
    let s := s.setBank 0 { b with
      tfetch := true, run := some { desc := 65536, wpos := 0, entry := none, parts := 0, rank := 0, coll := none } }
    { s with agenda := [.issue (.bank 0)] }
  else
    let p := l.pc.toNat / 4
    let s := s.setLeader 0 { l with imem := tput 0 (tput 0 l.imem p w0) (p + 1) w1 }
    { s with agenda := [.issue (.leader 0)] }

end Sys2Proof.Machine
end

