-- ==== Sys2Proof/Machine/Step.lean ====
section
/-! DEFINITION. One step of the machine, and the placing of a word where the next step fetches it. -/
namespace Sys2Proof.Machine

/-- One step: a package that has powered down does nothing more; otherwise the next activity is carried out, and the instruction or event
that it reaches is executed. -/
noncomputable def step (s : State) : Host.Outcome State Fault Refusal :=
  if s.down then .fault .poweredDown
  else
    let c := s.choose
    match c.2.carry c.1 with
    | (t, none) => .next t
    | (t, some i) => exec i t

/-- The state with an instruction, whose bits are numbered as the opcode table numbers them, placed where the next step fetches it. -/
def State.withFetchWord (s : State) (nbits w : Nat) : State :=
  let v := w % 2 ^ (min nbits 64)
  s.placeWords (BitVec.ofNat 32 v) (BitVec.ofNat 32 (v / 2 ^ 32))

end Sys2Proof.Machine
end

