-- ==== Sys2Proof/Safety.lean ====
section
/-! DEFINITION. What the statements call safe: a run that is still going, a leader or bank that took its instruction, and states whose
memories keep their canonical form. -/
namespace Sys2Proof.Machine

/-- The step answers a next state. -/
def Goes (s : State) : Prop := ∃ t, step s = .next t
/-- Every byte memory of the state is in canonical form. -/
def State.memWf (s : State) : Bool :=
  Mem.wf s.rows && Mem.wf s.weights.bytes && s.leaders.all fun e => Mem.wf e.2.scratch

end Sys2Proof.Machine
end

