-- ==== Sys2Proof/Certificates/Slice0/Obligations.lean ====
section
/-! DEFINITION. The statements about the model. `Claims` holds the words they are written in; the results of instructions are said there
with exact integers, apart from the functions that the meanings use. -/

namespace Sys2Proof.Claims

open Sys2Proof.Machine

/-! ### What a statement about one instruction says -/

/-- `exec i s` answers a next state of which `P` holds. -/
def Ends (i : Instr) (s : State) (P : State → Prop) : Prop := ∃ t, exec i s = .next t ∧ P t

/-- Leader `n` issues, and every x register the instruction reads holds a value: none is awaited and none is poisoned (R86, R284). -/
def Ready (s : State) (n : Nat) (srcs : List Nat) : Prop :=
  s.cur = .leader n ∧
  ∀ r ∈ srcs, r ≠ 0 → tget 0 (s.leader n).xPend r = 0 ∧ tget none (s.leader n).xPoison r = none

/-- Leader `n` issues, and none of the x registers `srcs` is awaited; one may be poisoned (R86). -/
def NoneAwaited (s : State) (n : Nat) (srcs : List Nat) : Prop :=
  s.cur = .leader n ∧ ∀ r ∈ srcs, r ≠ 0 → tget 0 (s.leader n).xPend r = 0

/-- Every byte of row space, weight space and scratch reads as before. -/
def BytesKept (s t : State) : Prop :=
  (∀ a, memByte t.rows a = memByte s.rows a) ∧ (∀ a, memByte t.weights.bytes a = memByte s.weights.bytes a) ∧
  ∀ n a, memByte (t.leader n).scratch a = memByte (s.leader n).scratch a

/-- The word of row address `a` lies outside the record ring's region (R425). -/
def OffRing (s : State) (a : Nat) : Prop := ∀ b, s.ring.base = some b → a / 8 * 8 + 8 ≤ b ∨ b + 64 * max 2 s.ring.size ≤ a / 8 * 8
/-- Neither a cache line on its way out nor a record of the scrivener can write the word of row address `a`: no cache holds an older byte of it
(R409), and it lies outside the record ring (R425). -/
def Calm (s : State) (a : Nat) : Prop :=
  (∀ e ∈ s.cacheOld, e.2.1 / 8 ≠ a / 8) ∧ OffRing s a
/-- Every calm byte of row space, and every byte of weight space and scratch, reads as before. -/
def BytesCalm (s t : State) : Prop :=
  (∀ a, Calm s a → t.rowByte a = s.rowByte a) ∧ (∀ a, memByte t.weights.bytes a = memByte s.weights.bytes a) ∧
  ∀ n a, memByte (t.leader n).scratch a = memByte (s.leader n).scratch a

/-- Nothing but leader `n` differs: no other leader, no bank, array, table, queue of the part, memory byte or unpublished write. -/
def OnlyLeader (n : Nat) (s t : State) : Prop :=
  t = { s with leaders := t.leaders } ∧ ∀ m, m ≠ n → t.leader m = s.leader m

/-- A leader as it was, but for PC, the loop stack, the x registers and the two counts that every instruction advances; it is not stalled. -/
def LeaderKept (l l' : Leader) : Prop :=
  l' = { l with pc := l'.pc, loops := l'.loops, hop := l'.hop, x := l'.x, xPoison := l'.xPoison, xPend := l'.xPend,
                issue := l.issue + 1, csr := { l.csr with instret := l.csr.instret + 1 }, stalled := false,
                why := 0, issued := true }

/-- Every x register but `d` holds what it held; x0 always does. -/
def OthersKept (d : Nat) (l l' : Leader) : Prop :=
  ∀ r, r ≠ d ∨ r = 0 → l'.xr r = l.xr r ∧ tget 0 l'.xPend r = tget 0 l.xPend r ∧ tget none l'.xPoison r = tget none l.xPoison r

/-- The instruction of `len` bytes completes without a taken transfer (R87, R102): entries on the loop stack that end with it and have
their last iteration done are popped; if the next entry ends with it too, it counts down and execution continues at its start. -/
def Sequenced (len : Nat) (l l' : Leader) : Prop :=
  ∀ (popped rest : List LoopEntry), l.loops = popped ++ rest →
    (∀ e ∈ popped, e.last = (l.pc + BitVec.ofNat 64 len - 4).toNat ∧ e.count ≤ 1) →
    ((∀ e ∈ rest.head?, e.last ≠ (l.pc + BitVec.ofNat 64 len - 4).toNat) → l'.loops = rest ∧ l'.pc = l.pc + BitVec.ofNat 64 len) ∧
    ∀ e r, rest = e :: r → e.last = (l.pc + BitVec.ofNat 64 len - 4).toNat → 1 < e.count →
      l'.loops = { e with count := e.count - 1 } :: r ∧ l'.pc = BitVec.ofNat 64 e.start

/-- Leader `n` writes a value of which `P` holds to x register `d` and goes on past its instruction of `len` bytes; a write to x0 has no
effect; nothing else changes. -/
def Writes (n d len : Nat) (P : Word → Prop) (s t : State) : Prop :=
  (∃ v, P v ∧ t.xr n d = if d = 0 then 0 else v) ∧
  (d ≠ 0 → tget 0 (t.leader n).xPend d = 0 ∧ tget none (t.leader n).xPoison d = none) ∧
  OthersKept d (s.leader n) (t.leader n) ∧ Sequenced len (s.leader n) (t.leader n) ∧
  LeaderKept (s.leader n) (t.leader n) ∧ OnlyLeader n s t ∧ BytesKept s t

/-! ### Results of the integer instructions (Tables 4.3 to 4.6) -/

/-- A shift amount: B mod 64. -/
def amount (b : Word) : Nat := b.toNat % 64
/-- 1 when true and 0 when false. -/
def truth (p : Prop) [Decidable p] : Word := if p then 1#64 else 0#64
/-- The signed value of the low `n` bits of `a`. -/
def low (a : Word) (n : Nat) : Int := if a.toNat % 2 ^ n < 2 ^ (n - 1) then ((a.toNat % 2 ^ n : Nat) : Int) else ((a.toNat % 2 ^ n : Nat) : Int) - 2 ^ n

/-- What the instruction writes: the destination, the registers it reads, its length, and what holds of the written value. -/
def leaderOp (x : Nat → Word) : Instr → Option (Nat × List Nat × Nat × (Word → Prop))
  | .add d a b => some (d.toNat, [a.toNat, b.toNat], 4, fun v => v = BitVec.ofInt 64 ((x a.toNat).toNat + (x b.toNat).toNat))
  | .sub d a b => some (d.toNat, [a.toNat, b.toNat], 4, fun v => v = BitVec.ofInt 64 ((x a.toNat).toNat - (x b.toNat).toNat))
  | .and d a b => some (d.toNat, [a.toNat, b.toNat], 4, fun v => ∀ k, v.getLsbD k = ((x a.toNat).getLsbD k && (x b.toNat).getLsbD k))
  | .or d a b => some (d.toNat, [a.toNat, b.toNat], 4, fun v => ∀ k, v.getLsbD k = ((x a.toNat).getLsbD k || (x b.toNat).getLsbD k))
  | .xor d a b => some (d.toNat, [a.toNat, b.toNat], 4, fun v => ∀ k, v.getLsbD k = ((x a.toNat).getLsbD k != (x b.toNat).getLsbD k))
  | .andn d a b => some (d.toNat, [a.toNat, b.toNat], 4, fun v => ∀ k, v.getLsbD k = ((x a.toNat).getLsbD k && !(x b.toNat).getLsbD k))
  | .sll d a b => some (d.toNat, [a.toNat, b.toNat], 4, fun v => v.toNat = (x a.toNat).toNat * 2 ^ amount (x b.toNat) % 2 ^ 64)
  | .srl d a b => some (d.toNat, [a.toNat, b.toNat], 4, fun v => v.toNat = (x a.toNat).toNat / 2 ^ amount (x b.toNat))
  | .sra d a b => some (d.toNat, [a.toNat, b.toNat], 4, fun v => v.toInt = (x a.toNat).toInt / 2 ^ amount (x b.toNat))
  | .slt d a b => some (d.toNat, [a.toNat, b.toNat], 4, fun v => v = truth ((x a.toNat).toInt < (x b.toNat).toInt))
  | .sltu d a b => some (d.toNat, [a.toNat, b.toNat], 4, fun v => v = truth ((x a.toNat).toNat < (x b.toNat).toNat))
  | .min d a b => some (d.toNat, [a.toNat, b.toNat], 4, fun v => v.toInt = min (x a.toNat).toInt (x b.toNat).toInt)
  | .max d a b => some (d.toNat, [a.toNat, b.toNat], 4, fun v => v.toInt = max (x a.toNat).toInt (x b.toNat).toInt)
  | .minu d a b => some (d.toNat, [a.toNat, b.toNat], 4, fun v => v.toNat = min (x a.toNat).toNat (x b.toNat).toNat)
  | .maxu d a b => some (d.toNat, [a.toNat, b.toNat], 4, fun v => v.toNat = max (x a.toNat).toNat (x b.toNat).toNat)
  | .lea d a b sh => some (d.toNat, [a.toNat, b.toNat], 4, fun v => v = BitVec.ofInt 64 ((x a.toNat).toNat + (x b.toNat).toNat * 2 ^ sh.toNat))
  | .mul d a b => some (d.toNat, [a.toNat, b.toNat], 4, fun v => v.toNat = (x a.toNat).toNat * (x b.toNat).toNat % 2 ^ 64)
  | .mulh d a b => some (d.toNat, [a.toNat, b.toNat], 4, fun v => v.toInt = (x a.toNat).toInt * (x b.toNat).toInt / 2 ^ 64)
  | .mulhu d a b => some (d.toNat, [a.toNat, b.toNat], 4, fun v => v.toNat = (x a.toNat).toNat * (x b.toNat).toNat / 2 ^ 64)
  | .div d a b => some (d.toNat, [a.toNat, b.toNat], 4, fun v =>
      if (x b.toNat).toInt = 0 then v.toNat = 2 ^ 64 - 1
      else if (x a.toNat).toInt = -2 ^ 63 ∧ (x b.toNat).toInt = -1 then v.toInt = -2 ^ 63
      else v.toInt = (x a.toNat).toInt.tdiv (x b.toNat).toInt)
  | .divu d a b => some (d.toNat, [a.toNat, b.toNat], 4, fun v =>
      if (x b.toNat).toNat = 0 then v.toNat = 2 ^ 64 - 1 else v.toNat = (x a.toNat).toNat / (x b.toNat).toNat)
  | .rem d a b => some (d.toNat, [a.toNat, b.toNat], 4, fun v =>
      if (x b.toNat).toInt = 0 then v = x a.toNat
      else if (x a.toNat).toInt = -2 ^ 63 ∧ (x b.toNat).toInt = -1 then v.toInt = 0
      else v.toInt = (x a.toNat).toInt.tmod (x b.toNat).toInt)
  | .remu d a b => some (d.toNat, [a.toNat, b.toNat], 4, fun v =>
      if (x b.toNat).toNat = 0 then v = x a.toNat else v.toNat = (x a.toNat).toNat % (x b.toNat).toNat)
  | .madd d a b => some (d.toNat, [a.toNat, b.toNat, d.toNat], 4, fun v =>
      v.toNat = ((x d.toNat).toNat + (x a.toNat).toNat * (x b.toNat).toNat) % 2 ^ 64)
  | .addi d a i => some (d.toNat, [a.toNat], 4, fun v => v = BitVec.ofInt 64 ((x a.toNat).toNat + i.toInt))
  | .addiExt d a i => some (d.toNat, [a.toNat], 8, fun v => v = BitVec.ofInt 64 ((x a.toNat).toNat + i.toInt))
  | .andi d a i => some (d.toNat, [a.toNat], 4, fun v => ∀ k, v.getLsbD k = ((x a.toNat).getLsbD k && i.getLsbD k))
  | .andiExt d a i => some (d.toNat, [a.toNat], 8, fun v => ∀ k, v.getLsbD k = ((x a.toNat).getLsbD k && i.getLsbD k))
  | .ori d a i => some (d.toNat, [a.toNat], 4, fun v => ∀ k, v.getLsbD k = ((x a.toNat).getLsbD k || i.getLsbD k))
  | .oriExt d a i => some (d.toNat, [a.toNat], 8, fun v => ∀ k, v.getLsbD k = ((x a.toNat).getLsbD k || i.getLsbD k))
  | .xori d a i => some (d.toNat, [a.toNat], 4, fun v => ∀ k, v.getLsbD k = ((x a.toNat).getLsbD k != i.getLsbD k))
  | .xoriExt d a i => some (d.toNat, [a.toNat], 8, fun v => ∀ k, v.getLsbD k = ((x a.toNat).getLsbD k != i.getLsbD k))
  | .slti d a i => some (d.toNat, [a.toNat], 4, fun v => v = truth ((x a.toNat).toInt < i.toInt))
  | .sltiExt d a i => some (d.toNat, [a.toNat], 8, fun v => v = truth ((x a.toNat).toInt < i.toInt))
  | .sltiu d a i => some (d.toNat, [a.toNat], 4, fun v => v = truth (((x a.toNat).toNat : Int) < i.toInt % 2 ^ 64))
  | .sltiuExt d a i => some (d.toNat, [a.toNat], 8, fun v => v = truth (((x a.toNat).toNat : Int) < i.toInt % 2 ^ 64))
  | .slli d a sh => some (d.toNat, [a.toNat], 4, fun v => v.toNat = (x a.toNat).toNat * 2 ^ sh.toNat % 2 ^ 64)
  | .srli d a sh => some (d.toNat, [a.toNat], 4, fun v => v.toNat = (x a.toNat).toNat / 2 ^ sh.toNat)
  | .srai d a sh => some (d.toNat, [a.toNat], 4, fun v => v.toInt = (x a.toNat).toInt / 2 ^ sh.toNat)
  | .movhi d i => some (d.toNat, [], 4, fun v => v = BitVec.ofInt 64 (i.toInt * 65536))
  | .movhiExt d i => some (d.toNat, [], 8, fun v => v = BitVec.ofInt 64 (i.toInt * 65536))
  | .clz d a => some (d.toNat, [a.toNat], 4, fun v => v.toNat ≤ 64 ∧ (∀ k, 64 - v.toNat ≤ k → (x a.toNat).getLsbD k = false) ∧
      (v.toNat < 64 → (x a.toNat).getLsbD (63 - v.toNat) = true))
  | .ctz d a => some (d.toNat, [a.toNat], 4, fun v => v.toNat ≤ 64 ∧ (∀ k, k < v.toNat → (x a.toNat).getLsbD k = false) ∧
      (v.toNat < 64 → (x a.toNat).getLsbD v.toNat = true))
  | .popc d a => some (d.toNat, [a.toNat], 4, fun v => v.toNat = ((List.range 64).filter fun k => (x a.toNat).getLsbD k).length)
  | .sext d a w => some (d.toNat, [a.toNat], 4, fun v => v.toInt = low (x a.toNat) (8 * 2 ^ w.toNat))
  | .zext d a w => some (d.toNat, [a.toNat], 4, fun v => v.toNat = (x a.toNat).toNat % 2 ^ (8 * 2 ^ w.toNat))
  | .bfx d a p l => some (d.toNat, [a.toNat], 4, fun v => v.toInt = low ((x a.toNat) >>> p.toNat) (l.toNat + 1))
  | .bfxu d a p l => some (d.toNat, [a.toNat], 4, fun v => v.toNat = (x a.toNat).toNat / 2 ^ p.toNat % 2 ^ (l.toNat + 1))
  | .bfi d a p l => some (d.toNat, [a.toNat, d.toNat], 4, fun v => ∀ k, k < 64 → v.getLsbD k =
      if p.toNat ≤ k ∧ k < p.toNat + (l.toNat + 1) then (x a.toNat).getLsbD (k - p.toNat) else (x d.toNat).getLsbD k)
  | _ => none

/-! ### Transfers -/

/-- Leader `n` continues at `dest` without a loop test; nothing but the two counts and `d` changes. -/
def Jumps (n : Nat) (dest : Word) (s t : State) : Prop :=
  (t.leader n).pc = dest ∧ (t.leader n).loops = (s.leader n).loops ∧ LeaderKept (s.leader n) (t.leader n) ∧ OnlyLeader n s t ∧ BytesKept s t

/-- A branch: its two operands, its offset in words, its length, and its condition on the two values (Table 4.7). -/
def branchOp : Instr → Option (Nat × Nat × Int × Nat × (Word → Word → Prop))
  | .beq a b o => some (a.toNat, b.toNat, o.toInt, 4, fun x y => x.toNat = y.toNat)
  | .beqExt a b o => some (a.toNat, b.toNat, o.toInt, 8, fun x y => x.toNat = y.toNat)
  | .bne a b o => some (a.toNat, b.toNat, o.toInt, 4, fun x y => x.toNat ≠ y.toNat)
  | .bneExt a b o => some (a.toNat, b.toNat, o.toInt, 8, fun x y => x.toNat ≠ y.toNat)
  | .blt a b o => some (a.toNat, b.toNat, o.toInt, 4, fun x y => x.toInt < y.toInt)
  | .bltExt a b o => some (a.toNat, b.toNat, o.toInt, 8, fun x y => x.toInt < y.toInt)
  | .bge a b o => some (a.toNat, b.toNat, o.toInt, 4, fun x y => y.toInt ≤ x.toInt)
  | .bgeExt a b o => some (a.toNat, b.toNat, o.toInt, 8, fun x y => y.toInt ≤ x.toInt)
  | .bltu a b o => some (a.toNat, b.toNat, o.toInt, 4, fun x y => x.toNat < y.toNat)
  | .bltuExt a b o => some (a.toNat, b.toNat, o.toInt, 8, fun x y => x.toNat < y.toNat)
  | .bgeu a b o => some (a.toNat, b.toNat, o.toInt, 4, fun x y => y.toNat ≤ x.toNat)
  | .bgeuExt a b o => some (a.toNat, b.toNat, o.toInt, 8, fun x y => y.toNat ≤ x.toNat)
  | _ => none

/-- `ia + 4 × off`, modulo 2^64. -/
def wordsFrom (ia : Word) (off : Int) : Word := BitVec.ofInt 64 (ia.toNat + 4 * off)

/-- A jump: its target, its link register and length when it writes one, and the register it reads. -/
def jumpOp (l : Leader) : Instr → Option (Word × Option (Nat × Nat) × List Nat)
  | .j o => some (wordsFrom l.pc o.toInt, none, [])
  | .jExt o => some (wordsFrom l.pc o.toInt, none, [])
  | .jal o => some (wordsFrom l.pc o.toInt, some (1, 4), [])
  | .jalExt o => some (wordsFrom l.pc o.toInt, some (1, 8), [])
  | .jalr d a o => some (wordsFrom (l.xr a.toNat) o.toInt, some (d.toNat, 4), [a.toNat])
  | .jalrExt d a o => some (wordsFrom (l.xr a.toNat) o.toInt, some (d.toNat, 8), [a.toNat])
  | _ => none

/-! ### Taking a trap at a leader (R235) -/

/-- Leader `n` has taken a trap with this TCAUSE, TVAL and TELEM at its own instruction: the record and the interrupted mode are saved,
the loop stack is set aside, and the thread is at level K, mask mode 0, at the handler entry of TVEC. Nothing else changes. -/
def Trapped (n : Nat) (tcause tval telem : Word) (s t : State) : Prop :=
  let l := s.leader n
  let l' := t.leader n
  l'.csr.tcause = tcause ∧ l'.csr.tval = tval ∧ l'.csr.telem = telem ∧
  l'.csr.tpc.toNat = l.pc.toNat / 4 * 4 ∧
  l'.csr.tstate = BitVec.ofNat 64 (256 + 32 * l.loops.length + (if l.mm then 4 else 0) + l.level.toNat) ∧
  l'.aside = l.loops ∧ l'.loops = [] ∧ l'.level = 2 ∧ l'.mm = false ∧ l'.pc = (s.ctx l.ctxOf).tvec ∧
  l' = { l with csr := { l.csr with tcause := l'.csr.tcause, tpc := l'.csr.tpc, tval := l'.csr.tval, telem := l'.csr.telem,
                                    tstate := l'.csr.tstate },
                aside := l'.aside, loops := l'.loops, level := l'.level, mm := l'.mm, pc := l'.pc, hop := false, stalled := false, why := 0 } ∧
  OnlyLeader n s t ∧ BytesKept s t

/-- The thread handles no trap: TSTATE.ACT is 0. -/
def Free (s : State) (n : Nat) : Prop := (s.leader n).csr.tstate.getLsbD 8 = false

/-- The word of a one-word instruction as TVAL holds it. -/
def wordOf (i : Instr) : Word := match encode i with
  | [w] => w.setWidth 64
  | [w, v] => BitVec.ofNat 64 (w.toNat + 2 ^ 32 * v.toNat)
  | _ => 0

/-- A word that may not stand at a loop's end: an EXT prefix, a LOOP, or a LEAVE, whose other fields are zero (R100, R103). -/
def endsNoLoop (w : BitVec 32) : Prop :=
  w.toNat / 2 ^ 26 = 0x3F ∨ (w.toNat / 2 ^ 26 = 0x19 ∧ (w.toNat / 2 ^ 21 % 32 = 0 ∨ (w.toNat / 2 ^ 21 % 32 = 1 ∧ w.toNat % 2 ^ 21 = 0)))

/-! ### Control and status registers (Tables 8.1 to 8.4, 9.2 to 9.4) -/

/-- A CSR's read level, its write level (3: refused at every level) and its RW bits, as the tables give them. -/
def csrRow (c : Nat) : Option (Nat × Nat × Nat) :=
  if c ∈ [0x000, 0x001, 0x006, 0x007, 0x030, 0x031, 0x032, 0x040, 0x041, 0x042, 0x043, 0x044, 0x045, 0x050, 0x051, 0x060, 0x061, 0x070]
  then some (0, 3, 0)
  else if c = 0x002 then some (0, 0, 2 ^ 2 - 1)
  else if c = 0x003 then some (0, 0, 2 ^ 1 - 1)
  else if c = 0x004 then some (0, 0, 2 ^ 3 - 1)
  else if c = 0x005 then some (0, 0, 2 ^ 5 - 1)
  else if c ∈ [0x010, 0x011, 0x012, 0x013] then some (0, 0, 2 ^ 48 - 1)
  else if c = 0x014 then some (0, 0, 2 ^ 6 - 1)
  else if c ∈ [0x020, 0x021, 0x022, 0x023, 0x024] then some (0, 2, 2 ^ 64 - 1)
  else if c = 0x025 then some (0, 2, 0)
  else if c = 0x052 then some (0, 2, 2 ^ 64 - 1)
  else if c = 0x100 then some (2, 2, 2 ^ 13 - 1)
  else if c = 0x101 then some (2, 2, 2 ^ 64 - 4)
  else if c ∈ [0x102, 0x103] then some (2, 2, 2 ^ 64 - 1)
  else if c = 0x104 then some (2, 2, 2 ^ 8 + 7)
  else if c = 0x105 then some (2, 2, 2 ^ 18 - 4)
  else if c = 0x110 then some (2, 2, 2 ^ 52 - 4096)
  else none

/-- A CSR instruction: its CSR, destination, source register, whether it makes a write, and the value it would write (Table 9.6). -/
def csrOp (x : Nat → Word) (o : Nat → Word) : Instr → Option (Nat × Nat × Nat × Prop × Word)
  | .csrr d c => some (c.toNat, d.toNat, 0, False, 0)
  | .csrw d a c => some (c.toNat, d.toNat, a.toNat, True, x a.toNat)
  | .csrs d a c => some (c.toNat, d.toNat, a.toNat, a ≠ 0, o c.toNat ||| x a.toNat)
  | .csrc d a c => some (c.toNat, d.toNat, a.toNat, a ≠ 0, o c.toNat &&& ~~~x a.toNat)
  | _ => none

/-- A reserved value of an RW field: FRM 5 to 7, TSTATE.PLEVEL 3. -/
def csrRefused (c : Nat) (v : Word) : Prop := (c = 0x004 ∧ 5 ≤ v.toNat % 8) ∨ (c = 0x104 ∧ v.toNat % 4 = 3)

/-- What CSR `c` reads after a write of `v` over `o`: RW bits from `v`, the others from `o`. INSTRET then counts the instruction itself. -/
def csrMerged (c : Nat) (mask : Nat) (o v : Word) : Word :=
  ((o &&& ~~~BitVec.ofNat 64 mask) ||| (v &&& BitVec.ofNat 64 mask)) + if c = 0x052 then 1 else 0

/-- Nothing but leader `n` and the context entry of its binding differs, and that entry only in what Table 9.2 gives CSRs. -/
def OnlyLeaderAndCtx (n : Nat) (s t : State) : Prop :=
  t = { s with leaders := t.leaders, ctxs := t.ctxs } ∧ (∀ m, m ≠ n → t.leader m = s.leader m) ∧
  (∀ c, c ≠ (s.leader n).ctxOf → t.ctx c = s.ctx c) ∧
  (let x := s.ctx (s.leader n).ctxOf
   let y := t.ctx (s.leader n).ctxOf
   y = { x with rplT := y.rplT, rplS := y.rplS, rplSat := y.rplSat, rplUfl := y.rplUfl, rplCan := y.rplCan, rplX := y.rplX,
                tvec := y.tvec, gtb := y.gtb }) ∧ BytesKept s t
/-- Leader `n` writes `v` to xd and goes on; its CSRs and x registers, PC and loop stack apart, it is as it was. -/
def CsrStep (n d : Nat) (v : Word) (s t : State) : Prop :=
  t.xr n d = (if d = 0 then 0 else v) ∧ OthersKept d (s.leader n) (t.leader n) ∧ Sequenced 4 (s.leader n) (t.leader n) ∧
  (t.leader n) = { s.leader n with pc := (t.leader n).pc, loops := (t.leader n).loops, hop := (t.leader n).hop, x := (t.leader n).x,
                                   xPoison := (t.leader n).xPoison, xPend := (t.leader n).xPend, issue := (s.leader n).issue + 1,
                                   csr := (t.leader n).csr, stalled := false, why := 0, issued := true } ∧
  OnlyLeaderAndCtx n s t

/-! ### Leader memory accesses (R282 to R288) -/

/-- The effective address `xr(a) + off × size`, modulo 2^64. -/
def eaOf (x : Word) (off : Int) (size : Nat) : Nat := ((x.toNat + off * size) % 2 ^ 64).toNat
/-- An LD: destination, base register, size in bytes, whether it extends by sign, its address and its length. -/
def loadOp (x : Nat → Word) : Instr → Option (Nat × Nat × Nat × Prop × Nat × Nat)
  | .ld d a sz _ o => some (d.toNat, a.toNat, 2 ^ (sz.toNat % 4), sz.toNat < 4, eaOf (x a.toNat) o.toInt (2 ^ (sz.toNat % 4)), 4)
  | .ldExt d a sz _ o => some (d.toNat, a.toNat, 2 ^ (sz.toNat % 4), sz.toNat < 4, eaOf (x a.toNat) o.toInt (2 ^ (sz.toNat % 4)), 8)
  | _ => none
/-- An ST: the register that holds its data, its base register, size, address and length. -/
def storeOp (x : Nat → Word) : Instr → Option (Nat × Nat × Nat × Nat × Nat)
  | .st d a sz _ o => some (d.toNat, a.toNat, 2 ^ (sz.toNat % 4), eaOf (x a.toNat) o.toInt (2 ^ (sz.toNat % 4)), 4)
  | .stExt d a sz _ o => some (d.toNat, a.toNat, 2 ^ (sz.toNat % 4), eaOf (x a.toNat) o.toInt (2 ^ (sz.toNat % 4)), 8)
  | _ => none
/-- An atomic: destination, the registers it reads, address, size, the kind its probe checks, and the request it makes. -/
def atomOp (x : Nat → Word) : Instr → Option (Nat × List Nat × Nat × Nat × AccKind × ReqOp)
  | .lda d a z => some (d.toNat, [a.toNat], (x a.toNat).toNat, if z = 1 then 8 else 4, { rd := true, wr := false, align := 1 }, .lda)
  | .sta a b z => some (0, [a.toNat, b.toNat], (x a.toNat).toNat, if z = 1 then 8 else 4, { rd := false, wr := true, align := 1 }, .sta (x b.toNat))
  | .amo d a b z o => some (d.toNat, [a.toNat, b.toNat], (x a.toNat).toNat, if z = 1 then 8 else 4, { rd := true, wr := true, align := 1 },
      .amo o.toNat (x b.toNat))
  | .cas d a b z => some (d.toNat, [a.toNat, b.toNat, d.toNat], (x a.toNat).toNat, if z = 1 then 8 else 4, { rd := true, wr := true, align := 1 },
      .cas (x d.toNat) (x b.toNat))
  | _ => none
/-- A load's or a store's kind of access. -/
def loadKind (k : Nat) : AccKind := { rd := true, wr := false, align := k }
def storeKind (k : Nat) : AccKind := { rd := false, wr := true, align := k }

/-- The value of the bytes that agent `q` of rope `n` reads at a translated target, little-endian (R1). -/
def readValue (s : State) (n : Nat) (t : Target) (k : Nat) : Nat := leNat ((List.range k).map fun j => s.readByte n (.leader n) (t.plus j))
/-- What is written to xd for a value of `k` bytes: extended by sign or by zeros. -/
def extended (signed : Prop) (k v : Nat) (w : Word) : Prop := (signed → w.toInt = low (BitVec.ofNat 64 v) (8 * k)) ∧ (¬ signed → w.toNat = v % 2 ^ (8 * k))
/-- The `k` low bytes of a word, lowest first (R1). -/
def bytesOf (w : Word) (k : Nat) : List (BitVec 8) := (List.range k).map fun j => w.extractLsb' (8 * j) 8

/-- A leader as it was, but for what an access in flight touches: PC and loop stack, the marks of x registers, region TLB, L1 and strip store
buffer. -/
def AccessKept (l l' : Leader) : Prop :=
  l' = { l with pc := l'.pc, loops := l'.loops, hop := l'.hop, xPoison := l'.xPoison, xPend := l'.xPend, tlb := l'.tlb, l1 := l'.l1,
                strip := l'.strip, issue := l.issue + 1, csr := { l.csr with instret := l.csr.instret + 1 }, stalled := false,
                why := 0, issued := true }
/-- What an access of leader `n` may move: lines of the caches and TLB entries, event counts, fills, wanted pages, records of malformed region
entries; beside these only leader `n`, the unpublished writes and the requests differ, and every calm byte reads as before. -/
def Aside (n : Nat) (s t : State) : Prop :=
  t = { s with leaders := t.leaders, ctxs := t.ctxs, ring := t.ring, rows := t.rows, ecc := t.ecc, counts := t.counts, l2 := t.l2,
               cacheOld := t.cacheOld, pend := t.pend, reqs := t.reqs, reqNum := t.reqNum, weights := { s.weights with want := t.weights.want } } ∧
  (∀ m, m ≠ n → t.leader m = s.leader m) ∧ (∀ x, t.ctx x = { s.ctx x with badRgn := (t.ctx x).badRgn }) ∧ BytesCalm s t
/-- The requests are the same but for fills, which nothing waits for (R258). -/
def OnlyFills (s t : State) : Prop := ∃ fs, t.reqs = s.reqs ++ fs ∧ ∀ r ∈ fs, r.op = .fill
/-- The state as the lookup of leader `n`'s own access leaves it, which the rest compares with: its TLB has the entry, and a walk has read the table
through the L2 (R251). -/
def afterLookup (s : State) (n va : Nat) : State := s.tlbUse n va
/-- Register `d` now waits for request `id`, no other x register changed, and the thread goes on (R86, R283). -/
def Awaits (n d len id : Nat) (s t : State) : Prop :=
  (d ≠ 0 → tget 0 (t.leader n).xPend d = id ∧ tget none (t.leader n).xPoison d = none) ∧ (t.leader n).x = (s.leader n).x ∧
  (∀ r, r ≠ d ∨ r = 0 → tget 0 (t.leader n).xPend r = tget 0 (s.leader n).xPend r ∧
    tget none (t.leader n).xPoison r = tget none (s.leader n).xPoison r) ∧
  Sequenced len (s.leader n) (t.leader n) ∧ AccessKept (s.leader n) (t.leader n) ∧ ∀ m, m ≠ n → t.leader m = s.leader m
/-- The access goes to row or weight space of this package. -/
def Near : Target → Prop
  | .row .. => True
  | .weight _ => True
  | _ => False
/-- SYNC row data. -/
def IsSync : Target → Prop
  | .row _ cls _ _ => cls = 3
  | _ => False

/-- What op code `op` of AMO writes over `old`, on words of `w` bits (R286); code 9 is the FP32 sum. -/
def amoResult (op w old v : Nat) (new : Nat) : Prop :=
  match op with
  | 0 => new = (old + v) % 2 ^ w
  | 1 => ∀ k, new.testBit k = (old.testBit k && v.testBit k)
  | 2 => ∀ k, new.testBit k = (old.testBit k || v.testBit k)
  | 3 => ∀ k, new.testBit k = (old.testBit k != v.testBit k)
  | 4 => new = v
  | 5 => low (BitVec.ofNat 64 new) w = min (low (BitVec.ofNat 64 old) w) (low (BitVec.ofNat 64 v) w)
  | 6 => low (BitVec.ofNat 64 new) w = max (low (BitVec.ofNat 64 old) w) (low (BitVec.ofNat 64 v) w)
  | 7 => new = min old v
  | 8 => new = max old v
  | _ => new = (fpAdd fmtFP32 0 0 (old % 2 ^ 32) (v % 2 ^ 32)).1
/-- What a request writes when it is performed over `old`: nothing, or a value of which this holds. -/
def requestWrites (op : ReqOp) (len old : Nat) (new : Option Nat) : Prop :=
  match op with
  | .store v => new = some (v.toNat % 2 ^ (8 * len))
  | .sta v => new = some (v.toNat % 2 ^ (8 * len))
  | .amo o v => ∃ w, new = some w ∧ amoResult o (8 * len) old (v.toNat % 2 ^ (8 * len)) w
  | .cas e v => (old = e.toNat % 2 ^ (8 * len) → new = some (v.toNat % 2 ^ (8 * len))) ∧ (old ≠ e.toNat % 2 ^ (8 * len) → new = none)
  | _ => new = none
/-- A request that answers nothing. -/
def silent : ReqOp → Bool
  | .store _ => true
  | .sta _ => true
  | _ => false
/-- An atomic's probe at its own size. -/
def atomKind (k : AccKind) (len : Nat) : AccKind := { k with align := len, atomic := true }
/-- No atomic of leader `n` is on its way to a slice. -/
def noAtomic (s : State) (n : Nat) : Prop :=
  ∀ r ∈ s.reqs, r.leader = n → r.op.isAtomic = true → r.done = false → ∃ p v c, r.tgt = .remote p v c

/-! ### Accesses of another part (R243, R283) -/

/-- Any leader access: destination, registers read, address, size, kind as probed, request, and length. -/
def accessOp (x : Nat → Word) : Instr → Option (Nat × List Nat × Nat × Nat × AccKind × ReqOp × Nat)
  | .ld d a sz _ o => some (d.toNat, [a.toNat], eaOf (x a.toNat) o.toInt (2 ^ (sz.toNat % 4)), 2 ^ (sz.toNat % 4), loadKind (2 ^ (sz.toNat % 4)),
      .load (decide (sz.toNat < 4)), 4)
  | .ldExt d a sz _ o => some (d.toNat, [a.toNat], eaOf (x a.toNat) o.toInt (2 ^ (sz.toNat % 4)), 2 ^ (sz.toNat % 4), loadKind (2 ^ (sz.toNat % 4)),
      .load (decide (sz.toNat < 4)), 8)
  | .st d a sz _ o => some (0, [a.toNat, d.toNat], eaOf (x a.toNat) o.toInt (2 ^ (sz.toNat % 4)), 2 ^ (sz.toNat % 4),
      storeKind (2 ^ (sz.toNat % 4)), .store (x d.toNat), 4)
  | .stExt d a sz _ o => some (0, [a.toNat, d.toNat], eaOf (x a.toNat) o.toInt (2 ^ (sz.toNat % 4)), 2 ^ (sz.toNat % 4),
      storeKind (2 ^ (sz.toNat % 4)), .store (x d.toNat), 8)
  | i => (atomOp x i).map fun q => (q.1, q.2.1, q.2.2.1, q.2.2.2.1, atomKind q.2.2.2.2.1 q.2.2.2.1, q.2.2.2.2.2, 4)
/-- A request of leader `n` for this very remote access. -/
def remoteMatch (n va : Nat) (op : ReqOp) (r : Req) : Prop := r.leader = n ∧ r.va = va ∧ r.op = op ∧ ∃ p v c, r.tgt = .remote p v c

/-! ### The row queue (R130 to R136, R332, R333) -/

/-- The banks that an instruction of rope `n` targets: the granted ones, in mask mode 0 those named in BMR. -/
def targets (s : State) (n : Nat) (m : BitVec 32) : Prop :=
  ∀ i, i < 32 → m.getLsbD i = (s.granted i && ((s.leader n).mm || (s.leader n).bmr.getLsbD i))
/-- Every granted bank of a rope, or none. -/
def grantedIf (s : State) (p : Prop) (m : BitVec 32) : Prop := ∀ i, i < 32 → (m.getLsbD i = true ↔ p ∧ s.granted i = true)
/-- One entry goes to the end of the row queue; one that no bank has to take is not placed. -/
def Placed (l l' : Leader) (op : RowOp) (banks commit strips : BitVec 32) : Prop :=
  (banks ||| commit ||| strips = 0 → l'.rowq = l.rowq ∧ l'.rowNum = l.rowNum) ∧
  (banks ||| commit ||| strips ≠ 0 → l'.rowNum = l.rowNum + 1 ∧ ∃ e, l'.rowq = l.rowq ++ [e] ∧ e.num = l.rowNum + 1 ∧ e.op = op ∧ e.banks = banks ∧
    e.commit = commit ∧ e.strips = strips ∧ e.todo = banks ||| commit ||| strips ∧ e.open_ = e.todo ∧ e.pc = l.pc ∧ (e.sync = true ↔ commit = 0))
/-- A leader as it was, but for its row queue, PC and loop stack, x registers, and the lengths and strips of SETVL. -/
def RopeKept (l l' : Leader) : Prop :=
  l' = { l with pc := l'.pc, loops := l'.loops, hop := l'.hop, x := l'.x, xPoison := l'.xPoison, xPend := l'.xPend, rowq := l'.rowq,
                rowNum := l'.rowNum, strip := l'.strip, nextStrip := l'.nextStrip, commitWait := l'.commitWait, cpos := l'.cpos, issue := l.issue + 1, stalled := false,
                why := 0, issued := true, csr := { l.csr with vt := l'.csr.vt, vl := l'.csr.vl, instret := l.csr.instret + 1 } }
/-- A leader waits at its instruction, with STALL.`cause` as the counter of the cycles that pass, and nothing else changes (R86, R388). -/
def Waits (n cause : Nat) (s t : State) : Prop :=
  t.leader n = { s.leader n with why := cause, stalled := true } ∧ OnlyLeader n s t ∧ BytesKept s t
/-- A SETVL form: which form, destination, count register, type register, checkpoint mask. -/
def setvlOp : Instr → Option (SetvlForm × Nat × Nat × Nat × BitVec 8)
  | .setvl d a b k => some (.plain, d.toNat, a.toNat, b.toNat, k)
  | .setvlC d a b k => some (.c, d.toNat, a.toNat, b.toNat, k)
  | .setvlQ a b k => some (.q, 0, a.toNat, b.toNat, k)
  | _ => none
/-- Checks 1 and 2 of R134 on the type word. -/
def typeWord (form : SetvlForm) (T : Nat) : Prop :=
  T < 2 ^ 22 ∧ T / 2 ^ 11 % 32 = 0 ∧ T / 2 ^ 7 % 2 = 0 ∧ (form ≠ .c → T / 2 ^ 16 % 64 = 0) ∧ T % 32 ≠ 0x12 ∧ T / 2 ^ 8 % 8 ≤ 5
/-- A block descriptor that R43 accepts. -/
def blockDesc (d : Nat) : Prop := d < 2 ^ 22 ∧ d % 2 ^ 16 + (d / 2 ^ 16 % 64 + 1) ≤ 2 ^ 16
/-- VRD or VWR: its bank-index register and the registers it reads. -/
def bankIndexOp : Instr → Option (Nat × List Nat)
  | .vrd _ a _ => some (a.toNat, [a.toNat])
  | .vwr a b _ => some (a.toNat, [a.toNat, b.toNat])
  | _ => none

/-! ### Row-queue entries at a bank (R133, Table 5.11) -/

/-- Bank `g` of its rope has taken entry `num`; the entry leaves the queue once no bank has to take or complete it. -/
def EntryTaken (g num : Nat) (done : Bool) (s t : State) : Prop :=
  ∀ e, e ∈ (t.leader (ropeOf g)).rowq → ∃ e0 ∈ (s.leader (ropeOf g)).rowq, e.num = e0.num ∧ e.op = e0.op ∧ e.banks = e0.banks ∧
    (e0.num = num → e.todo.getLsbD (rbiOf g) = false ∧ (done = true → e.open_.getLsbD (rbiOf g) = false)) ∧ (e0.num ≠ num → e = e0)
/-- Only bank `g` and its rope's row queue differ. -/
def OnlyBankAndQueue (g : Nat) (s t : State) : Prop :=
  t = { s with banks := t.banks, leaders := t.leaders } ∧ (∀ h, h ≠ g → t.bank h = s.bank h) ∧
  (∀ m, m ≠ ropeOf g → t.leader m = s.leader m) ∧
  t.leader (ropeOf g) = { s.leader (ropeOf g) with rowq := (t.leader (ropeOf g)).rowq } ∧ BytesKept s t

/-! ### Synchronisation, tasks and tables -/

/-- A belay instruction: its level, its own bits as TVAL reports a differing reduction, and its reduction. -/
def belayOp (x : Nat → Word) : Instr → Option (Nat × Nat × List Nat × Option (Nat × Nat × Word))
  | .belay k => some (k.toNat, 32 * k.toNat, [], none)
  | .belayRed d a k r => some (k.toNat, 256 + 32 * k.toNat + r.toNat, [a.toNat], some (r.toNat, d.toNat, x a.toNat))
  | _ => none
/-- The store lies over the byte. -/
def covers (p : PStore) (b : Nat) : Prop := p.pa ≤ b ∧ b < p.pa + p.data.length
/-- Nothing outside the leaders, the banks' weight versions, row memory with its check bits, the caches and their counts, the unpublished writes,
working copies, snapshots, promised bytes and saved threads. -/
def OnlyPublication (s t : State) : Prop :=
  t = { s with leaders := t.leaders, banks := t.banks, rows := t.rows, ecc := t.ecc, counts := t.counts, l2 := t.l2, cacheOld := t.cacheOld,
               pend := t.pend, amos := t.amos, promised := t.promised, snaps := t.snaps, frames := t.frames } ∧
  ∀ g, t.bank g = { s.bank g with wever := (t.bank g).wever }
/-- What a halted thread's banks still hold for publication has joined its unpublished writes (R264): nothing but such registers of task `k` and the
list of writes differs. -/
def HaltedDue (k : Nat) (s u : State) : Prop :=
  u = { s with banks := u.banks, pend := u.pend } ∧ (∃ new, u.pend = s.pend ++ new ∧ ∀ p ∈ new, p.task = k ∧ p.kind = .store) ∧
  (∀ g, u.bank g = { s.bank g with slots := (u.bank g).slots }) ∧
  ∀ g j, u.slot g j = s.slot g j ∨ (s.slot g j).st = .commitPending ∧ (s.slot g j).cw = 2 ∧ (s.slot g j).task = k ∧ ropeOf g ∈ (s.task k).halts ∧
    u.slot g j = { s.slot g j with cw := 0, wmask := 0 }
/-- The writes of `sel` and the working copies of `selA` are published in one step: they leave their lists; a calm byte that none of them covers,
in a word that none marks poisoned, reads as before; a byte that exactly one write covers holds that write's, whatever AMOs did to it. -/
def Published (sel : PStore → Bool) (selA : AmoCopy → Bool) (s t : State) : Prop :=
  t.pend = s.pend.filter (fun p => !sel p) ∧ t.amos = s.amos.filter (fun m => !selA m) ∧
  (∀ b, Calm s b → (∀ p ∈ s.pend, sel p = true → ¬ covers p b ∧ (p.pa / 8 ≤ b / 8 → p.pois.getLsbD (b / 8 - p.pa / 8) = false)) →
    (∀ m ∈ s.amos, selA m = true → ¬ (m.pa ≤ b ∧ b < m.pa + m.len)) → t.rowByte b = s.rowByte b) ∧
  ∀ before p after j (h : j < p.data.length), s.pend = before ++ p :: after → sel p = true →
    (∀ q ∈ before ++ after, sel q = true → ¬ covers q (p.pa + j)) → memByte t.rows (p.pa + j) = p.data[j]
/-- What a bank's marker publishes: what the bank has held back of its PRIVATE regions (R266). -/
def privateOf (s : State) (g : Nat) (p : PStore) : Bool :=
  p.task == (s.leader (ropeOf g)).taskOf && p.agent == bankAgent g && p.cls == 0 && !p.strip
/-- What the point of a CAIRN or TRIGGER publishes: the rope's STREAMED stores that came before it, and what its engines had completed (R271, R276). -/
def pointOf (s : State) (n : Nat) (c : CairnPend) (p : PStore) : Bool :=
  p.task == (s.leader n).taskOf && agentRope p.agent == n && p.cls == 2 && !p.strip &&
    (if p.kind == .store then decide (p.ord < c.num) else p.done && decide (p.due ≤ c.engines))
/-- A register that a publishing event of this kind and level still has to write back, or that writes back now. -/
def mustWriteBack (s : State) (g pub level k : Nat) : Prop :=
  (s.slot g k).st = .commitPending ∧ ((s.slot g k).cw = 0 ∨
    ((s.slot g k).cw = 2 ∧ (s.slot g k).pub = pub ∧ (s.slot g k).scope ≤ level ∧ ((s.slot g k).ctx, (s.slot g k).inn) = s.bankTag g))
/-- CAIRN or TRIGGER: what is recorded of it: trigger, H, cairn number, seal. -/
def cairnOp (x : Nat → Word) : Instr → Option (List Nat × Bool × Nat × Nat × Bool)
  | .cairn a b => some ([a.toNat, b.toNat], false, (x a.toNat).toNat, (x b.toNat).toNat % 64, (x b.toNat).getLsbD 63)
  | .trigger => some ([], true, 0, 0, false)
  | _ => none

/-- A kill has started on context `c` under incarnation `i` (R360): DYING, its IN moved on, its threads told to stop. -/
def KillStarted (c i : Nat) (s t : State) : Prop :=
  (t.ctx c).st = 2 ∧ (t.ctx c).inn = nextIn (s.ctx c).q i ∧ (∃ free mask at_, (t.ctx c).kill = some (i, free, mask, at_) ∧ mask = 0xFF ∧ at_ = s.cycle) ∧
  (∀ n, (s.leader n).bind.isSome = true → (s.leader n).ctxOf = c → (s.leader n).innOf = i → (t.leader n).killed = true) ∧
  (∀ k, (s.task k).ctx = c → (s.task k).inn = i → k ∈ s.tasks.map (fun e => e.1) → (t.task k).ended = true) ∧
  (∀ d, d ≠ c → t.ctx d = s.ctx d) ∧ BytesCalm s t
/-- Every bank of rope `n` but for what a release drops. -/
def threadGone (n : Nat) (t : State) : Prop := (t.leader n).bind = none ∧ (t.leader n).run = false
/-- Task `k` has ended by a BUDGET stop (R393): its own unpublished writes, requests and AMO copies are dropped, other tasks' stay, its array lines are
cleared, its ropes are released, and one entry records it. -/
def StoppedFor (k : Nat) (s t : State) : Prop :=
  (t.task k).ended = true ∧ (∀ j, j ≠ k → (t.task j).ended = (s.task j).ended) ∧ (∀ p, p ∈ t.pend ↔ p ∈ s.pend ∧ p.task ≠ k) ∧
  (∀ r, r ∈ t.reqs ↔ r ∈ s.reqs ∧ r.task ≠ k) ∧ (∀ a, a ∈ t.amos ↔ a ∈ s.amos ∧ a.task ≠ k) ∧
  (∀ n, n < 192 → (s.leader n).bind.isSome = true → (s.leader n).taskOf = k → threadGone n t) ∧
  (∀ i, (s.array i).owner = some k → (t.array i).lines = [] ∧ (t.array i).stream0 = []) ∧ t.ring.head = s.ring.head + 1


/-! ### Bank instructions (R44, R126 to R129, R144, R173) -/

/-- The bank instruction of `len` bytes completes without a taken branch (R44, R102, R173): entries on the bank loop stack that end with it
and have their last iteration done are popped; if the next entry ends with it too, it counts down and the block goes on at its start;
otherwise the block goes on at the next word, ends after its last word, or traps there with a loop still open (R174). -/
def BankSequenced (g len : Nat) (s t : State) : Prop :=
  ∀ (r : BlockRun) (popped rest : List LoopEntry), (s.bank g).run = some r → (s.bank g).loops = popped ++ rest →
    let last := r.wpos + len / 4 - 1
    let words := r.desc / 65536 % 64 + 1
    (∀ e ∈ popped, e.last = last ∧ e.count ≤ 1) →
    ((∀ e ∈ rest.head?, e.last ≠ last) → last + 1 < words →
      (t.bank g).run = some { r with wpos := last + 1 } ∧ (t.bank g).loops = rest ∧ (t.bank g).trap = (s.bank g).trap) ∧
    (rest = [] → words ≤ last + 1 → (t.bank g).run = none ∧ (t.bank g).loops = [] ∧ (t.bank g).trap = (s.bank g).trap) ∧
    ((∀ e ∈ rest.head?, e.last ≠ last) → rest ≠ [] → words ≤ last + 1 →
      ∃ tr, (t.bank g).trap = some tr ∧ tr.cause = .illegal ∧ tr.tval = BitVec.ofNat 64 rest.length ∧ tr.kind = .blockEnd) ∧
    ∀ e q, rest = e :: q → e.last = last → 1 < e.count → e.start < words →
      (t.bank g).run = some { r with wpos := e.start } ∧ (t.bank g).loops = { e with count := e.count - 1 } :: q

/-- A bank as it was, but for its block, its loop stack, ISSUE and what is named: row registers, y and predicate registers, FFLAGS, VXSAT,
the length queue and the cycle at which its lanes are free again. -/
def BankKept (b b' : Bank) : Prop :=
  b' = { b with slots := b'.slots, y := b'.y, p := b'.p, fflags := b'.fflags, vxsat := b'.vxsat, lq := b'.lq, laneAt := b'.laneAt,
                run := b'.run, bpc := b'.bpc, loops := b'.loops, hop := b'.hop, tfetch := b'.tfetch, resume := b'.resume, wave := b'.wave,
                waits := b'.waits, trap := b'.trap, issue := b.issue + 1, why := 0, issued := true }
/-- Bank `g` completes an instruction of `len` bytes; nothing outside it differs but its rope's row queue, which it leaves at a block's end. -/
def BankEnds (g len : Nat) (s t : State) : Prop :=
  BankSequenced g len s t ∧ BankKept (s.bank g) (t.bank g) ∧ OnlyBankAndQueue g s t
/-- What a lane instruction with spec `sp` changes outside its registers' contents: bank `g` alone, its rope's row queue, and the sweep's lane
cycles charged to the bound task (R147, R378); a bank whose lane has failed meets a duplicated instruction once (R402). -/
def LaneEnds (g : Nat) (sp : LaneSpec) (s t : State) : Prop :=
  let task := (s.leader (ropeOf g)).taskOf
  let cycles := sp.mult * max 1 ((sp.bmax + 383) / 384)
  BankSequenced g 4 s t ∧ BankKept (s.bank g) { t.bank g with upset := (s.bank g).upset } ∧
  (t.bank g).upset = (if sp.dup = true then none else (s.bank g).upset) ∧ (t.bank g).laneAt = s.cycle + cycles ∧
  OnlyBankAndQueue g s { t with counts := s.counts } ∧
  ∀ k, tget 0 t.counts k = tget 0 s.counts k + if k = 2 ^ 33 + task then cycles else 0
/-- The registers that no other statement of a bank instruction names hold what they held. -/
def SlotsKept (g : Nat) (s t : State) : Prop := ∀ k, t.slot g k = s.slot g k
def YKept (g : Nat) (s t : State) : Prop := ∀ r, (t.bank g).yr r = (s.bank g).yr r
def PredsKept (g : Nat) (s t : State) : Prop := ∀ r, (t.bank g).pr r = (s.bank g).pr r
def FlagsKept (g : Nat) (s t : State) : Prop :=
  (t.bank g).fflags = (s.bank g).fflags ∧ (t.bank g).vxsat = (s.bank g).vxsat ∧ (t.bank g).lq = (s.bank g).lq
/-- Bank `g` has stopped at its instruction with this trap record, and nothing else has changed (R394). -/
def BankTrapped (g : Nat) (c : Cause) (tval telem : Word) (s t : State) : Prop :=
  (∃ tr, (t.bank g).trap = some tr ∧ tr.cause = c ∧ tr.tval = tval ∧ tr.telem = telem ∧ tr.tpc = (s.bank g).pcAddr ∧ tr.disp = (s.bank g).disp ∧
    tr.kind = .instr) ∧
  t = { s with banks := t.banks } ∧ t.bank g = { s.bank g with trap := (t.bank g).trap } ∧ ∀ h, h ≠ g → t.bank h = s.bank h
/-- Bank `g` waits at its instruction, with its STALL.`cause` as the counter of the cycles that pass, and nothing else changes. -/
def BankWaits (g cause : Nat) (s t : State) : Prop :=
  t = { s with banks := t.banks } ∧ t.bank g = { s.bank g with why := cause } ∧ ∀ h, h ≠ g → t.bank h = s.bank h

/-! ### Lane instructions (R142 to R168) -/

/-- What a lane instruction needs and computes, as its meaning uses it. -/
def laneSpecOf : Instr → Option (Bank → LaneSpec)
  | .vadd d a b p e => some (opVadd.spec d a (.row b) p e)
  | .vaddScalar d a p e y => some (opVadd.spec d a (.scalar y) p e)
  | .vsub d a b p e => some (opVsub.spec d a (.row b) p e)
  | .vsubScalar d a p e y => some (opVsub.spec d a (.scalar y) p e)
  | .vmul d a b p e => some (opVmul.spec d a (.row b) p e)
  | .vmulScalar d a p e y => some (opVmul.spec d a (.scalar y) p e)
  | .vmulh d a b p e => some (opVmulh.spec d a (.row b) p e)
  | .vmulhScalar d a p e y => some (opVmulh.spec d a (.scalar y) p e)
  | .vmulhu d a b p e => some (opVmulhu.spec d a (.row b) p e)
  | .vmulhuScalar d a p e y => some (opVmulhu.spec d a (.scalar y) p e)
  | .vmac d a b p e => some (opVmac.spec d a (.row b) p e)
  | .vmacScalar d a p e y => some (opVmac.spec d a (.scalar y) p e)
  | .vand d a b p e => some (opVand.spec d a (.row b) p e)
  | .vandScalar d a p e y => some (opVand.spec d a (.scalar y) p e)
  | .vor d a b p e => some (opVor.spec d a (.row b) p e)
  | .vorScalar d a p e y => some (opVor.spec d a (.scalar y) p e)
  | .vxor d a b p e => some (opVxor.spec d a (.row b) p e)
  | .vxorScalar d a p e y => some (opVxor.spec d a (.scalar y) p e)
  | .vsll d a b p e => some (opVsll.spec d a (.row b) p e)
  | .vsllScalar d a p e y => some (opVsll.spec d a (.scalar y) p e)
  | .vsrl d a b p e => some (opVsrl.spec d a (.row b) p e)
  | .vsrlScalar d a p e y => some (opVsrl.spec d a (.scalar y) p e)
  | .vsra d a b p e => some (opVsra.spec d a (.row b) p e)
  | .vsraScalar d a p e y => some (opVsra.spec d a (.scalar y) p e)
  | .vmin d a b p e => some (opVmin.spec d a (.row b) p e)
  | .vminScalar d a p e y => some (opVmin.spec d a (.scalar y) p e)
  | .vmax d a b p e => some (opVmax.spec d a (.row b) p e)
  | .vmaxScalar d a p e y => some (opVmax.spec d a (.scalar y) p e)
  | .vminu d a b p e => some (opVminu.spec d a (.row b) p e)
  | .vminuScalar d a p e y => some (opVminu.spec d a (.scalar y) p e)
  | .vmaxu d a b p e => some (opVmaxu.spec d a (.row b) p e)
  | .vmaxuScalar d a p e y => some (opVmaxu.spec d a (.scalar y) p e)
  | .vadds d a b p e => some (opVadds.spec d a (.row b) p e)
  | .vaddsScalar d a p e y => some (opVadds.spec d a (.scalar y) p e)
  | .vsubs d a b p e => some (opVsubs.spec d a (.row b) p e)
  | .vsubsScalar d a p e y => some (opVsubs.spec d a (.scalar y) p e)
  | .vaddsu d a b p e => some (opVaddsu.spec d a (.row b) p e)
  | .vaddsuScalar d a p e y => some (opVaddsu.spec d a (.scalar y) p e)
  | .vsubsu d a b p e => some (opVsubsu.spec d a (.row b) p e)
  | .vsubsuScalar d a p e y => some (opVsubsu.spec d a (.scalar y) p e)
  | .vwmul d a b p e => some (opVwmul.spec d a (.row b) p e)
  | .vwmulScalar d a p e y => some (opVwmul.spec d a (.scalar y) p e)
  | .vwmac d a b p e => some (opVwmac.spec d a (.row b) p e)
  | .vwmacScalar d a p e y => some (opVwmac.spec d a (.scalar y) p e)
  | .vwmacu d a b p e => some (opVwmacu.spec d a (.row b) p e)
  | .vwmacuScalar d a p e y => some (opVwmacu.spec d a (.scalar y) p e)
  | .vnclip d a b p e => some (opVnclip.spec d a (.row b) p e)
  | .vnclipScalar d a p e y => some (opVnclip.spec d a (.scalar y) p e)
  | .vnclipu d a b p e => some (opVnclipu.spec d a (.row b) p e)
  | .vnclipuScalar d a p e y => some (opVnclipu.spec d a (.scalar y) p e)
  | .vssra d a b p e => some (opVssra.spec d a (.row b) p e)
  | .vssraScalar d a p e y => some (opVssra.spec d a (.scalar y) p e)
  | .vfadd d a b p e => some (opVfadd.spec d a (.row b) p e)
  | .vfaddScalar d a p e y => some (opVfadd.spec d a (.scalar y) p e)
  | .vfsub d a b p e => some (opVfsub.spec d a (.row b) p e)
  | .vfsubScalar d a p e y => some (opVfsub.spec d a (.scalar y) p e)
  | .vfmul d a b p e => some (opVfmul.spec d a (.row b) p e)
  | .vfmulScalar d a p e y => some (opVfmul.spec d a (.scalar y) p e)
  | .vfma d a b p e => some (opVfma.spec d a (.row b) p e)
  | .vfmaScalar d a p e y => some (opVfma.spec d a (.scalar y) p e)
  | .vfmin d a b p e => some (opVfmin.spec d a (.row b) p e)
  | .vfminScalar d a p e y => some (opVfmin.spec d a (.scalar y) p e)
  | .vfmax d a b p e => some (opVfmax.spec d a (.row b) p e)
  | .vfmaxScalar d a p e y => some (opVfmax.spec d a (.scalar y) p e)
  | .vfsgnJ d a b p e => some (opVfsgnJ.spec d a (.row b) p e)
  | .vfsgnJScalar d a p e y => some (opVfsgnJ.spec d a (.scalar y) p e)
  | .vfsgnN d a b p e => some (opVfsgnN.spec d a (.row b) p e)
  | .vfsgnNScalar d a p e y => some (opVfsgnN.spec d a (.scalar y) p e)
  | .vfsgnX d a b p e => some (opVfsgnX.spec d a (.row b) p e)
  | .vfsgnXScalar d a p e y => some (opVfsgnX.spec d a (.scalar y) p e)
  | .vsplat d p e y => some (opVsplat.spec d 0 (.scalar y) p e)
  | .viota d p e => some (opViota.spec d 0 (.row 0) p e)
  | .vfexp2 d a p e => some (opVfexp2.spec d a (.row 0) p e)
  | .vfrece d a p e => some (opVfrece.spec d a (.row 0) p e)
  | .vsel d a b p e => some (vselSpec d a (.row b) p e)
  | .vselScalar d a p e y => some (vselSpec d a (.scalar y) p e)
  | .vcmp d a b p e c => some (cmpSpec okInt (intCmp c) d a (.row b) p e)
  | .vcmpScalar d a p e y c => some (cmpSpec okInt (intCmp c) d a (.scalar y) p e)
  | .vfcmp d a b p e c => some (cmpSpec okFp (fpCmp c) d a (.row b) p e)
  | .vfcmpScalar d a p e y c => some (cmpSpec okFp (fpCmp c) d a (.scalar y) p e)
  | .pand d a b p => some (predSpec (fun x y => x &&& y) d a b p)
  | .por d a b p => some (predSpec (fun x y => x ||| y) d a b p)
  | .pxor d a b p => some (predSpec (fun x y => x ^^^ y) d a b p)
  | .pandn d a b p => some (predSpec (fun x y => x &&& ~~~y) d a b p)
  | .vredsum a p e y => some (redSpec okInt 6 redSum a p e y)
  | .vredmin a p e y => some (redSpec okInt 6 (redMinMax false) a p e y)
  | .vredmax a p e y => some (redSpec okInt 6 (redMinMax true) a p e y)
  | .vfredsum a p e y => some (redSpec okFp 12 (redFp fpAdd fun _ => 0) a p e y)
  | .vfredmax a p e y => some (redSpec okFp 12 (redFp (fpMinMax true) fun G => infOrMax G true) a p e y)
  | .vpopc a p e y => some (countSpec false false a p e y)
  | .vpopcQ a p e y => some (countSpec false true a p e y)
  | .vfirst a p e y => some (countSpec true false a p e y)
  | .vslideup d a p e f y => some (slideSpec true d a p e f y)
  | .vslidedn d a p e f y => some (slideSpec false d a p e f y)
  | .vperm d a b p e x => some (permSpec d a b p e x)
  | .vcompress d a p e => some (compressSpec d a p e)
  | .vcvt d a p e f => some (cvtSpec d a p e f)
  | .vpackmx d a sc l e f => some (packSpec d a sc l e f)
  | .vunpackmx d a sc l f => some (unpackSpec d a sc l f)
  | .vbpisplit d a sc l e f => some (bpisplitSpec d a sc l e f)
  | .vbpijoin d a sc l f => some (bpijoinSpec d a sc l f)
  | .vext d a k => some (vextSpec d a k)
  | .vins a b k => some (vinsSpec a b k)
  | _ => none
/-- Bank `g` issues a lane instruction whose checks pass: its lanes are free, the format is permitted, VL is within the limits, the row
operands are open as R145 asks, no word that it reads is poisoned, the length queue has room for what it pushes, none of its registers is
held by an earlier read or write (R125, R150, R297), and its lane halves agree (R402). -/
def LaneReady (mk : Bank → LaneSpec) (s : State) (g : Nat) : Prop :=
  s.cur = .bank g ∧ (s.bank g).laneAt ≤ s.cycle ∧ (mk (s.bank g)).okFmt = true ∧ (mk (s.bank g)).okLim = true ∧
  s.rowsChk g (mk (s.bank g)).regs = .ok ∧ (s.bank g).firstPoison (mk (s.bank g)).needs = none ∧
  ((mk (s.bank g)).out.push ≠ none → (s.bank g).lq.length < 16) ∧ s.laneHeld g (mk (s.bank g)) = false ∧
  (s.bank g).mismatch (mk (s.bank g)) = none
/-- Byte `j` of register `k` is one that the instruction writes. -/
def writesByte (o : LaneOut) (k j : Nat) : Prop := ∃ w ∈ o.rows, w.k = k ∧ ∃ e ∈ w.vs, w.es * e.1 ≤ j ∧ j < w.es * e.1 + w.es
/-- A row register's slot but for the cycles of its last read and of its next use (R125, R150). -/
def SlotScored (sl sl' : Slot) : Prop := sl' = { sl with rdAt := sl'.rdAt, useAt := sl'.useAt }
/-- A row register's slot but for what a lane write touches: its latch and poison bits, open-clean to open-dirty, SW, the bytes it has written
(R269), and the cycles and bytes of the write (R125, R150, R151). -/
def SlotWritten (sl sl' : Slot) : Prop :=
  sl' = { sl with latch := sl'.latch, poison := sl'.poison, st := sl'.st, sw := sl'.sw, wmask := sl'.wmask, wrAt := sl'.wrAt,
                  rdAt := sl'.rdAt, useAt := sl'.useAt, lnMask := sl'.lnMask, lnAt := sl'.lnAt } ∧
  (∀ j, sl.wmask.getLsbD j = true → sl'.wmask.getLsbD j = true) ∧ (sl.sw = true → sl'.sw = true) ∧
  (sl.st ≠ .openClean → sl'.st = sl.st) ∧ (sl.st = .openClean → sl'.st = .openClean ∨ sl'.st = .openDirty)
/-- The signed value of `x` in `w` bits. -/
def sg (x w : Nat) : Int := if x % 2 ^ w < 2 ^ (w - 1) then ((x % 2 ^ w : Nat) : Int) else ((x % 2 ^ w : Nat) : Int) - 2 ^ w
/-- `v` is `z` modulo 2^n. -/
def isZ (z : Int) (n v : Nat) : Prop := (v : Int) = z % 2 ^ n
/-- The nearest value that `w` bits hold, signed and unsigned (R61). -/
def clampS (z : Int) (w : Nat) : Int := max (-2 ^ (w - 1)) (min (2 ^ (w - 1) - 1) z)
def clampU (z : Int) (w : Nat) : Int := max 0 (min (2 ^ w - 1) z)
/-- Permitted formats: the integer codes, those and the four floating-point ones, the integers that can widen, the floating-point ones, and
those of at most 32 bits. -/
def intCode (F : Nat) : Prop := F < 8
def intFpCode (F : Nat) : Prop := F < 12
def narrowCode (F : Nat) : Prop := F < 8 ∧ F % 4 ≠ 3
def fpCode (F : Nat) : Prop := 8 ≤ F ∧ F < 12
def fpSmall (F : Nat) : Prop := 8 ≤ F ∧ F < 11
/-- An element-wise instruction: its operands, predicate and ef, the sizes of vd's and va's elements as multiples of the format's, its
permitted formats, what holds of each result (bank, format, width in bits, element, a, b, old d, result), and when it saturates. -/
structure ElRow where
  d : BitVec 3
  a : BitVec 3
  q : Src2
  p : BitVec 3
  e : BitVec 3
  md : Nat
  ma : Nat
  ok : Nat → Prop
  val : Bank → Nat → Nat → Nat → Nat → Nat → Nat → Nat → Prop
  sat : Bank → Nat → Nat → Nat → Prop
/-- Tables 6.2 and 6.3. -/
def laneEl : Instr → Option ElRow
  | .vadd d a b p e => some ⟨d, a, (.row b), p, e, 1, 1, intCode, fun _ _ w _ a b _ v => isZ (a + b) w v, fun _ _ _ _ => False⟩
  | .vaddScalar d a p e y => some ⟨d, a, (.scalar y), p, e, 1, 1, intCode, fun _ _ w _ a b _ v => isZ (a + b) w v, fun _ _ _ _ => False⟩
  | .vsub d a b p e => some ⟨d, a, (.row b), p, e, 1, 1, intCode, fun _ _ w _ a b _ v => isZ ((a : Int) - b) w v, fun _ _ _ _ => False⟩
  | .vsubScalar d a p e y => some ⟨d, a, (.scalar y), p, e, 1, 1, intCode, fun _ _ w _ a b _ v => isZ ((a : Int) - b) w v, fun _ _ _ _ => False⟩
  | .vmul d a b p e => some ⟨d, a, (.row b), p, e, 1, 1, intCode, fun _ _ w _ a b _ v => isZ (a * b) w v, fun _ _ _ _ => False⟩
  | .vmulScalar d a p e y => some ⟨d, a, (.scalar y), p, e, 1, 1, intCode, fun _ _ w _ a b _ v => isZ (a * b) w v, fun _ _ _ _ => False⟩
  | .vmulh d a b p e => some ⟨d, a, (.row b), p, e, 1, 1, intCode, fun _ _ w _ a b _ v => isZ (sg a w * sg b w / 2 ^ w) w v, fun _ _ _ _ => False⟩
  | .vmulhScalar d a p e y => some ⟨d, a, (.scalar y), p, e, 1, 1, intCode, fun _ _ w _ a b _ v => isZ (sg a w * sg b w / 2 ^ w) w v, fun _ _ _ _ => False⟩
  | .vmulhu d a b p e => some ⟨d, a, (.row b), p, e, 1, 1, intCode, fun _ _ w _ a b _ v => v = a * b / 2 ^ w, fun _ _ _ _ => False⟩
  | .vmulhuScalar d a p e y => some ⟨d, a, (.scalar y), p, e, 1, 1, intCode, fun _ _ w _ a b _ v => v = a * b / 2 ^ w, fun _ _ _ _ => False⟩
  | .vmac d a b p e => some ⟨d, a, (.row b), p, e, 1, 1, intCode, fun _ _ w _ a b d v => isZ (d + sg a w * sg b w) w v, fun _ _ _ _ => False⟩
  | .vmacScalar d a p e y => some ⟨d, a, (.scalar y), p, e, 1, 1, intCode, fun _ _ w _ a b d v => isZ (d + sg a w * sg b w) w v, fun _ _ _ _ => False⟩
  | .vand d a b p e => some ⟨d, a, (.row b), p, e, 1, 1, intFpCode, fun _ _ _ _ a b _ v => ∀ j, v.testBit j = (a.testBit j && b.testBit j), fun _ _ _ _ => False⟩
  | .vandScalar d a p e y => some ⟨d, a, (.scalar y), p, e, 1, 1, intFpCode, fun _ _ _ _ a b _ v => ∀ j, v.testBit j = (a.testBit j && b.testBit j), fun _ _ _ _ => False⟩
  | .vor d a b p e => some ⟨d, a, (.row b), p, e, 1, 1, intFpCode, fun _ _ _ _ a b _ v => ∀ j, v.testBit j = (a.testBit j || b.testBit j), fun _ _ _ _ => False⟩
  | .vorScalar d a p e y => some ⟨d, a, (.scalar y), p, e, 1, 1, intFpCode, fun _ _ _ _ a b _ v => ∀ j, v.testBit j = (a.testBit j || b.testBit j), fun _ _ _ _ => False⟩
  | .vxor d a b p e => some ⟨d, a, (.row b), p, e, 1, 1, intFpCode, fun _ _ _ _ a b _ v => ∀ j, v.testBit j = (a.testBit j != b.testBit j), fun _ _ _ _ => False⟩
  | .vxorScalar d a p e y => some ⟨d, a, (.scalar y), p, e, 1, 1, intFpCode, fun _ _ _ _ a b _ v => ∀ j, v.testBit j = (a.testBit j != b.testBit j), fun _ _ _ _ => False⟩
  | .vsll d a b p e => some ⟨d, a, (.row b), p, e, 1, 1, intCode, fun _ _ w _ a b _ v => isZ (a * 2 ^ (b % w)) w v, fun _ _ _ _ => False⟩
  | .vsllScalar d a p e y => some ⟨d, a, (.scalar y), p, e, 1, 1, intCode, fun _ _ w _ a b _ v => isZ (a * 2 ^ (b % w)) w v, fun _ _ _ _ => False⟩
  | .vsrl d a b p e => some ⟨d, a, (.row b), p, e, 1, 1, intCode, fun _ _ w _ a b _ v => v = a / 2 ^ (b % w), fun _ _ _ _ => False⟩
  | .vsrlScalar d a p e y => some ⟨d, a, (.scalar y), p, e, 1, 1, intCode, fun _ _ w _ a b _ v => v = a / 2 ^ (b % w), fun _ _ _ _ => False⟩
  | .vsra d a b p e => some ⟨d, a, (.row b), p, e, 1, 1, intCode, fun _ _ w _ a b _ v => isZ (sg a w / 2 ^ (b % w)) w v, fun _ _ _ _ => False⟩
  | .vsraScalar d a p e y => some ⟨d, a, (.scalar y), p, e, 1, 1, intCode, fun _ _ w _ a b _ v => isZ (sg a w / 2 ^ (b % w)) w v, fun _ _ _ _ => False⟩
  | .vmin d a b p e => some ⟨d, a, (.row b), p, e, 1, 1, intCode, fun _ _ w _ a b _ v => isZ (min (sg a w) (sg b w)) w v, fun _ _ _ _ => False⟩
  | .vminScalar d a p e y => some ⟨d, a, (.scalar y), p, e, 1, 1, intCode, fun _ _ w _ a b _ v => isZ (min (sg a w) (sg b w)) w v, fun _ _ _ _ => False⟩
  | .vmax d a b p e => some ⟨d, a, (.row b), p, e, 1, 1, intCode, fun _ _ w _ a b _ v => isZ (max (sg a w) (sg b w)) w v, fun _ _ _ _ => False⟩
  | .vmaxScalar d a p e y => some ⟨d, a, (.scalar y), p, e, 1, 1, intCode, fun _ _ w _ a b _ v => isZ (max (sg a w) (sg b w)) w v, fun _ _ _ _ => False⟩
  | .vminu d a b p e => some ⟨d, a, (.row b), p, e, 1, 1, intCode, fun _ _ _ _ a b _ v => v = min a b, fun _ _ _ _ => False⟩
  | .vminuScalar d a p e y => some ⟨d, a, (.scalar y), p, e, 1, 1, intCode, fun _ _ _ _ a b _ v => v = min a b, fun _ _ _ _ => False⟩
  | .vmaxu d a b p e => some ⟨d, a, (.row b), p, e, 1, 1, intCode, fun _ _ _ _ a b _ v => v = max a b, fun _ _ _ _ => False⟩
  | .vmaxuScalar d a p e y => some ⟨d, a, (.scalar y), p, e, 1, 1, intCode, fun _ _ _ _ a b _ v => v = max a b, fun _ _ _ _ => False⟩
  | .vadds d a b p e => some ⟨d, a, (.row b), p, e, 1, 1, intCode, fun _ _ w _ a b _ v => isZ (clampS (sg a w + sg b w) w) w v, fun _ w a b => clampS (sg a w + sg b w) w ≠ sg a w + sg b w⟩
  | .vaddsScalar d a p e y => some ⟨d, a, (.scalar y), p, e, 1, 1, intCode, fun _ _ w _ a b _ v => isZ (clampS (sg a w + sg b w) w) w v, fun _ w a b => clampS (sg a w + sg b w) w ≠ sg a w + sg b w⟩
  | .vsubs d a b p e => some ⟨d, a, (.row b), p, e, 1, 1, intCode, fun _ _ w _ a b _ v => isZ (clampS (sg a w - sg b w) w) w v, fun _ w a b => clampS (sg a w - sg b w) w ≠ sg a w - sg b w⟩
  | .vsubsScalar d a p e y => some ⟨d, a, (.scalar y), p, e, 1, 1, intCode, fun _ _ w _ a b _ v => isZ (clampS (sg a w - sg b w) w) w v, fun _ w a b => clampS (sg a w - sg b w) w ≠ sg a w - sg b w⟩
  | .vaddsu d a b p e => some ⟨d, a, (.row b), p, e, 1, 1, intCode, fun _ _ w _ a b _ v => isZ (clampU (a + b) w) w v, fun _ w a b => clampU (a + b) w ≠ a + b⟩
  | .vaddsuScalar d a p e y => some ⟨d, a, (.scalar y), p, e, 1, 1, intCode, fun _ _ w _ a b _ v => isZ (clampU (a + b) w) w v, fun _ w a b => clampU (a + b) w ≠ a + b⟩
  | .vsubsu d a b p e => some ⟨d, a, (.row b), p, e, 1, 1, intCode, fun _ _ w _ a b _ v => isZ (clampU ((a : Int) - b) w) w v, fun _ w a b => clampU ((a : Int) - b) w ≠ (a : Int) - b⟩
  | .vsubsuScalar d a p e y => some ⟨d, a, (.scalar y), p, e, 1, 1, intCode, fun _ _ w _ a b _ v => isZ (clampU ((a : Int) - b) w) w v, fun _ w a b => clampU ((a : Int) - b) w ≠ (a : Int) - b⟩
  | .vwmul d a b p e => some ⟨d, a, (.row b), p, e, 2, 1, narrowCode, fun _ _ w _ a b _ v => isZ (sg a w * sg b w) (2 * w) v, fun _ _ _ _ => False⟩
  | .vwmulScalar d a p e y => some ⟨d, a, (.scalar y), p, e, 2, 1, narrowCode, fun _ _ w _ a b _ v => isZ (sg a w * sg b w) (2 * w) v, fun _ _ _ _ => False⟩
  | .vwmac d a b p e => some ⟨d, a, (.row b), p, e, 2, 1, narrowCode, fun _ _ w _ a b d v => isZ (d + sg a w * sg b w) (2 * w) v, fun _ _ _ _ => False⟩
  | .vwmacScalar d a p e y => some ⟨d, a, (.scalar y), p, e, 2, 1, narrowCode, fun _ _ w _ a b d v => isZ (d + sg a w * sg b w) (2 * w) v, fun _ _ _ _ => False⟩
  | .vwmacu d a b p e => some ⟨d, a, (.row b), p, e, 2, 1, narrowCode, fun _ _ w _ a b d v => isZ (d + a * b) (2 * w) v, fun _ _ _ _ => False⟩
  | .vwmacuScalar d a p e y => some ⟨d, a, (.scalar y), p, e, 2, 1, narrowCode, fun _ _ w _ a b d v => isZ (d + a * b) (2 * w) v, fun _ _ _ _ => False⟩
  | .vnclip d a b p e => some ⟨d, a, (.row b), p, e, 1, 2, narrowCode, fun k _ w _ a b _ v => isZ (clampS (roundFix k.vxrm.toNat (sg a (2 * w)) (b % (2 * w))) w) w v, fun k w a b => clampS (roundFix k.vxrm.toNat (sg a (2 * w)) (b % (2 * w))) w ≠ roundFix k.vxrm.toNat (sg a (2 * w)) (b % (2 * w))⟩
  | .vnclipScalar d a p e y => some ⟨d, a, (.scalar y), p, e, 1, 2, narrowCode, fun k _ w _ a b _ v => isZ (clampS (roundFix k.vxrm.toNat (sg a (2 * w)) (b % (2 * w))) w) w v, fun k w a b => clampS (roundFix k.vxrm.toNat (sg a (2 * w)) (b % (2 * w))) w ≠ roundFix k.vxrm.toNat (sg a (2 * w)) (b % (2 * w))⟩
  | .vnclipu d a b p e => some ⟨d, a, (.row b), p, e, 1, 2, narrowCode, fun k _ w _ a b _ v => isZ (clampU (roundFix k.vxrm.toNat a (b % (2 * w))) w) w v, fun k w a b => clampU (roundFix k.vxrm.toNat a (b % (2 * w))) w ≠ roundFix k.vxrm.toNat a (b % (2 * w))⟩
  | .vnclipuScalar d a p e y => some ⟨d, a, (.scalar y), p, e, 1, 2, narrowCode, fun k _ w _ a b _ v => isZ (clampU (roundFix k.vxrm.toNat a (b % (2 * w))) w) w v, fun k w a b => clampU (roundFix k.vxrm.toNat a (b % (2 * w))) w ≠ roundFix k.vxrm.toNat a (b % (2 * w))⟩
  | .vssra d a b p e => some ⟨d, a, (.row b), p, e, 1, 1, intCode, fun k _ w _ a b _ v => isZ (roundFix k.vxrm.toNat (sg a w) (b % w)) w v, fun _ _ _ _ => False⟩
  | .vssraScalar d a p e y => some ⟨d, a, (.scalar y), p, e, 1, 1, intCode, fun k _ w _ a b _ v => isZ (roundFix k.vxrm.toNat (sg a w) (b % w)) w v, fun _ _ _ _ => False⟩
  | .vfadd d a b p e => some ⟨d, a, (.row b), p, e, 1, 1, fpCode, fun k F w _ a b _ v => ∀ G, fmtOf F = some G → v = (fpAdd G k.frm.toNat (vtFZ k.vt) a b).1 % 2 ^ w, fun _ _ _ _ => False⟩
  | .vfaddScalar d a p e y => some ⟨d, a, (.scalar y), p, e, 1, 1, fpCode, fun k F w _ a b _ v => ∀ G, fmtOf F = some G → v = (fpAdd G k.frm.toNat (vtFZ k.vt) a b).1 % 2 ^ w, fun _ _ _ _ => False⟩
  | .vfsub d a b p e => some ⟨d, a, (.row b), p, e, 1, 1, fpCode, fun k F w _ a b _ v => ∀ G, fmtOf F = some G → v = (fpSub G k.frm.toNat (vtFZ k.vt) a b).1 % 2 ^ w, fun _ _ _ _ => False⟩
  | .vfsubScalar d a p e y => some ⟨d, a, (.scalar y), p, e, 1, 1, fpCode, fun k F w _ a b _ v => ∀ G, fmtOf F = some G → v = (fpSub G k.frm.toNat (vtFZ k.vt) a b).1 % 2 ^ w, fun _ _ _ _ => False⟩
  | .vfmul d a b p e => some ⟨d, a, (.row b), p, e, 1, 1, fpCode, fun k F w _ a b _ v => ∀ G, fmtOf F = some G → v = (fpMul G k.frm.toNat (vtFZ k.vt) a b).1 % 2 ^ w, fun _ _ _ _ => False⟩
  | .vfmulScalar d a p e y => some ⟨d, a, (.scalar y), p, e, 1, 1, fpCode, fun k F w _ a b _ v => ∀ G, fmtOf F = some G → v = (fpMul G k.frm.toNat (vtFZ k.vt) a b).1 % 2 ^ w, fun _ _ _ _ => False⟩
  | .vfma d a b p e => some ⟨d, a, (.row b), p, e, 1, 1, fpCode, fun k F w _ a b d v => ∀ G, fmtOf F = some G → v = (fpFma G k.frm.toNat (vtFZ k.vt) a b d).1 % 2 ^ w, fun _ _ _ _ => False⟩
  | .vfmaScalar d a p e y => some ⟨d, a, (.scalar y), p, e, 1, 1, fpCode, fun k F w _ a b d v => ∀ G, fmtOf F = some G → v = (fpFma G k.frm.toNat (vtFZ k.vt) a b d).1 % 2 ^ w, fun _ _ _ _ => False⟩
  | .vfmin d a b p e => some ⟨d, a, (.row b), p, e, 1, 1, fpCode, fun k F w _ a b _ v => ∀ G, fmtOf F = some G → v = (fpMinMax false G k.frm.toNat (vtFZ k.vt) a b).1 % 2 ^ w, fun _ _ _ _ => False⟩
  | .vfminScalar d a p e y => some ⟨d, a, (.scalar y), p, e, 1, 1, fpCode, fun k F w _ a b _ v => ∀ G, fmtOf F = some G → v = (fpMinMax false G k.frm.toNat (vtFZ k.vt) a b).1 % 2 ^ w, fun _ _ _ _ => False⟩
  | .vfmax d a b p e => some ⟨d, a, (.row b), p, e, 1, 1, fpCode, fun k F w _ a b _ v => ∀ G, fmtOf F = some G → v = (fpMinMax true G k.frm.toNat (vtFZ k.vt) a b).1 % 2 ^ w, fun _ _ _ _ => False⟩
  | .vfmaxScalar d a p e y => some ⟨d, a, (.scalar y), p, e, 1, 1, fpCode, fun k F w _ a b _ v => ∀ G, fmtOf F = some G → v = (fpMinMax true G k.frm.toNat (vtFZ k.vt) a b).1 % 2 ^ w, fun _ _ _ _ => False⟩
  | .vfsgnJ d a b p e => some ⟨d, a, (.row b), p, e, 1, 1, fpCode, fun _ _ w _ a b _ v => ∀ j, j < w → v.testBit j = if j = w - 1 then b.testBit j else a.testBit j, fun _ _ _ _ => False⟩
  | .vfsgnJScalar d a p e y => some ⟨d, a, (.scalar y), p, e, 1, 1, fpCode, fun _ _ w _ a b _ v => ∀ j, j < w → v.testBit j = if j = w - 1 then b.testBit j else a.testBit j, fun _ _ _ _ => False⟩
  | .vfsgnN d a b p e => some ⟨d, a, (.row b), p, e, 1, 1, fpCode, fun _ _ w _ a b _ v => ∀ j, j < w → v.testBit j = if j = w - 1 then !b.testBit j else a.testBit j, fun _ _ _ _ => False⟩
  | .vfsgnNScalar d a p e y => some ⟨d, a, (.scalar y), p, e, 1, 1, fpCode, fun _ _ w _ a b _ v => ∀ j, j < w → v.testBit j = if j = w - 1 then !b.testBit j else a.testBit j, fun _ _ _ _ => False⟩
  | .vfsgnX d a b p e => some ⟨d, a, (.row b), p, e, 1, 1, fpCode, fun _ _ w _ a b _ v => ∀ j, j < w → v.testBit j = if j = w - 1 then a.testBit j != b.testBit j else a.testBit j, fun _ _ _ _ => False⟩
  | .vfsgnXScalar d a p e y => some ⟨d, a, (.scalar y), p, e, 1, 1, fpCode, fun _ _ w _ a b _ v => ∀ j, j < w → v.testBit j = if j = w - 1 then a.testBit j != b.testBit j else a.testBit j, fun _ _ _ _ => False⟩
  | .vsplat d p e y => some ⟨d, 0, (.scalar y), p, e, 1, 1, intFpCode, fun _ _ _ _ _ b _ v => v = b, fun _ _ _ _ => False⟩
  | .viota d p e => some ⟨d, 0, (.row 0), p, e, 1, 1, intCode, fun _ _ w i _ _ _ v => v = i % 2 ^ w, fun _ _ _ _ => False⟩
  | .vfexp2 d a p e => some ⟨d, a, (.row 0), p, e, 1, 1, fpSmall, fun k F w _ a _ _ v => ∀ G, fmtOf F = some G → v = (fpExp2 G k.frm.toNat (vtFZ k.vt) a).1 % 2 ^ w, fun _ _ _ _ => False⟩
  | .vfrece d a p e => some ⟨d, a, (.row 0), p, e, 1, 1, fpSmall, fun k F w _ a _ _ v => ∀ G, fmtOf F = some G → v = (fpRece G k.frm.toNat (vtFZ k.vt) a).1 % 2 ^ w, fun _ _ _ _ => False⟩
  | _ => none
/-- Element `j` of size `n` bytes of register `k`. -/
def elAt (s : State) (g : Nat) (k : BitVec 3) (n j : Nat) : Nat := rowGet (s.slot g k.toNat).latch n j
/-- Element `j` is active under predicate `p` for elements of `n` bytes (R144). -/
def isActive (b : Bank) (p : BitVec 3) (n j : Nat) : Prop := j < b.vl ∧ (b.pr p.toNat).getLsbD (n * j) = true
/-- VSEL: destination, first source, second source, predicate, ef. -/
def selOp : Instr → Option (BitVec 3 × BitVec 3 × Src2 × BitVec 3 × BitVec 3)
  | .vsel d a b p e => some (d, a, .row b, p, e)
  | .vselScalar d a p e y => some (d, a, .scalar y, p, e)
  | _ => none
/-- A slide: whether upward, destination, source, predicate, ef, whether it fills, its y register. -/
def slideOp : Instr → Option (Bool × BitVec 3 × BitVec 3 × BitVec 3 × BitVec 3 × Bool × BitVec 4)
  | .vslideup d a p e f y => some (true, d, a, p, e, f == 1, y)
  | .vslidedn d a p e f y => some (false, d, a, p, e, f == 1, y)
  | _ => none
/-- A compare: destination, first source, second source, predicate, ef, and its condition on two patterns of w bits. -/
def cmpOp : Instr → Option (BitVec 3 × BitVec 3 × Src2 × BitVec 3 × BitVec 3 × (Bank → Nat → Nat → Nat → Nat → Prop))
  | .vcmp d a b p e c => some (d, a, .row b, p, e, fun _ _ w x y => intHolds c.toNat w x y)
  | .vcmpScalar d a p e z c => some (d, a, .scalar z, p, e, fun _ _ w x y => intHolds c.toNat w x y)
  | .vfcmp d a b p e c => some (d, a, .row b, p, e, fun k F _ x y => ∃ G, fmtOf F = some G ∧ (fpCond c.toNat G (vtFZ k.vt) x y).1 = true)
  | .vfcmpScalar d a p e z c => some (d, a, .scalar z, p, e, fun k F _ x y => ∃ G, fmtOf F = some G ∧ (fpCond c.toNat G (vtFZ k.vt) x y).1 = true)
  | _ => none
where
  /-- The integer conditions eq, ne, lt, ge, ltu, geu (Table 2.6). -/
  intHolds (c w x y : Nat) : Prop :=
    match c with
    | 0 => x = y
    | 1 => x ≠ y
    | 2 => sg x w < sg y w
    | 3 => sg y w ≤ sg x w
    | 4 => x < y
    | _ => y ≤ x
/-- A predicate operation on each bit (R157). -/
def predOp : Instr → Option (BitVec 3 × BitVec 3 × BitVec 3 × BitVec 3 × (Bool → Bool → Bool))
  | .pand d a b p => some (d, a, b, p, fun x y => x && y)
  | .por d a b p => some (d, a, b, p, fun x y => x || y)
  | .pxor d a b p => some (d, a, b, p, fun x y => x != y)
  | .pandn d a b p => some (d, a, b, p, fun x y => x && !y)
  | _ => none
/-- A count over the active elements whose bit in predicate `a` is 1: whether it is VFIRST, whether it pushes. -/
def countOp : Instr → Option (Bool × Bool × BitVec 3 × BitVec 3 × BitVec 3 × BitVec 4)
  | .vpopc a p e y => some (false, false, a, p, e, y)
  | .vpopcQ a p e y => some (false, true, a, p, e, y)
  | .vfirst a p e y => some (true, false, a, p, e, y)
  | _ => none
/-- A reduction: its source, predicate, ef, y register, and what holds of the result pattern of format F for the active patterns in order. -/
def reduceOp : Instr → Option (BitVec 3 × BitVec 3 × BitVec 3 × BitVec 4 × (Bank → Nat → List (Option Nat) → Nat → Prop))
  | .vredsum a p e y => some (a, p, e, y, fun _ F l v => v = (l.map fun x => x.getD 0).foldr (· + ·) 0 % 2 ^ (8 * esizeOf F))
  | .vredmin a p e y => some (a, p, e, y, fun _ F l v => extreme false F l v)
  | .vredmax a p e y => some (a, p, e, y, fun _ F l v => extreme true F l v)
  | .vfredsum a p e y => some (a, p, e, y, fun k F l v => v = (redFp fpAdd (fun _ => 0) k F l).1)
  | .vfredmax a p e y => some (a, p, e, y, fun k F l v => v = (redFp (fpMinMax true) (fun G => infOrMax G true) k F l).1)
  | _ => none
where
  /-- The least or greatest active value in the format's own sense; with none active, the far end of the format (Table 6.4). -/
  extreme (big : Bool) (F : Nat) (l : List (Option Nat)) (v : Nat) : Prop :=
    let w := 8 * esizeOf F
    let key := fun (x : Nat) => if F < 4 then sg x w else (x : Int)
    (∀ x, some x ∈ l → if big then key x ≤ key v else key v ≤ key x) ∧ ((∃ x, some x ∈ l) → some v ∈ l) ∧
    ((∀ x, some x ∉ l) → v = if big then (if F < 4 then 2 ^ (w - 1) else 0) else (if F < 4 then 2 ^ (w - 1) - 1 else 2 ^ w - 1))
/-- How a y register takes a result of format `F`: extended by sign for a signed code, by zeros otherwise (R158, R170). -/
def extendsTo (F v : Nat) (w : Word) : Prop := (F < 4 → w.toInt = sg v (8 * esizeOf F)) ∧ (4 ≤ F → w.toNat = v % 2 ^ 64)
/-- The packed blocks of row `a`: the elements of 32 consecutive values, of a source of format S. -/
def blockOf (b : Bank) (S code : Nat) (a : BitVec 3) (n : Nat) (G : Fmt) : Nat × List Nat × FFlags :=
  packBlock code b.frm.toNat (vtFZ b.vt)
    ((List.range 32).map fun i => fpIn G (vtFZ b.vt) (rowGet (b.slot a.toNat).latch (esizeOf S) (32 * n + i)))

/-! ### Bank scalars and block control (R137, R138, R169 to R176) -/

/-- A result in a y register: its register, the instruction's length, and what holds of the value. -/
def yOp (y : Nat → Word) : Instr → Option (Nat × Nat × (Word → Prop))
  | .yadd d a b => some (d.toNat, 4, fun v => v = BitVec.ofInt 64 ((y a.toNat).toNat + (y b.toNat).toNat))
  | .ysub d a b => some (d.toNat, 4, fun v => v = BitVec.ofInt 64 ((y a.toNat).toNat - (y b.toNat).toNat))
  | .yand d a b => some (d.toNat, 4, fun v => ∀ k, v.getLsbD k = ((y a.toNat).getLsbD k && (y b.toNat).getLsbD k))
  | .yor d a b => some (d.toNat, 4, fun v => ∀ k, v.getLsbD k = ((y a.toNat).getLsbD k || (y b.toNat).getLsbD k))
  | .yxor d a b => some (d.toNat, 4, fun v => ∀ k, v.getLsbD k = ((y a.toNat).getLsbD k != (y b.toNat).getLsbD k))
  | .ysll d a b => some (d.toNat, 4, fun v => v.toNat = (y a.toNat).toNat * 2 ^ amount (y b.toNat) % 2 ^ 64)
  | .ysrl d a b => some (d.toNat, 4, fun v => v.toNat = (y a.toNat).toNat / 2 ^ amount (y b.toNat))
  | .ysra d a b => some (d.toNat, 4, fun v => v.toInt = (y a.toNat).toInt / 2 ^ amount (y b.toNat))
  | .ymul d a b => some (d.toNat, 4, fun v => v.toNat = (y a.toNat).toNat * (y b.toNat).toNat % 2 ^ 64)
  | .yaddi d a i => some (d.toNat, 4, fun v => v = BitVec.ofInt 64 ((y a.toNat).toNat + i.toInt))
  | .yaddiExt d a i => some (d.toNat, 8, fun v => v = BitVec.ofInt 64 ((y a.toNat).toNat + i.toInt))
  | .ymovi d i => some (d.toNat, 4, fun v => v = BitVec.ofInt 64 i.toInt)
  | .ymoviExt d i => some (d.toNat, 8, fun v => v = BitVec.ofInt 64 i.toInt)
  | _ => none
/-- Table 9.5, for the numbers that are not defined by a word of their own table. -/
def bankCsrIs (s : State) (g n : Nat) (v : Word) : Prop :=
  let b := s.bank g
  (n = 0x00 → v = b.vt) ∧ (n = 0x01 → v = BitVec.ofNat 64 b.vl) ∧ (n = 0x02 → v = b.fflags.setWidth 64) ∧
  (n = 0x03 → v = if b.vxsat then 1 else 0) ∧ (n = 0x06 → v = BitVec.ofNat 64 b.loops.length) ∧
  (n = 0x08 → v = BitVec.ofNat 64 (g * 2 ^ 8 + rbiOf g)) ∧ (0x10 ≤ n → n < 0x18 → v = s.rowStatus g (n - 0x10)) ∧
  (0x20 ≤ n → n < 0x24 → v = b.aerr.getD (n - 0x20) 0)
/-- The conditions of YB, coded 0 to 5 (R172). -/
def yHolds (c : Nat) (x y : Word) : Prop :=
  match c with
  | 0 => x.toNat = y.toNat
  | 1 => x.toNat ≠ y.toNat
  | 2 => x.toInt < y.toInt
  | 3 => y.toInt ≤ x.toInt
  | 4 => x.toNat < y.toNat
  | _ => y.toNat ≤ x.toNat
/-- Bank `g` runs block `r`, whose descriptor names `words` words. -/
def Running (s : State) (g : Nat) (r : BlockRun) (words : Nat) : Prop :=
  s.cur = .bank g ∧ (s.bank g).run = some r ∧ words = r.desc / 2 ^ 16 % 64 + 1
/-- Only the block, the loop stack, the block cache (R46) and the counts of bank `g` changed. -/
def OnlyBlock (g : Nat) (s t : State) : Prop :=
  BankKept (s.bank g) { t.bank g with blocks := (s.bank g).blocks } ∧ OnlyBankAndQueue g s t ∧ SlotsKept g s t ∧ YKept g s t ∧ PredsKept g s t ∧ FlagsKept g s t
/-- TVAL of an illegal word: the word, and the second word of a pair above it (R54). -/
def tv (w v : BitVec 32) : Word := BitVec.ofNat 64 (w.toNat + if w.toNat / 2 ^ 26 = 0x3F then 2 ^ 32 * v.toNat else 0)
/-- The results of a lane instruction that consumed a damaged operand (R146, R390, R402): only elements, y register and predicate bits that it
was to write may hold another value, no flag changes, and the bank traps with this record. -/
def Spoiled (g : Nat) (o : LaneOut) (c : Cause) (tval telem : Word) (s t : State) : Prop :=
  (∃ tr, (t.bank g).trap = some tr ∧ tr.cause = c ∧ tr.tval = tval ∧ tr.telem = telem ∧ tr.tpc = (s.bank g).pcAddr ∧ tr.kind = .instr) ∧
  t.bank g = { s.bank g with slots := (t.bank g).slots, y := (t.bank g).y, p := (t.bank g).p, upset := (t.bank g).upset, trap := (t.bank g).trap } ∧
  (∀ k, t.slot g k = { s.slot g k with latch := (t.slot g k).latch }) ∧
  (∀ k j, ¬ writesByte o k j → rowGetByte (t.slot g k).latch j = rowGetByte (s.slot g k).latch j) ∧
  (∀ r, (∀ v, o.y ≠ some (r, v)) → (t.bank g).yr r = (s.bank g).yr r) ∧
  (∀ r k, (∀ v m, o.p = some (r, v, m) → m.getLsbD k = false) → ((t.bank g).pr r).getLsbD k = ((s.bank g).pr r).getLsbD k) ∧
  (∀ h, h ≠ g → t.bank h = s.bank h) ∧ t = { s with banks := t.banks, leaders := t.leaders, free := t.free } ∧
  (∀ m, t.leader m = { s.leader m with strip := (t.leader m).strip }) ∧ BytesKept s t

/-! ### Row registers and rows (R112 to R124, R301 to R311) -/

/-- An operation of bank `g` that takes a permit has one at once: none waits before it in the tier, and one is free (R309). -/
def PermitFree (s : State) (g : Nat) : Prop :=
  s.asking (tierOf g) = [] ∧ (s.holders (tierOf g)).length < (s.tier (tierOf g)).value
/-- Bank `g`'s operation `key` (0 its program's own) holds a permit for `dur` cycles; no other tier differs (R309). -/
def TakesPermit (g key dur : Nat) (s t : State) : Prop :=
  (∃ p ∈ (t.tier (tierOf g)).holders, p = { bank := g, key := key, until_ := s.cycle + dur, used := true }) ∧
  (t.tier (tierOf g)).value = (s.tier (tierOf g)).value ∧ ∀ j, j ≠ tierOf g → t.tier j = s.tier j
/-- No leader differs, but for a row-queue entry that its banks have completed and the mark of a strip that can no longer be rewound. -/
def LeadersRow (s t : State) : Prop := ∀ n, t.leader n = { s.leader n with rowq := (t.leader n).rowq, strip := (t.leader n).strip }
/-- Nothing differs but banks, row queues, permits, tables of activations and charges, and the use of free values: no memory byte does. -/
def OnlyRowState (s t : State) : Prop :=
  t = { s with banks := t.banks, leaders := t.leaders, tiers := t.tiers, actCnt := t.actCnt, counts := t.counts, free := t.free } ∧
  LeadersRow s t ∧ BytesKept s t
/-- The same, with an entry in the scrivener's ring, what is held unpublished, and the lines that a spill puts in the L2. -/
def OnlyRowRecord (s t : State) : Prop :=
  t = { s with banks := t.banks, leaders := t.leaders, free := t.free, ring := t.ring, rows := t.rows, ecc := t.ecc, cacheOld := t.cacheOld,
               pend := t.pend, counts := t.counts, l2 := t.l2 } ∧ LeadersRow s t ∧ t.ring.head = s.ring.head + 1 ∧ BytesCalm s t
/-- A bank as it was, but for its row registers, the record of its activations, its error log and counters, its wave, and its place in the block. -/
def BankRowKept (b b' : Bank) : Prop :=
  b' = { b with slots := b'.slots, acts := b'.acts, aerr := b'.aerr, ce := b'.ce, ue := b'.ue, alerts := b'.alerts, multi := b'.multi, run := b'.run,
                bpc := b'.bpc, loops := b'.loops, hop := b'.hop, tfetch := b'.tfetch, resume := b'.resume, wave := b'.wave, waits := b'.waits,
                trap := b'.trap, issue := b'.issue, why := b'.why, issued := b'.issued, aerrOrd := b'.aerrOrd }
/-- No lane access of the register is still to come (R150). -/
def LanesPast (s : State) (g k : Nat) : Prop :=
  (s.seenSlot g k).rdAt ≤ s.cycle ∧ ((s.seenSlot g k).wrAt = 0 ∨ (s.seenSlot g k).wrAt < s.cycle)
/-- The slot is closed and free. -/
def Idle (s : State) (g k : Nat) : Prop := (s.slot g k).st = .closed ∧ (s.slot g k).busy = false ∧ LanesPast s g k
/-- ACT or ACTW: its register, y register, and whether it is ACTW. -/
def actOp : Instr → Option (Nat × Nat × Bool)
  | .act d n => some (d.toNat, n.toNat, false)
  | .actw d n => some (d.toNat, n.toNat, true)
  | _ => none
/-- The bank may open row `q` of slot `k` (R119): a region maps it and gives the right, and a PRIVATE one is the bank's own. -/
def MayOpen (s : State) (g k q : Nat) (w : Bool) (e : Region) : Prop :=
  (s.bank g).rowRegion g k q = some e ∧ (e.cls = 0 → e.okind = 0 ∧ e.onum = g) ∧ (w = false → e.mayR = true) ∧ (w = true → e.mayW = true)
/-- The Table 5.6 intervals of an ACT have passed. -/
def ActTimes (s : State) (g : Nat) : Prop :=
  (∀ c ∈ (s.bank g).acts, c + 8 ≤ s.cycle) ∧ ((s.bank g).acts.filter fun c => decide (s.cycle < c + 64)).length < 4
/-- The register is the bound task's own (R115, R129), and a precharge may start (R121). -/
def Own (s : State) (g k : Nat) : Prop :=
  ((s.slot g k).ctx, (s.slot g k).inn) = s.bankTag g ∧ (s.slot g k).task = (s.leader (ropeOf g)).taskOf
def RasOk (s : State) (g k : Nat) : Prop := (s.slot g k).actAt + 80 ≤ s.cycle
/-- A register that started to close now: 30 cycles to go, its latch no longer visible, its flags and poison cleared, CR as given (R121). -/
def Closing (s t : State) (g k cr : Nat) : Prop :=
  (t.slot g k).st = .closing ∧ (t.slot g k).until_ = s.cycle + 30 ∧ (t.slot g k).cr = cr ∧ (t.slot g k).poison = 0 ∧ (t.slot g k).wp = false ∧
  (t.slot g k).sw = false ∧ (t.slot g k).ds = false ∧ (t.slot g k).cc = false ∧ (t.slot g k).cw = 0 ∧ (t.slot g k).debt = (s.slot g k).debt
/-- Every slot of the bank but `k`, and every other bank, is as it was. -/
def OtherSlots (g k : Nat) (s t : State) : Prop := (∀ j, j ≠ k → t.slot g j = s.slot g j) ∧ ∀ h, h ≠ g → t.bank h = s.bank h
/-- Of the banks, only slot `k` of bank `g` differs. -/
def OneSlot (g k : Nat) (s t : State) : Prop := OtherSlots g k s t ∧ t.bank g = { s.bank g with slots := (t.bank g).slots }
/-- Y registers, predicates, flags, length queue and lane times are as they were. -/
def RegsKept (g : Nat) (s t : State) : Prop :=
  YKept g s t ∧ PredsKept g s t ∧ FlagsKept g s t ∧ (t.bank g).laneAt = (s.bank g).laneAt
/-- The slot's next refresh tick has come: its ticks come at its phase and every 625,000 cycles after it (R304). -/
def TickDue (s : State) (g k : Nat) : Prop := (match (s.slot g k).tickAt with | none => tickPhase g k | some c => c + 625000) ≤ s.cycle
/-- A trap of the bank is taken at once: none is held or waits, and no multi-row operation, collective or rewind is under way (R306). -/
def TrapsNow (s : State) (g : Nat) : Prop :=
  (s.bank g).trap = none ∧ (s.bank g).trapQ = [] ∧ (s.bank g).multi = none ∧ (∀ r, (s.bank g).run = some r → r.coll = none) ∧
  (s.leader (ropeOf g)).rewind = none
/-- ROWCPY or ROWFILL: destination, source, descriptor register, and the fill register. -/
def multiOp : Instr → Option (Nat × Nat × Nat × Option Nat)
  | .rowcpy d a n => some (d.toNat, a.toNat, n.toNat, none)
  | .rowfill d n => some (d.toNat, d.toNat, n.toNat + 1, some n.toNat)
  | _ => none
/-- The region `e` of bank `g`'s task is engaged (R255). -/
def isEngaged (s : State) (g : Nat) (e : Region) : Prop := ∃ x ∈ (s.ctx (s.bankTag g).1).engaged, x.1 = e.idx
/-- Rows `q0 …` of slot `d`, as many as the descriptor names: where their region is engaged they hold the fill value or the source rows as they were;
where it is not, every reader but the bank finds them as they were (R266). No other byte changes. -/
def RowsGet (g d a : Nat) (D : Word) (fill : Option Word) (s t : State) : Prop :=
  let rows := D.toNat / 2 ^ 32 % 8 + 1
  let q := D.toNat % 1024
  (∀ b, (∀ j, j < rows → b < rowAddr g d (q + j) 0 ∨ rowAddr g d (q + j) 0 + 12288 ≤ b) → t.rowByte b = s.rowByte b) ∧
  ((∀ j e, j < rows → (s.bank g).rowRegion g d (q + j) = some e → isEngaged s g e) →
    (∀ v, fill = some v → ∀ j i, j < rows → i < 12288 → t.rowByte (rowAddr g d (q + j) i) = v.extractLsb' (8 * (i % 8)) 8) ∧
    (fill = none → Mem.wf s.rows = true → s.ecc = [] → (∀ p ∈ s.pend, p.wb = false) →
      ∀ j i, j < rows → i < 12288 → t.rowByte (rowAddr g d (q + j) i) = s.rowByte (rowAddr g a (D.toNat / 2 ^ 16 % 1024 + j) i))) ∧
  ((s.task (s.leader (ropeOf g)).taskOf).ended = false → (∀ j e, j < rows → (s.bank g).rowRegion g d (q + j) = some e → ¬ isEngaged s g e) →
    ∀ b, t.rowByte b = s.rowByte b)
/-- A step of a multi-row operation changes bank `g`, its permit, the activations, the charge, the rows of row space and the bank's own unpublished
bytes at most. -/
def OnlyMulti (g d a : Nat) (s t : State) : Prop :=
  t = { s with banks := t.banks, leaders := t.leaders, tiers := t.tiers, actCnt := t.actCnt, counts := t.counts, rows := t.rows, ecc := t.ecc,
               cacheOld := t.cacheOld, pend := t.pend } ∧ LeadersRow s t ∧ (∀ p, p.agent ≠ bankAgent g → (p ∈ t.pend ↔ p ∈ s.pend)) ∧ (∀ h, h ≠ g → t.bank h = s.bank h) ∧ BankRowKept (s.bank g) (t.bank g) ∧
  (∀ k, k ≠ d → k ≠ a → t.slot g k = s.slot g k) ∧ (t.slot g d).st = (s.slot g d).st ∧ (t.slot g d).busy = true ∧
  (t.slot g d).until_ = s.cycle + 60 ∧ TakesPermit g 0 60 s t
/-- What a write-back (`wb`) or spill of register `sl` of slot `k` holds unpublished: new writes of the bank's own, which hold bytes of the latch and
every byte that was written since the row was opened, but those that a later store of the bank covers; the row reads as it did (R113, R269, R270,
R307). -/
def HeldBack (g k : Nat) (sl : Slot) (wb : Bool) (s t : State) : Prop :=
  let base := rowAddr g k sl.row 0
  ∃ new, t.pend = s.pend ++ new ∧
    (∀ p ∈ new, p.agent = bankAgent g ∧ p.kind = .store ∧ p.ctx = sl.ctx ∧ p.inn = sl.inn ∧ p.task = sl.task ∧ p.cls = sl.cls ∧ p.wb = wb ∧ base ≤ p.pa ∧
      ∀ i (h : i < p.data.length), p.data[i] = rowGetByte sl.latch (p.pa - base + i)) ∧
    ∀ j, j < 12288 → sl.wmask.getLsbD j = true → s.laterStore g (base + j) sl.wbAt = false → ∃ p ∈ new, p.pa ≤ base + j ∧ base + j < p.pa + p.data.length

/-! ### Row-memory instructions (R294 to R299) and whole rows between banks (R163, R164, R312 to R315) -/

/-- A row-memory instruction as its meaning reads it. -/
def vformOf : Instr → Option (Bank → VForm)
  | .vld d p e o _ y _ => some (vldForm d p e (o == 1) y false)
  | .vst d p e o _ y _ => some (vldForm d p e (o == 1) y true)
  | .vldx d b p e o _ y _ => some (vldxForm d b p e (o == 1) y false)
  | .vstx d b p e o _ y _ => some (vldxForm d b p e (o == 1) y true)
  | .vldseg d n p e o _ y _ => some (segForm d n p e (o == 1) y false)
  | .vstseg d n p e o _ y _ => some (segForm d n p e (o == 1) y true)
  | _ => none
/-- Bank `g` issues it, VL is within the limits, its registers are open as R145 asks and not in use by a lane, fewer than four row-memory
instructions are in flight (R297), every probe passes (R295), nothing that it stores is poisoned, a PRIVATE region that it stores to is engaged
(R255), and no page that it loads is absent. -/
def VmemReady (f : VForm) (s : State) (g : Nat) : Prop :=
  s.cur = .bank g ∧ f.okLim = true ∧ s.rowsChk g f.regs = .ok ∧ s.vbusy g f.regs = false ∧
  s.vprobe g f = none ∧ (f.store = true → ∀ e ∈ s.vregions g f, s.engaging g e = false ∧ s.readsPend g e = false) ∧
  (f.store = true → (s.bank g).firstPoison (f.els.flatMap fun e => e.units.map fun u => (u.reg, e.el, u.off, if u.scale then 1 else u.len)) = none) ∧
  (f.store = false → (s.vpages g f).filter (fun p => !s.staged p.1 p.2) = [])
/-- The accesses of an instruction's active elements. -/
def unitsOf (f : VForm) : List VUnit := f.els.flatMap fun e => e.units
/-- The most recently used entry of the region TLB, which alone the lane banks may hold too, covers every access, and maps row space. -/
def OneRegion (s : State) (g : Nat) (f : VForm) (e : Region) : Prop :=
  (s.leader (ropeOf g)).tlb.head? = some e ∧ (∀ i, ∀ x ∈ tget [] (s.leader (ropeOf g)).lanes i, x = e) ∧ e.map < 2 ∧
  (∀ u ∈ unitsOf f, e.vbase ≤ u.va ∧ u.va + u.len ≤ e.vbase + e.len ∧ u.va < scratchBase) ∧
  ∀ x ∈ f.els, ∀ p ∈ x.probes, e.vbase ≤ p.1 ∧ p.1 < e.vbase + e.len
/-- Where the access of unit `u` lies in row space. -/
def unitAt (s : State) (e : Region) (u : VUnit) (pa : Nat) : Prop := ∃ cls scope home, s.regionTarget e (u.va - e.vbase) = some (.row pa cls scope home)
/-- What a row-memory instruction of bank `g` may move beside what it loads or stores: entries of the region TLB and the lane banks, cache lines,
staging pages, fills, event counts, records of malformed region entries, the parts that its context has reached, and its own place in flight; every bank but `g` and every other leader
is as it was, and of its own leader only the strip store buffer and the row queue differ beside. -/
def RowAccess (g : Nat) (s t : State) : Prop :=
  t = { s with banks := t.banks, leaders := t.leaders, ctxs := t.ctxs, ring := t.ring, rows := t.rows, ecc := t.ecc, counts := t.counts, l2 := t.l2,
               cacheOld := t.cacheOld, pend := t.pend, reqs := t.reqs, reqNum := t.reqNum,
               weights := { s.weights with frames := t.weights.frames } } ∧
  OnlyFills s t ∧ (∀ h, h ≠ g → t.bank h = s.bank h) ∧ (∀ m, m ≠ ropeOf g → t.leader m = s.leader m) ∧
  t.leader (ropeOf g) = { s.leader (ropeOf g) with tlb := (t.leader (ropeOf g)).tlb, lanes := (t.leader (ropeOf g)).lanes,
                                                   rowq := (t.leader (ropeOf g)).rowq, strip := (t.leader (ropeOf g)).strip } ∧
  (∀ x, t.ctx x = { s.ctx x with badRgn := (t.ctx x).badRgn, parts := (t.ctx x).parts }) ∧ BankSequenced g 4 s t ∧
  BankKept (s.bank g) { t.bank g with vmems := (s.bank g).vmems, sendUe := (s.bank g).sendUe } ∧ YKept g s t ∧ PredsKept g s t ∧ (t.bank g).laneAt = (s.bank g).laneAt ∧
  (t.bank g).vxsat = (s.bank g).vxsat ∧ (t.bank g).lq = (s.bank g).lq ∧
  ∃ d, s.cycle < d ∧ (t.bank g).vmems = ((s.bank g).vmems.filter fun c => decide (s.cycle < c)) ++ [d]
/-- A peer form: data register, target register, index register, predicate, ef, whether it stores, mask. -/
def peerOp : Instr → Option (BitVec 3 × BitVec 3 × BitVec 3 × BitVec 3 × BitVec 3 × Bool × BitVec 3)
  | .vldxPeer d a b p e _ _ m => some (d, a, b, p, e, false, m)
  | .vstxPeer d a b p e _ _ m => some (d, a, b, p, e, true, m)
  | _ => none
/-- Element `j` of a peer form reaches this target. -/
def Reaches (s : State) (g : Nat) (vk v : BitVec 3) (n : Nat) (store : Bool) (j : Nat) (x : PeerAt) : Prop :=
  s.peerTarget g v.toNat n j = some x ∧ s.peerChk g vk.toNat store x = .ok
/-- VSHUF or VBCAST as a bank issues it, and its pattern or index word. -/
def collOp (y : Nat → Word) : Instr → Option (Coll × Word)
  | .vshuf d a p e c => some ({ bcast := false, d := d, a := a, p := p, e := e, m := (y c.toNat).toNat }, y c.toNat)
  | .vbcast d a p e c => some ({ bcast := true, d := d, a := a, p := p, e := e, m := (y c.toNat).toNat }, y c.toNat)
  | _ => none
/-- The bank index that index `i` receives from (Table 6.5): XOR with the pattern, its rotation, or the broadcast index. -/
def receivesFrom (c : Coll) (i : Nat) : Nat :=
  if c.bcast then c.m % 32 else if c.m / 256 % 2 = 0 then i ^^^ (c.m % 32) else (i + 32 - c.m % 32) % 32
/-- Only leader `n` differs, in its spine, logs and counters. -/
def OnlySpine (n : Nat) (s t : State) : Prop :=
  OnlyLeader n s t ∧ BytesKept s t ∧ t.leader n = { s.leader n with degraded := (t.leader n).degraded, spineLog := (t.leader n).spineLog, spineOrd := (t.leader n).spineOrd, xfer := (t.leader n).xfer, retry := (t.leader n).retry, degradedN := (t.leader n).degradedN, poisonedN := (t.leader n).poisonedN }

/-! ### Traps at a boundary, diagnostics, save images -/

/-- The state with the trap record of bank `g` replaced. -/
def withTrap (s : State) (g : Nat) (t : Option BankTrap) : State := s.setBank g { s.bank g with trap := t }
/-- Thread `n` takes what is pending at a boundary (R392): it runs, handles no trap, and no kill, stop of its task or trap that its frame held comes
first. -/
def Takes (s : State) (n : Nat) : Prop :=
  (s.leader n).run = true ∧ Free s n ∧ (s.leader n).killed = false ∧ (s.leader n).pendTrap = none ∧ (s.task (s.leader n).taskOf).stop = 0
/-- A leader instruction of 4 bytes that changes no register completes. -/
def Completes (n : Nat) (s t : State) : Prop :=
  Sequenced 4 (s.leader n) (t.leader n) ∧ LeaderKept (s.leader n) (t.leader n) ∧ (∀ r, t.xr n r = s.xr n r) ∧ ∀ m, m ≠ n → t.leader m = s.leader m
/-- Leader `n` issues a K instruction at level K with its operands ready. -/
def ReadyK (s : State) (n : Nat) (srcs : List Nat) : Prop := Ready s n srcs ∧ (s.leader n).level = 2
/-- Every calm byte of row space, and every byte of weight space, reads as before. -/
def RowsCalm (s t : State) : Prop := (∀ a, Calm s a → t.rowByte a = s.rowByte a) ∧ ∀ a, memByte t.weights.bytes a = memByte s.weights.bytes a
/-- The save area from `va` passes its probes (R376, R377), and an open strip has been committed. -/
def AreaReady (s : State) (n va : Nat) (write : Bool) : Prop := va % 4096 = 0 ∧ s.areaFault n va write = none ∧ (s.leader n).strip = none
/-- The whole area of a save lies in one well-formed region of row space, the most recently used entry of the region TLB. -/
def AreaIn (s : State) (n va : Nat) (e : Region) : Prop :=
  (s.leader n).tlb.head? = some e ∧ e.ok = true ∧ e.map < 2 ∧ e.vbase ≤ va ∧ va + imageLen ≤ e.vbase + e.len ∧ va + imageLen ≤ scratchBase
/-- No page of the area is absent from the staging cache (R319). -/
def AreaStaged (s : State) (n va : Nat) : Prop :=
  ∀ p ∈ s.srcPages n (s.leader n).wever (BitVec.ofNat 64 va) 0 imageLen, s.staged p.1 p.2 = true
/-- The image's header names this binding, and its fields have their widths (Table 18.5). -/
def NamesBinding (f : Frame) (b : Binding) : Prop :=
  f.ctx = b.ctx ∧ b.ctx < 1024 ∧ f.inn = b.inn ∧ b.inn < 2 ^ 14 ∧ f.task < 2 ^ 32 ∧ f.level = b.level ∧ b.level < 8 ∧ f.ord = b.ord ∧ f.inst = b.inst
/-- The area holds, unchanged, the image that SAVECTX wrote as `f` at cycle `cyc` with `fr` free values used; the context has no other. -/
def AreaHolds (s : State) (n va : Nat) (b : Binding) (cyc fr : Nat) (f : Frame) : Prop :=
  (∃ at_, s.images.filter (fun e => e.1 == b.ctx) = [(b.ctx, at_, cyc, fr, f)]) ∧
  s.vaBytes n (s.leader n).wever va imageLen = (List.range imageLen).map fun o => (imageByte f cyc fr o, false)
/-- An event that ends a WFE of the thread has occurred (R234). -/
def woken (s : State) (n : Nat) : State := s.setLeader n { s.leader n with wfeEv := true }
/-- The state without request `id`. -/
def withoutReq (s : State) (id : Nat) : State := { s with reqs := s.reqs.filter fun r => r.id != id }
/-- What DIAGLD reads of each kind of storage (Table 18.8), with `c` the stored check bits. -/
def diagValue (s : State) (D : Nat) (c : BitVec 1) (v : Word) : Prop :=
  let g := D / 2 ^ 40 % 2 ^ 13
  let x := D / 2 ^ 40 % 2 ^ 10
  let w := D / 2 ^ 16 % 2 ^ 11
  let sl := s.slot g (D / 2 ^ 37 % 8)
  let latch := sl.latch.extractLsb' (64 * w) 64
  let pl := (s.array x).plane (D / 2 ^ 32 % 2)
  let ln := (s.array x).line (D / 2 ^ 16 % 2 ^ 9)
  (D / 2 ^ 59 = 0 → v = if c = 1 then (s.rowEcc (cellWord (BitVec.ofNat 64 D))).setWidth 64 else memDw s.rows (8 * cellWord (BitVec.ofNat 64 D))) ∧
  (D / 2 ^ 59 = 1 → c = 0 → v = latch) ∧
  (D / 2 ^ 59 = 1 → c = 1 → v = (if sl.poison.getLsbD w then eccPoison latch else eccOf latch).setWidth 64) ∧
  (D / 2 ^ 60 = 1 → v = if c = 1 then (eccGet pl.ecc (D % 2 ^ 13) (memDw pl.data (8 * (D % 2 ^ 13)))).setWidth 64 else memDw pl.data (8 * (D % 2 ^ 13))) ∧
  (D / 2 ^ 60 = 2 → v = if c = 1 then (eccGet ln.ecc (D % 2 ^ 7) (memDw ln.data (8 * (D % 2 ^ 7)))).setWidth 64 else memDw ln.data (8 * (D % 2 ^ 7))) ∧
  (D / 2 ^ 60 = 3 → v = BitVec.ofNat 64 (s.counter (D / 2 ^ 44 % 16) (D / 2 ^ 16 % 2 ^ 24) (D % 2 ^ 8))) ∧
  (D / 2 ^ 60 = 4 → v = (s.leader (D / 2 ^ 40 % 2 ^ 8)).spineLog.getD (D % 4) 0) ∧
  (D / 2 ^ 60 = 5 → v = BitVec.ofNat 64 (Config.weight (D % 2 ^ 8))) ∧
  (D / 2 ^ 60 = 6 → v = BitVec.ofNat 64 (tget Phys.reset s.weights.phys (8704 * (D / 2 ^ 40 % 8) + D % 2 ^ 14)).erases)
/-- A diagnostic access to a row word goes to the foreign queue of its bank, and its leader waits; it waits on while the bank has not served it
(R408). -/
def CellWaits (n : Nat) (D : Word) (s : State) (i : Instr) : Prop :=
  (s.diagReq n (cellWord D) = none → Ends i s fun t => t = { s with leaders := t.leaders, reqs := t.reqs, reqNum := s.reqNum + 1 } ∧
    Waits n 0x0B s { t with reqs := s.reqs, reqNum := s.reqNum } ∧ ∃ r, t.reqs = s.reqs ++ [r] ∧ r.id = s.reqNum ∧ r.leader = n ∧ r.op = .diag ∧
      r.miss = true ∧ r.tgt.word = (0, cellWord D)) ∧
  ∀ r, s.diagReq n (cellWord D) = some r → r.miss = true → Ends i s (Waits n 0x0B s)
/-- Doubleword `k` of a save area as its leader reads it. -/
def areaDw (s : State) (n va k : Nat) : Nat := leNat (((s.vaBytes n (s.leader n).wever va imageLen).drop (8 * k)).take 8 |>.map fun b => b.1)

/-! ### Matrix commands (R178 to R206) -/

/-- A matrix instruction: its kind, array, the registers it reads, its operand words, its function bits, and the check of its operand words
for a rope with `gb` granted banks: the value of the first register that breaks a rule. -/
def matOp (x : Nat → Word) : Instr → Option (Nat × Nat × List Nat × List Word × Nat × (Nat → Bool → Option Word))
  | .mlds m a b p => some (0, m.toNat, [a.toNat, b.toNat], [x a.toNat, x b.toNat], p.toNat, fun gb q => mldsBad gb q (x a.toNat) (x b.toNat))
  | .mstr m a b c l p => some (1, m.toNat, [a.toNat, b.toNat, c.toNat], [x a.toNat, x b.toNat, x c.toNat], p.toNat + 2 * l.toNat,
      fun gb q => mstrBad gb q (x a.toNat) (x b.toNat) (x c.toNat))
  | .mzero m a => some (2, m.toNat, [a.toNat], [x a.toNat], 0, fun _ _ => if lineWordOk (x a.toNat) then none else some (x a.toNat))
  | .mdrain m a b c q r u t => some (3, m.toNat, [a.toNat, b.toNat, c.toNat], [x a.toNat, x b.toNat, x c.toNat], t.toNat + 2 * u.toNat + 4 * r.toNat + 8 * q.toNat,
      fun gb z => mdrainBad gb z (x a.toNat) (x b.toNat) (t.toNat + 2 * u.toNat + 4 * r.toNat + 8 * q.toNat))
  | .macld m a b => some (4, m.toNat, [a.toNat, b.toNat], [x a.toNat, x b.toNat], 0, fun gb q => macBad gb q (x a.toNat) (x b.toNat))
  | .macst m a b => some (5, m.toNat, [a.toNat, b.toNat], [x a.toNat, x b.toNat], 0, fun gb q => macBad gb q (x a.toNat) (x b.toNat))
  | .mtile m g => some (6, m.toNat, (List.range 6).map fun k => g.toNat + k, (List.range 6).map fun k => x (g.toNat + k), 0,
      fun gb q => tileBad gb q false ((List.range 6).map fun k => x (g.toNat + k)))
  | .mtileAs m g => some (7, m.toNat, (List.range 6).map fun k => g.toNat + k, (List.range 6).map fun k => x (g.toNat + k), 0,
      fun gb q => tileBad gb q true ((List.range 6).map fun k => x (g.toNat + k)))
  | _ => none
/-- An MDRAIN with no function bit names no parameter block. -/
def drainPlain : Instr → Prop
  | .mdrain _ _ _ c q r u t => t = 0 ∧ u = 0 ∧ r = 0 ∧ q = 0 → c = 0
  | _ => True
/-- A leader as it was, but for its matrix queue and what every issue advances; an open strip can no longer be rewound (R400). -/
def QueueKept (l l' : Leader) : Prop :=
  l' = { l with pc := l'.pc, loops := l'.loops, hop := l'.hop, matq := l'.matq, copyq := l'.copyq, toks := l'.toks, seq := l'.seq, cmdNum := l'.cmdNum,
                strip := l'.strip, tileSeq := l'.tileSeq, issue := l.issue + 1, csr := { l.csr with instret := l.csr.instret + 1 }, stalled := false,
                why := 0, issued := true } ∧
  (∀ st, l.strip = some st → l'.strip = some { st with spoiled := true }) ∧ (l.strip = none → l'.strip = none)
/-- Issue cycles of a step: the rows streamed, once for each slice pass of an FP64 step (R202, Table 17.1). -/
def stepCycles (c : MatCmd) (pass : Nat) : Nat :=
  if 6 ≤ c.kind ∧ dFmt (if pass = 2 then c.op 3 else c.op 2) = 0x0B then c.rows * ((vtSLC c.vt + 3) * (vtSLC c.vt + 4) / 2) else c.rows
/-- Stream `k` of array `i` runs command `c`, whose issuer lives (R23). -/
def Runs (s : State) (i k : Nat) (c : MatCmd) : Prop := (s.array i).cur = some k ∧ (s.array i).head k = some c ∧ s.live c.ctx c.inn = true
/-- A leader as it was, but for what the end of one of its engine commands changes: the count of commands ended, the commands under way, tokens and
faults reported, flags raised, and what the command's accesses left in its TLB and L1. -/
def EngineKept (l l' : Leader) : Prop :=
  l' = { l with engDone := l.engDone + 1, matq := l'.matq, matRun := l'.matRun, copyRun := l'.copyRun, follow := l'.follow, toks := l'.toks,
                wfeEv := l'.wfeEv, async := l'.async, tlb := l'.tlb, l1 := l'.l1, csr := { l.csr with fflags := l'.csr.fflags, vxsat := l'.csr.vxsat } }
/-- What engines of the package may move beside what is stated of them: entries of a region TLB, cache lines, staging pages and pages wanted, fills,
event counts and a task's counts of array cycles, records of malformed region entries, the parts that a context has reached, unpublished writes; every calm byte of memory reads as before. -/
def EngineAside (s t : State) : Prop :=
  t = { s with leaders := t.leaders, arrays := t.arrays, frames := t.frames, tasks := t.tasks, ctxs := t.ctxs, ring := t.ring, rows := t.rows,
               ecc := t.ecc, counts := t.counts, l2 := t.l2, cacheOld := t.cacheOld, pend := t.pend, reqs := t.reqs, reqNum := t.reqNum,
               weights := { s.weights with frames := t.weights.frames, want := t.weights.want } } ∧
  OnlyFills s t ∧ (∀ x, t.ctx x = { s.ctx x with badRgn := (t.ctx x).badRgn, parts := (t.ctx x).parts }) ∧ BytesCalm s t
/-- The command has left its array, which is idle; its leader counts it. -/
def MatGone (i k : Nat) (c : MatCmd) (s t : State) : Prop :=
  (t.array i).cur = none ∧ (t.array i).tile k = none ∧ EngineKept (s.leader c.leader) (t.leader c.leader) ∧
  (∀ y, y ≠ i → t.array y = s.array y) ∧ ∀ m, m ≠ c.leader → t.leader m = s.leader m
/-- The command has ended without a fault: the stream's head is gone, its token is DONE. -/
def MatEnded (i k : Nat) (c : MatCmd) (s t : State) : Prop :=
  MatGone i k c s t ∧ (k = 0 → (t.array i).stream0 = (s.array i).stream0.drop 1) ∧ (k ≠ 0 → k < 4 → (t.array i).head k = none) ∧
  (∀ d, d ∈ (t.leader c.leader).matRun ↔ d ∈ (s.leader c.leader).matRun ∧ d.num ≠ c.num) ∧ (t.leader c.leader).matq = (s.leader c.leader).matq ∧
  (∀ q, c.tok = some q → ((t.leader c.leader).tok q).st = .done) ∧ (t.leader c.leader).async = (s.leader c.leader).async
/-- The command has ended in a fault (R193): one of stream 0 is reported as ASYNC_FAULT and takes the commands behind it for its array along; a
follow-on's token records it. -/
def MatFaulted (i k : Nat) (c : MatCmd) (e : Cause) (s t : State) : Prop :=
  MatGone i k c s t ∧
  (k = 0 → (t.array i).stream0 = [] ∧ (t.leader c.leader).matq = (s.leader c.leader).matq.filter (fun d => d.arr != c.arr) ∧
    (t.leader c.leader).async = (s.leader c.leader).async ++
      [(BitVec.ofNat 64 (e.code * 2 ^ 56 + c.arr * 2 ^ 54 + c.pc.toNat % 2 ^ 18), BitVec.ofNat 64 s.cycle)]) ∧
  (k ≠ 0 → k < 4 → (t.array i).head k = none ∧ ∀ q, c.tok = some q → ((t.leader c.leader).tok q).st = .fault ∧ ((t.leader c.leader).tok q).code = 8 ∧
    ((t.leader c.leader).tok q).cause = e.code)
/-- The lines of an accumulator word's rows. -/
def accLines (W : Word) (row m : Nat) : Nat × Nat := linesOf (accMode W) row m
/-- The thresholds that an assay register gives (R214): SAT, UFL and CAN. -/
def exceeds (t : Tile) (abr : Word) (k : Nat) : Prop :=
  match k with
  | 0 => abr.toNat / 2 ^ 32 % 2 ^ 16 < t.sat
  | 1 => abr.toNat / 2 ^ 16 % 2 ^ 16 < t.ufl
  | _ => abr.toNat % 2 ^ 16 < t.can

/-! ### Copies, stagings and consignments (R316 to R347) -/

/-- The registers of a group, and what they hold. -/
def group (g k : Nat) : List Nat := (List.range k).map fun j => g + j
def groupVals (x : Nat → Word) (g k : Nat) : List Word := (group g k).map x
/-- A copy-queue instruction: its kind, token, transform, the registers it reads, its operands, and the check of its registers for a rope with `gb`
granted banks: the value of the first one that breaks a rule. -/
def copyOp (x : Nat → Word) : Instr → Option (Nat × Nat × Nat × List Nat × List Word × (Nat → Bool → Option Word))
  | .copy t a q => some (0, t.toNat, q.toNat, group a.toNat 6, groupVals x a.toNat 6, fun gb z => copyOpsBad gb z q.toNat (groupVals x a.toNat 6))
  | .copym t a b _ k p _ q => some (1, t.toNat, q.toNat, group a.toNat 6 ++ group b.toNat (if k = 0 then 3 else 6), groupVals x a.toNat 6,
      fun gb z => (copyOpsBad gb z q.toNat (groupVals x a.toNat 6)).orElse fun _ =>
        if k = 0 then mstrBad gb z (x b.toNat) (x (b.toNat + 1)) (x (b.toNat + 2)) else tileBad gb z (p == 1) (groupVals x b.toNat 6))
  | .stage t a b => some (2, t.toNat, 0, [a.toNat, b.toNat], [x a.toNat, x b.toNat], fun _ _ =>
      if (x b.toNat).toNat / 2 ^ 36 % 2 ^ 27 = 0 ∧ 1 ≤ (x b.toNat).toNat % 2 ^ 36 ∧ (x b.toNat).toNat % 2 ^ 36 ≤ 2 ^ 32 then none else some (x b.toNat))
  | .consign t a => some (3, t.toNat, 0, group a.toNat 3, groupVals x a.toNat 3, fun _ _ =>
      if ¬(1 ≤ (x (a.toNat + 2)).toNat ∧ (x (a.toNat + 2)).toNat ≤ 64) then some (x (a.toNat + 2))
      else if (x a.toNat).toNat % 128 ≠ 0 then some (x a.toNat) else none)
  | _ => none
/-- What follows the copy (R336): the MSTR or MTILE that a COPYM carries, captured at its issue. -/
def followsAs (l : Leader) (n : Nat) (c : CopyCmd) : Instr → Prop
  | .copym t _ b m k p r _ => ∃ f, c.follow = some f ∧ f.kind = (if k = 0 then 1 else if p = 1 then 7 else 6) ∧ f.arr = m.toNat ∧
      f.ops = groupVals l.xr b.toNat (if k = 0 then 3 else 6) ∧ f.pc = l.pc ∧ f.vt = l.csr.vt ∧ f.frm = l.csr.frm ∧ f.tok = some t.toNat ∧ f.leader = n ∧
      f.num = l.cmdNum + 1 ∧ f.task = l.taskOf ∧ f.ctx = l.ctxOf ∧ f.inn = l.innOf ∧ (k = 0 → f.flags = p.toNat + 2 * r.toNat) ∧
      f.vxrm = l.csr.vxrm ∧ (f.kind = 7 → f.flags = tget 0 l.tileSeq m.toNat + 1 ∧ f.shift = l.csr.acan.toNat ∧
        f.abr = (match m.toNat with | 0 => l.csr.abr0 | 1 => l.csr.abr1 | 2 => l.csr.abr2 | _ => l.csr.abr3))
  | _ => c.follow = none
/-- A token that is free for an issue (Table 15.2). -/
def isFree (t : Token) : Prop := t.st = .idle ∨ t.st = .done ∨ t.st = .fault
/-- A leader as it was, but for the tokens, the copy queue and engine, and what every instruction advances. -/
def TokensKept (l l' : Leader) : Prop :=
  l' = { l with pc := l'.pc, loops := l'.loops, hop := l'.hop, toks := l'.toks, copyq := l'.copyq, copyRun := l'.copyRun, wfeEv := l'.wfeEv,
                follow := l'.follow, engDone := l'.engDone,
                issue := l.issue + 1, csr := { l.csr with instret := l.csr.instret + 1 }, stalled := false,
                why := 0, issued := true }
/-- Every token but `t` is as it was. -/
def OtherTokens (t : Nat) (l l' : Leader) : Prop := ∀ k, k ≠ t → l'.tok k = l.tok k
/-- The conditions that a WAIT names hold (R345): its tokens are free, and no more loads, stores, row-queue entries and matrix commands are
outstanding than it allows, those that a COPYM carries among them; 15 names no limit. -/
def WaitHolds (s : State) (n : Nat) (t : BitVec 8) (ld st rq mq : Nat) : Prop :=
  (∀ k, k < 8 → t.getLsbD k = true → isFree ((s.leader n).tok k)) ∧
  (ld = 15 ∨ (s.reqs.filter fun r => r.leader == n && r.op.isLoad).length ≤ ld) ∧
  (st = 15 ∨ (s.reqs.filter fun r => r.leader == n && r.op.isStore).length ≤ st) ∧
  (rq = 15 ∨ ((s.leader n).rowq.filter fun e => !(e.todo == 0 && e.open_ == 0)).length ≤ rq) ∧
  (mq = 15 ∨ (s.leader n).matq.length + (s.leader n).matRun.length + (s.leader n).follow.length +
    ((s.leader n).copyq.filter fun c => c.follow.isSome).length + (if ∃ r, (s.leader n).copyRun = some r ∧ r.cmd.follow ≠ none then 1 else 0) ≤ mq)

/-- The copy's byte count passes the task's budget (R343, R348): a limit of zero binds a task with a deadline only. -/
def overBytes (t : Task) (n : Nat) : Prop := ((t.dw 18).toNat ≠ 0 ∨ t.dw 3 ≠ 0) ∧ (t.dw 18).toNat < n
/-- Leader `n`'s copy engine has no command left and its token ended so (R343). -/
def CopyFaulted (n : Nat) (c : CopyCmd) (code cause : Nat) (idx aux : Word) (t : State) : Prop :=
  (t.leader n).copyRun = none ∧ ((t.leader n).tok c.tok).st = .fault ∧ ((t.leader n).tok c.tok).code = code ∧ ((t.leader n).tok c.tok).cause = cause ∧
  ((t.leader n).tok c.tok).idx = idx ∧ ((t.leader n).tok c.tok).aux = aux

/-- Thread `n` of `task` runs on its rope and has no saved frame. -/
def OnRope (s : State) (task n : Nat) : Prop := s.savedFrame task n = none ∧ (s.leader n).bind.isSome = true ∧ (s.leader n).taskOf = task
/-- The rope's thread placed hub entry `c` and still holds it. -/
def Holds (s : State) (n : Nat) (c : CopyCmd) : Prop := ((s.leader n).tok c.tok).st = .running ∧ ((s.leader n).tok c.tok).num = c.num
/-- The rope's engine may go on: a live incarnation is bound, and no pre-emption and no stop of its task holds it at byte `prog` of its copy (R23, R393,
R404). -/
def EngineFree (s : State) (n prog : Nat) : Prop := s.copyLive n = true ∧ ¬((s.yielding n = true ∨ s.stopping n = true) ∧ prog % 128 = 0)
/-- A follow-on that no stream of its array can take now (R204). -/
def Blocked (s : State) (n : Nat) (c : CopyCmd) : Prop :=
  s.handedOver n c = true ∨ ∀ g, c.follow = some g → (s.array (4 * n + g.arr)).stream1 ≠ none ∧ (s.array (4 * n + g.arr)).stream2 ≠ none ∧
    (s.array (4 * n + g.arr)).stream3 ≠ none
/-- What the hub's own lookups and reads may move beside a token of leader `n` and the weight store: lines of the L2, event counts, fills, records of
malformed region entries; every calm byte reads as before. -/
def HubAside (n : Nat) (s t : State) : Prop :=
  t = { s with leaders := t.leaders, weights := t.weights, ctxs := t.ctxs, ring := t.ring, rows := t.rows, ecc := t.ecc, counts := t.counts
               l2 := t.l2, cacheOld := t.cacheOld, reqs := t.reqs, reqNum := t.reqNum } ∧
  (∀ m, m ≠ n → t.leader m = s.leader m) ∧ t.leader n = { s.leader n with toks := (t.leader n).toks, wfeEv := (t.leader n).wfeEv } ∧
  (∀ x, t.ctx x = { s.ctx x with badRgn := (t.ctx x).badRgn }) ∧ OnlyFills s t ∧ BytesCalm s t
/-- Bytes of a flash page (R316): the last holds 16 KiB of data. -/
def pageLen (k : Nat) : Nat := if k = 2730 then 16384 else 24576

/-! ### The purser, the host port and the tables of the firmware (Chapters 16, 17, 19) -/

/-- What an interval has counted: the events that the state has kept by class and task, and the beats of transfers sent again that the event lists (log
entry 41). -/
def intervalOf (s : State) (cs : List (Nat × Nat × Nat)) : List (Nat × Nat × Nat) :=
  (s.counts.map fun (e : Nat × Nat) => (e.1 / 2 ^ 33, e.1 % 2 ^ 33, e.2)) ++ cs.filter fun e => e.1 == 8
/-- Picojoules that an interval's counts charge to the entries `sel` selects: count times weight (R378, R380). Class 13 is the model's own, the filler
cycles of an array that ran no format, counted in picojoules (log entry 42). -/
def chargedTo (cs : List (Nat × Nat × Nat)) (sel : Nat × Nat × Nat → Bool) : Nat :=
  ((cs.filter sel).map fun e => if e.1 = 13 then e.2.2 else e.2.2 * Config.weight e.1).sum
/-- Picojoules of all tasks' bound-rope cycles that no interval has charged yet. -/
def ropesDue (s : State) : Nat := (s.tasks.map fun e => (e.2.ropeCyc - e.2.ropeCharged) * Config.weight 12).sum
/-- A rope is bound for a task with a deadline. -/
def deadlineRuns (s : State) : Prop := ∃ e ∈ s.leaders, ∃ b, e.2.bind = some b ∧ (s.task b.task).bestEffort = false
/-- Only array `i` differs. -/
def OnlyArray (i : Nat) (s t : State) : Prop := t = { s with arrays := t.arrays } ∧ ∀ j, j ≠ i → t.array j = s.array j
/-- Mailbox slot `i` is answered (Table 19.3): DONE, a code, a reason and a value; an EVENT goes out when its EVEN bit is 1. -/
def Answered (i code reason value : Nat) (s t : State) : Prop :=
  let m := t.mail i
  m.busy = false ∧ m.req = (s.mail i).req ∧ m.cmd = (s.mail i).cmd ∧ m.rsp.getLsbD 63 = true ∧ m.rsp.getLsbD 62 = (s.mail i).rsp.getLsbD 62 ∧
  m.rsp.toNat / 2 ^ 48 % 2 ^ 14 = code ∧ m.rsp.toNat / 2 ^ 40 % 2 ^ 8 = reason ∧ m.rsp.toNat % 2 ^ 32 = value ∧
  t.host.out = s.host.out ++ (if s.host.even.getLsbD i then [{ opc := 0x90, tag := 0, stat := 0, data := [], slot := i }] else []) ∧
  ∀ k, k ≠ i → t.mail k = s.mail k
/-- The hub serves slot `i` next: its request has OP `op` and arguments, and no other waits that arrived before it. -/
def Asked (s : State) (i op : Nat) : Prop :=
  (s.mail i).busy = true ∧ (s.mail i).order ≠ 0 ∧ (s.mail i).cmd.toNat / 2 ^ 60 = op ∧
  ∀ e ∈ s.host.slots, e.2.busy = true → e.2.order ≠ 0 → (s.mail i).order ≤ e.2.order
/-- A host request's completion goes out with this status and data, and its tag stays outstanding until it is received. -/
def Completed (opc tag stat : Nat) (data : List (BitVec 8)) (s t : State) : Prop :=
  t.host.out = s.host.out ++ [{ opc := opc, tag := tag, stat := stat, data := data, slot := 0 }] ∧ t.host.tags = s.host.tags ++ [tag]
/-- The header of a request that the endpoint takes (Table 19.7): the link is trained, the tag is free, no reserved field is set. -/
def Arrives (s : State) (h0 : Word) (opc : Nat) : Prop :=
  s.hub.link = true ∧ h0.toNat / 2 ^ 56 = opc ∧ h0.toNat / 2 ^ 32 % 2 ^ 10 ∉ s.host.tags
def wellMade (h0 : Word) : Prop := h0.toNat / 2 ^ 48 % 2 ^ 8 = 0 ∧ h0.toNat % 2 ^ 32 = 0
def tagOf (h0 : Word) : Nat := h0.toNat / 2 ^ 32 % 2 ^ 10
def lengthOf (h0 : Word) : Nat := h0.toNat / 2 ^ 42 % 2 ^ 6 + 1
/-- What a host access leaves beside the host port and what it stores: lines of the L2, event counts, fills, records of malformed region entries. -/
def HostAside (s t : State) : Prop :=
  t = { s with host := t.host, ctxs := t.ctxs, ring := t.ring, rows := t.rows, ecc := t.ecc, counts := t.counts, l2 := t.l2
               cacheOld := t.cacheOld, reqs := t.reqs, reqNum := t.reqNum, pend := t.pend } ∧
  (∀ x, t.ctx x = { s.ctx x with badRgn := (t.ctx x).badRgn }) ∧ OnlyFills s t
/-- The address lies outside the register page. -/
def Outside (s : State) (h : Nat) : Prop := h < s.host.ebase ∨ s.host.ebase + 65536 ≤ h
/-- A bind record whose START is less than 10 µs away, or past (R370). -/
def nearStart (s : State) (r : List Word) : Prop := (r.getD 0 0).getLsbD 63 = true ∧ (r.getD 2 0).toNat < s.time + 10000
/-- An operator's setting: whether `v` lies in its range, and the reading of the state that it sets (R40). -/
def settingOp (which v : Nat) : Option (Bool × (State → Nat)) :=
  match which with
  | 0 => some (decide (1600 ≤ v ∧ v ≤ 4800), fun s => s.hub.cap)
  | 1 => some (decide (100 ≤ v ∧ v ≤ 1600), fun s => s.hub.slew)
  | 2 => some (decide (1 ≤ v ∧ v ≤ 100), fun s => s.hub.interval)
  | 3 => some (decide (v ≤ 12), fun s => s.hub.hstep)
  | 4 => some (decide (100 ≤ v ∧ v ≤ 1200), fun s => s.hub.wrow)
  | 5 => some (decide (4 ≤ v ∧ v ≤ 32), fun s => s.hub.pmax)
  | 6 => some (decide (4 ≤ v ∧ v ≤ 32 ∧ v % 4 = 0), fun s => s.hub.bootStaging)
  | 7 => some (decide (64 ≤ v ∧ v ≤ 4096), fun s => s.hub.bootRing)
  | 8 => some (decide (v % 65536 = 0 ∧ v < 2 ^ 52), fun s => s.hub.bootEbase)
  | 9 => some (decide (v ≤ 2 ^ 48), fun s => s.weights.purseSet)
  | _ => none

/-! ### Steps, encodings and invariants -/

/-- The words at a leader's PC; the last word of IMEM stands alone. -/
def wordsAt (l : Leader) : List IWord := if l.pc.toNat = 0x3FFFC then [l.fetchWord 0] else [l.fetchWord 0, l.fetchWord 1]
/-- Rope `n` is at an instruction boundary where nothing but its next instruction is due: a thread runs, and no kill, trap, rewind, pre-emption or
strip commit comes first (R392). -/
def AtBoundary (s : State) (n : Nat) : Prop := (s.leader n).bind.isSome = true ∧ (s.leader n).run = true ∧ s.leaderBoundary n = none
/-- Bank `g` runs a block and may issue its next word: a live thread is bound to its rope, and no trap, rewind, yield, collective or register owed to
it comes first (R23, R44, R115, R116, R394). -/
def BankAtBoundary (s : State) (g : Nat) (r : BlockRun) : Prop :=
  s.boundLive (ropeOf g) = true ∧ (s.leader (ropeOf g)).rewind = none ∧ (s.bank g).trap = none ∧ (s.bank g).run = some r ∧ r.coll = none ∧
  (s.bank g).owed = [] ∧ s.bankHeld g = false ∧ (s.bank g).fetchUe = false ∧ ((s.bank g).multi = none → (s.bank g).trapQ = [])
/-- Every table of the machine and both shared byte memories are in canonical form: keys rising, nothing listed that an unlisted entry reads as. -/
def Canonical (s : State) : Prop :=
  Mem.wf s.rows = true ∧ Mem.wf s.weights.bytes = true ∧ twf Leader.reset s.leaders = true ∧ twf Bank.reset s.banks = true ∧
  twf Array_.reset s.arrays = true ∧ twf Tier.reset s.tiers = true ∧ twf Ctx.reset s.ctxs = true ∧ twf Task.reset s.tasks = true

end Sys2Proof.Claims

open Sys2Proof Sys2Proof.Machine Sys2Proof.Claims

/-- Tables 4.3 to 4.6: each integer, address and bitfield instruction writes the stated result to xd, advances, and changes nothing else. -/
def Obligations.IntegerResults : Prop :=
  ∀ (i : Instr) (s : State) (n d len : Nat) (srcs : List Nat) (P : Word → Prop),
    i.wf = true → leaderOp (s.leader n).xr i = some (d, srcs, len, P) → Ready s n srcs → Ends i s (Writes n d len P s)

/-- R95: a branch continues at its target when its comparison holds and at the next instruction otherwise; no register changes. -/
def Sys2Proof.Claims.BranchOutcome : Prop :=
  ∀ (i : Instr) (s : State) (n a b len : Nat) (off : Int) (C : Word → Word → Prop),
    branchOp i = some (a, b, off, len, C) → Ready s n [a, b] →
    (C (s.xr n a) (s.xr n b) → Ends i s fun t =>
      Jumps n (wordsFrom (s.leader n).pc off) s t ∧ ∀ r, t.xr n r = s.xr n r) ∧
    (¬ C (s.xr n a) (s.xr n b) → Ends i s fun t =>
      Sequenced len (s.leader n) (t.leader n) ∧ LeaderKept (s.leader n) (t.leader n) ∧ OnlyLeader n s t ∧ BytesKept s t ∧
      ∀ r, t.xr n r = s.xr n r)

/-- R96, R97: J, JAL and JALR continue at the target, JAL and JALR with the address after them in their link register. -/
def Sys2Proof.Claims.JumpAndLink : Prop :=
  ∀ (i : Instr) (s : State) (n : Nat) (dest : Word) (link : Option (Nat × Nat)) (srcs : List Nat),
    jumpOp (s.leader n) i = some (dest, link, srcs) → Ready s n srcs → dest.toNat % 4 = 0 →
    Ends i s fun t => Jumps n dest s t ∧
      (match link with
       | none => ∀ r, t.xr n r = s.xr n r
       | some (d, len) => t.xr n d = (if d = 0 then 0 else (s.leader n).pc + BitVec.ofNat 64 len) ∧ OthersKept d (s.leader n) (t.leader n))

/-- Branches and jumps: where they continue, what they link, and that they touch no loop stack, gate store or mode: `BranchOutcome`, `JumpAndLink` together. -/
def Obligations.Transfers : Prop := BranchOutcome ∧ JumpAndLink

/-- R99 to R101, R103: LOOP pushes its body or skips it on a zero count; LEAVE pops the innermost entry and goes on after its end. -/
def Sys2Proof.Claims.LoopAndLeave : Prop :=
  (∀ (a : BitVec 5) (o : BitVec 16) (s : State) (n : Nat), Instr.wf (.loop a o) = true → Ready s n [a.toNat] →
    (s.leader n).pc.toNat + 4 * o.toNat < 0x40000 → ¬ endsNoLoop (tget 0 (s.leader n).imem (((s.leader n).pc.toNat + 4 * o.toNat) / 4)) →
    (s.leader n).loops.length < 6 →
    Ends (.loop a o) s fun t =>
      (s.xr n a.toNat = 0 → t.leader n = { s.leader n with pc := BitVec.ofNat 64 ((s.leader n).pc.toNat + 4 * o.toNat + 4), hop := false, stalled := false, why := 0, issued := true
                                                           csr := (t.leader n).csr, issue := (t.leader n).issue }) ∧
      (s.xr n a.toNat ≠ 0 → t.leader n = { s.leader n with
        pc := (s.leader n).pc + 4, hop := false, stalled := false, why := 0, issued := true, csr := (t.leader n).csr, issue := (t.leader n).issue
        loops := { start := (s.leader n).pc.toNat + 4, last := (s.leader n).pc.toNat + 4 * o.toNat, count := (s.xr n a.toNat).toNat }
                 :: (s.leader n).loops }) ∧
      LeaderKept (s.leader n) (t.leader n) ∧ OnlyLeader n s t ∧ BytesKept s t) ∧
  (∀ (s : State) (n : Nat) (e : LoopEntry) (r : List LoopEntry), s.cur = .leader n → (s.leader n).loops = e :: r →
    Ends .leave s fun t => (t.leader n).loops = r ∧ (t.leader n).pc = BitVec.ofNat 64 (e.last + 4) ∧
      (∀ k, t.xr n k = s.xr n k) ∧ LeaderKept (s.leader n) (t.leader n) ∧ OnlyLeader n s t ∧ BytesKept s t)

/-- R109: CALLG through a valid gate pushes the return and enters at the gate's PC, level and mask mode; RETG pops it. -/
def Sys2Proof.Claims.GateCallAndReturn : Prop :=
  (∀ (k : BitVec 8) (s : State) (n : Nat), s.cur = .leader n →
    let g := (tget 0 (s.leader n).gateStore k.toNat).toNat
    g / 2 ^ 63 = 1 → (s.leader n).level.toNat ≤ g / 2 ^ 19 % 4 → (s.leader n).gates.length < 8 → g % 4 = 0 →
    Ends (.callg k) s fun t => ∃ l', t.leader n = l' ∧
      l'.pc.toNat = g % 2 ^ 19 ∧ l'.level.toNat = g / 2 ^ 19 % 4 ∧ (l'.mm = true ↔ g / 2 ^ 21 % 2 = 1) ∧
      l'.gates = { pc := (s.leader n).pc + 4, level := (s.leader n).level, mm := (s.leader n).mm } :: (s.leader n).gates ∧
      (∀ r, t.xr n r = s.xr n r) ∧
      l' = { s.leader n with pc := l'.pc, level := l'.level, mm := l'.mm, gates := l'.gates, hop := false, stalled := false, why := 0, issued := true,
                             issue := (s.leader n).issue + 1,
                             csr := { (s.leader n).csr with instret := (s.leader n).csr.instret + 1 } } ∧
      OnlyLeader n s t ∧ BytesKept s t) ∧
  (∀ (s : State) (n : Nat) (e : GateRet) (r : List GateRet), s.cur = .leader n → (s.leader n).gates = e :: r →
    Ends .retg s fun t =>
      t.leader n = { s.leader n with pc := e.pc, level := e.level, mm := e.mm, gates := r, hop := false, stalled := false, why := 0, issued := true, issue := (s.leader n).issue + 1,
                                     csr := { (s.leader n).csr with instret := (s.leader n).csr.instret + 1 } } ∧
      OnlyLeader n s t ∧ BytesKept s t)

/-- LOOP, LEAVE, CALLG and RETG do what their rules say: `LoopAndLeave`, `GateCallAndReturn` together. -/
def Obligations.LoopsAndGates : Prop := LoopAndLeave ∧ GateCallAndReturn

/-- R87, R97: JALR to an address that is no multiple of 4 traps MISALIGNED at the JALR, with the target in TVAL and no link written. -/
def Sys2Proof.Claims.MisalignedJump : Prop :=
  ∀ (i : Instr) (s : State) (n d : Nat) (dest : Word) (len : Nat) (srcs : List Nat),
    jumpOp (s.leader n) i = some (dest, some (d, len), srcs) → (∀ o, i ≠ .jal o) → (∀ o, i ≠ .jalExt o) →
    Ready s n srcs → Free s n → dest.toNat % 4 ≠ 0 → Ends i s (Trapped n 0x03 dest 0 s)

/-- R100, R103: a LOOP with a body outside IMEM, an unfit last word or a full loop stack, and a LEAVE with an empty one, trap
ILLEGAL_INSTR and change nothing but what delivery does; these checks come before a poisoned xa (R390). -/
def Sys2Proof.Claims.LoopRefused : Prop :=
  (∀ (a : BitVec 5) (o : BitVec 16) (s : State) (n : Nat), Instr.wf (.loop a o) = true → NoneAwaited s n [a.toNat] → Free s n →
    (0x40000 ≤ (s.leader n).pc.toNat + 4 * o.toNat ∨ endsNoLoop (tget 0 (s.leader n).imem (((s.leader n).pc.toNat + 4 * o.toNat) / 4)) ∨
      6 ≤ (s.leader n).loops.length) →
    Ends (.loop a o) s (Trapped n 0x01 (wordOf (.loop a o)) 0 s)) ∧
  (∀ (s : State) (n : Nat), s.cur = .leader n → Free s n → (s.leader n).loops = [] → Ends .leave s (Trapped n 0x01 (wordOf .leave) 0 s))

/-- R109: the checks of CALLG in their order, and RETG on an empty store: the first that fails decides the trap. -/
def Sys2Proof.Claims.GateRefused : Prop :=
  (∀ (k : BitVec 8) (s : State) (n : Nat), s.cur = .leader n → Free s n →
    let g := (tget 0 (s.leader n).gateStore k.toNat).toNat
    (g / 2 ^ 63 = 0 → Ends (.callg k) s (Trapped n 0x02 (k.setWidth 64) 0 s)) ∧
    (g / 2 ^ 63 = 1 → g / 2 ^ 19 % 4 < (s.leader n).level.toNat → Ends (.callg k) s (Trapped n 0x02 (k.setWidth 64) 0 s)) ∧
    (g / 2 ^ 63 = 1 → (s.leader n).level.toNat ≤ g / 2 ^ 19 % 4 → 8 ≤ (s.leader n).gates.length →
      Ends (.callg k) s (Trapped n 0x0B (k.setWidth 64) 0 s)) ∧
    (g / 2 ^ 63 = 1 → (s.leader n).level.toNat ≤ g / 2 ^ 19 % 4 → (s.leader n).gates.length < 8 → g % 4 ≠ 0 →
      Ends (.callg k) s (Trapped n 0x03 (BitVec.ofNat 64 (g % 2 ^ 19)) 0 s))) ∧
  (∀ (s : State) (n : Nat), s.cur = .leader n → Free s n → (s.leader n).gates = [] → Ends .retg s (Trapped n 0x0C 0 0 s))

/-- R225, R230: below its read or write level a CSR instruction traps PRIV with the CSR's number; a reserved value traps ILLEGAL_INSTR
with the value; neither writes the CSR or xd. The level comes before a poisoned xa (R390). -/
def Sys2Proof.Claims.CsrRefused : Prop :=
  ∀ (i : Instr) (s : State) (n c d a rl wl mask : Nat) (writes : Prop) (v : Word),
    i.wf = true → csrOp (s.leader n).xr (s.csrRead n) i = some (c, d, a, writes, v) → csrRow c = some (rl, wl, mask) → NoneAwaited s n [a] →
    Free s n →
    ((s.leader n).level.toNat < rl ∨ (writes ∧ (s.leader n).level.toNat < wl) →
      Ends i s (Trapped n 0x02 (BitVec.ofNat 64 c) 0 s)) ∧
    (Ready s n [a] → rl ≤ (s.leader n).level.toNat → writes → wl ≤ (s.leader n).level.toNat → csrRefused c v → Ends i s (Trapped n 0x01 v 0 s))

/-- Jumps, loops, gates and CSR accesses that break their rules trap with the stated cause and value: `MisalignedJump`, `LoopRefused`, `GateRefused`, `CsrRefused` together. -/
def Obligations.LeaderRefusals : Prop := MisalignedJump ∧ LoopRefused ∧ GateRefused ∧ CsrRefused

/-- R225, R229, R230: a CSR instruction allowed at its level gives the old value to xd and writes field by field; every other CSR but
INSTRET reads as before. INSTRET counts after a write to it (the model's reading, log entry 9). -/
def Obligations.CsrAccess : Prop :=
  ∀ (i : Instr) (s : State) (n c d a rl wl mask : Nat) (writes : Prop) (v : Word),
    i.wf = true → csrOp (s.leader n).xr (s.csrRead n) i = some (c, d, a, writes, v) → csrRow c = some (rl, wl, mask) → Ready s n [a] →
    rl ≤ (s.leader n).level.toNat → (writes → wl ≤ (s.leader n).level.toNat ∧ ¬ csrRefused c v) →
    Ends i s fun t => CsrStep n d (s.csrRead n c) s t ∧
      (∀ c', c' ≠ c → c' ≠ 0x052 → t.csrRead n c' = s.csrRead n c') ∧
      (¬ writes ∨ c ≠ 0x052 → (t.leader n).csr.instret = (s.leader n).csr.instret + 1) ∧
      (¬ writes → c ≠ 0x052 → t.csrRead n c = s.csrRead n c) ∧
      (writes → c ≠ 0x025 → t.csrRead n c = csrMerged c mask (s.csrRead n c) v) ∧
      (writes → c = 0x025 → t.csrRead n c =
        if (∃ d a, i = .csrc d a 0x025) ∨ (s.xr n a).toNat % 2 = 0 then s.csrRead n c else 0)

/-- R233, R235: SYSCALL and BKPT take their trap with the code in TVAL and their own address in TPC. -/
def Sys2Proof.Claims.SystemCalls : Prop :=
  ∀ (c : BitVec 12) (s : State) (n : Nat), s.cur = .leader n → Free s n →
    Ends (.syscall c) s (Trapped n 0x0E (c.setWidth 64) 0 s) ∧ Ends (.bkpt c) s (Trapped n 0x0D (c.setWidth 64) 0 s)

/-- R235, R364: a trap that arises while TSTATE.ACT is 1 is not delivered; the thread stops and its LIVE incarnation begins to die. -/
def Sys2Proof.Claims.NestedTrap : Prop :=
  ∀ (c : BitVec 12) (s : State) (n : Nat), s.cur = .leader n → (s.leader n).csr.tstate.getLsbD 8 = true →
    (∀ i ∈ [Instr.syscall c, Instr.bkpt c],
      Ends i s fun t => (t.leader n).run = false ∧ (t.leader n).csr = (s.leader n).csr ∧ (t.leader n).pc = (s.leader n).pc ∧
        ((s.leader n).ctxOf ≠ 0 → (s.ctx (s.leader n).ctxOf).st = 1 → (s.ctx (s.leader n).ctxOf).inn = (s.leader n).innOf →
          (t.ctx (s.leader n).ctxOf).st = 2 ∧ (t.leader n).killed = true))

/-- R236: TRET at K with a trap being handled restores the loop stack, level and mask mode, clears ACT and continues at TPC; a bank trap
is resolved by its disposition as well (R395). -/
def Sys2Proof.Claims.TrapReturn : Prop :=
  ∀ (s : State) (n : Nat), s.cur = .leader n → (s.leader n).level = 2 → (s.leader n).csr.tstate.getLsbD 8 = true →
    (s.leader n).csr.tcause.toNat % 256 ≠ 0x14 →
    Ends .tret s fun t =>
      let l := s.leader n
      let l' := t.leader n
      l'.loops = l.aside ∧ l'.aside = [] ∧ l'.level.toNat = l.csr.tstate.toNat % 4 ∧ (l'.mm = true ↔ l.csr.tstate.toNat / 4 % 2 = 1) ∧
      l'.pc = l.csr.tpc ∧ l'.csr.tstate.getLsbD 8 = false ∧
      (∀ r, t.xr n r = s.xr n r) ∧
      l' = { l with loops := l'.loops, aside := l'.aside, level := l'.level, mm := l'.mm, pc := l'.pc, hop := l'.hop, stalled := false, why := 0, issued := true, issue := l.issue + 1,
                    csr := { l.csr with tstate := l'.csr.tstate, instret := l.csr.instret + 1 } } ∧
      OnlyLeader n s t ∧ BytesKept s t

/-- R55, R232, R323: below K every K encoding, and at U CONSIGN, traps PRIV with its word in TVAL, whatever its operands; at K, TRET with no trap being handled is
an illegal instruction. -/
def Sys2Proof.Claims.PrivilegedForms : Prop :=
  (∀ (d a : BitVec 5) (c : BitVec 8) (w : BitVec 1) (s : State) (n : Nat), s.cur = .leader n → (s.leader n).level.toNat < 2 → Free s n →
    ∀ i ∈ [Instr.tret, .reclaim d a, .kill d a, .rgninv d a, .diagst d a c, .diagld d a w, .savectx d a, .loadctx a],
      Ends i s (Trapped n 0x02 (wordOf i) 0 s)) ∧
  (∀ (s : State) (n : Nat), s.cur = .leader n → (s.leader n).level = 2 → Free s n → Ends .tret s (Trapped n 0x01 (wordOf .tret) 0 s)) ∧
  (∀ (t : BitVec 3) (a : BitVec 5) (s : State) (n : Nat), s.cur = .leader n → (s.leader n).level = 0 → Free s n →
    Ends (.consign t a) s (Trapped n 0x02 (wordOf (.consign t a)) 0 s))

/-- System calls trap, a trap during a trap kills, TRET returns, privileged forms trap below their level: `SystemCalls`, `NestedTrap`, `TrapReturn`, `PrivilegedForms` together. -/
def Obligations.TrapsAndReturns : Prop := SystemCalls ∧ NestedTrap ∧ TrapReturn ∧ PrivilegedForms

/-- R282 to R284: an LD of scratch writes the extended bytes to xd; an LD of row or weight space sends one request whose value, for data
that is not SYNC, is what its agent reads at issue, after its lookup; xd then waits. No byte of memory changes. -/
def Sys2Proof.Claims.LoadIssues : Prop :=
  ∀ (i : Instr) (s : State) (n d a k va len : Nat) (signed : Prop) (tgt : Target),
    i.wf = true → loadOp (s.leader n).xr i = some (d, a, k, signed, va, len) → Ready s n [a] → s.heldByBanks n = false →
    s.translate n (.leader n) va k (loadKind k) = .ok tgt →
    (∀ off, tgt = .scratch off → Ends i s (Writes n d len (extended signed k (readValue s n tgt k)) s)) ∧
    (Near tgt → s.outstanding n ReqOp.isLoad < 15 →
      Ends i s fun t => let u := afterLookup s n va
        Awaits n d len u.reqNum s t ∧ t.reqNum = u.reqNum + 1 ∧ Aside n s t ∧ t.pend = s.pend ∧ OnlyFills s u ∧
        ∃ r, t.reqs = u.reqs ++ [r] ∧ r.id = u.reqNum ∧ r.leader = n ∧ r.d = d ∧ r.va = va ∧ r.len = k ∧ r.tgt = tgt ∧
          (r.done = false ↔ IsSync tgt) ∧ (r.done = true → r.val.toNat = readValue u n tgt k))

/-- R282, R285, R266: an ST to scratch writes its bytes there, or leaves them in the store buffer of an open strip while it has room, so that the leader
reads them in either case; an ST to row space that is not SYNC leaves one unpublished write, so that
every published byte stays as it is, the storing leader reads the new bytes and every other byte as before, but where another agent's stream is
open; an ST to SYNC data sends one
request. The address is the one that translation gives. -/
def Sys2Proof.Claims.StoreIssues : Prop :=
  ∀ (i : Instr) (s : State) (n d a k va len : Nat) (tgt : Target),
    i.wf = true → storeOp (s.leader n).xr i = some (d, a, k, va, len) → Ready s n [a, d] → s.heldByBanks n = false →
    s.translate n (.leader n) va k (storeKind k) = .ok tgt →
    (∀ off, tgt = .scratch off → off + k ≤ 0x7FB00 →
      Ends i s fun t => LeaderKept (s.leader n) { t.leader n with scratch := (s.leader n).scratch, strip := (s.leader n).strip } ∧
        Sequenced len (s.leader n) (t.leader n) ∧ (t.leader n).x = (s.leader n).x ∧ OnlyLeader n s t ∧
        (∀ j, j < k → t.ownScratch n (off + j) = (s.xr n d).extractLsb' (8 * j) 8) ∧
        (∀ b, b < off ∨ off + k ≤ b → t.ownScratch n b = s.ownScratch n b) ∧
        (∀ b, b < off ∨ off + k ≤ b → memByte (t.leader n).scratch b = memByte (s.leader n).scratch b) ∧
        ((s.leader n).strip = none → (t.leader n).strip = none ∧
          ∀ j, j < k → memByte (t.leader n).scratch (off + j) = (s.xr n d).extractLsb' (8 * j) 8) ∧
        (∀ st, (s.leader n).strip = some st → ∃ st', (t.leader n).strip = some st' ∧
          (st.bytes + k ≤ 16384 → (t.leader n).scratch = (s.leader n).scratch ∧ st'.bytes = st.bytes + k ∧ st' = { st with bytes := st'.bytes, scr := st'.scr }) ∧
          (16384 < st.bytes + k → st'.spoiled = true ∧ st' = { st with spoiled := true, scr := st'.scr } ∧
            ∀ j, j < k → memByte (t.leader n).scratch (off + j) = (s.xr n d).extractLsb' (8 * j) 8)) ∧
        ∀ b, memByte t.rows b = memByte s.rows b) ∧
    (∀ pa cls scope home, tgt = .row pa cls scope home → cls ≠ 3 →
      Ends i s fun t => Awaits n 0 len 0 s t ∧ Aside n s t ∧ OnlyFills s t ∧
        (∀ j, j < k → t.viewByte (leaderAgent n) (s.leader n).taskOf cls (pa + j) = (s.xr n d).extractLsb' (8 * j) 8) ∧
        (∀ b, b < pa ∨ pa + k ≤ b → Calm s b → s.streamedOpen (leaderAgent n) (s.leader n).taskOf b = false → t.viewByte (leaderAgent n) (s.leader n).taskOf cls b = s.viewByte (leaderAgent n) (s.leader n).taskOf cls b) ∧
        ∃ p, t.pend = s.pend ++ [p] ∧ p.pa = pa ∧ p.data = bytesOf (s.xr n d) k ∧ p.agent = leaderAgent n ∧ p.cls = cls ∧ p.scope = scope ∧ p.home = home) ∧
    (∀ pa scope home, tgt = .row pa 3 scope home → s.outstanding n ReqOp.isStore < 15 →
      Ends i s fun t => let u := afterLookup s n va
        Awaits n 0 len 0 s t ∧ Aside n s t ∧ t.pend = s.pend ∧ OnlyFills s u ∧
        ∃ r, t.reqs = u.reqs ++ [r] ∧ r.id = u.reqNum ∧ r.done = false ∧ r.len = k ∧ r.tgt = tgt ∧ r.op = .store (s.xr n d))

/-- LD and ST: scratch at once, row space through one request or one unpublished write, at the translated address: `LoadIssues`, `StoreIssues` together. -/
def Obligations.LoadsAndStores : Prop := LoadIssues ∧ StoreIssues

/-- R286, R287: an atomic on scratch reads and writes its word in one step; on row space it goes to its home slice as one request, but an
STA of PHASED data is an ordinary store and an LDA of it an ordinary load. -/
def Obligations.AtomicIssues : Prop :=
  ∀ (i : Instr) (s : State) (n d va k : Nat) (srcs : List Nat) (ak : AccKind) (op : ReqOp) (tgt : Target),
    i.wf = true → atomOp (s.leader n).xr i = some (d, srcs, va, k, ak, op) → Ready s n srcs → s.heldByBanks n = false →
    s.translate n (.leader n) va k (atomKind ak k) = .ok tgt → noAtomic s n →
    (∀ off, tgt = .scratch off → off + k ≤ 0x7FB00 ∨ ak.wr = false →
      Ends i s fun t => ∃ new, requestWrites op k (readValue s n tgt k) new ∧
        (∀ j, j < k → ∀ w, new = some w → memByte (t.leader n).scratch (off + j) = BitVec.ofNat 8 (w / 256 ^ j)) ∧
        (∀ b, b < off ∨ off + k ≤ b ∨ new = none → memByte (t.leader n).scratch b = memByte (s.leader n).scratch b) ∧
        (∀ b, memByte t.rows b = memByte s.rows b) ∧
        (silent op → ∀ r, t.xr n r = s.xr n r) ∧ (∀ r, r ≠ d ∨ r = 0 → t.xr n r = s.xr n r) ∧
        (¬ silent op → ∃ v, extended (∀ w, op ≠ .amo 9 w) k (readValue s n tgt k) v ∧ t.xr n d = if d = 0 then 0 else v) ∧
        Sequenced 4 (s.leader n) (t.leader n) ∧ OnlyLeader n s t ∧
        LeaderKept (s.leader n) { t.leader n with scratch := (s.leader n).scratch, strip := (s.leader n).strip } ∧
        ((t.leader n).strip.map fun st => { st with spoiled := false, scr := [] }) = ((s.leader n).strip.map fun st => { st with spoiled := false, scr := [] }) ∧
        (op ≠ .lda → ∀ st ∈ (t.leader n).strip, st.spoiled = true) ∧ (op = .lda → (t.leader n).strip = (s.leader n).strip)) ∧
    (∀ pa cls scope home, tgt = .row pa cls scope home →
      Ends i s fun t => Aside n s t ∧ (op ≠ .lda → ∀ st ∈ (t.leader n).strip, st.spoiled = true) ∧
        ((∃ v, op = .sta v ∧ cls = 1 ∧ Awaits n 0 4 0 s t ∧ OnlyFills s t ∧
            ∃ p, t.pend = s.pend ++ [p] ∧ p.pa = pa ∧ p.data = bytesOf v k ∧ p.agent = leaderAgent n) ∨
         (¬ (cls = 1 ∧ ∃ v, op = .sta v) ∧ t.pend = s.pend ∧ OnlyFills s (afterLookup s n va) ∧
            Awaits n (if silent op then 0 else d) 4 (afterLookup s n va).reqNum s t ∧
            ∃ r, t.reqs = (afterLookup s n va).reqs ++ [r] ∧ r.id = (afterLookup s n va).reqNum ∧ r.leader = n ∧ r.d = d ∧ r.op = op ∧ r.len = k ∧
              r.tgt = tgt ∧ (r.done = true ↔ cls = 1 ∧ op = .lda) ∧ (r.done = true → r.val.toNat = readValue (afterLookup s n va) n tgt k))))

/-- R272, R273: at its home slice a live request that is the oldest for its word is performed in one step over the published word, or
over the task's working copy of a PHASED one; bytes outside its word stay as they are, and its answer is the old value. -/
def Sys2Proof.Claims.SlicePerforms : Prop :=
  ∀ (s : State) (r : Req) (pa cls scope home : Nat), s.req? r.id = some r → r.tgt = .row pa cls scope home → s.live r.ctx r.inn = true →
    r.miss = false → r.done = false → s.olderSameWord r = false → r.len ≤ 8 →
    Ends (.slicePerform r.id) s fun t =>
      t = { s with rows := t.rows, ecc := t.ecc, cacheOld := t.cacheOld, amos := t.amos, reqs := t.reqs } ∧
      ∃ new, requestWrites r.op r.len (leNat ((List.range r.len).map fun j => if cls = 1 then s.amoByte r.task (pa + j) else s.rowByte (pa + j))) new ∧
        (∀ b, (b < pa ∨ pa + r.len ≤ b) ∨ cls = 1 ∨ new = none → t.rowByte b = s.rowByte b) ∧
        (∀ j, j < r.len → ∀ w, new = some w →
          (cls = 1 → t.amoByte r.task (pa + j) = BitVec.ofNat 8 (w / 256 ^ j)) ∧ (cls ≠ 1 → memByte t.rows (pa + j) = BitVec.ofNat 8 (w / 256 ^ j))) ∧
        (silent r.op → ∀ q, q ∈ t.reqs ↔ q ∈ s.reqs ∧ q.id ≠ r.id) ∧
        (¬ silent r.op → t.reqs.length = s.reqs.length ∧ ∃ q ∈ t.reqs, q.id = r.id ∧ q.done = true ∧
          q.val = BitVec.ofNat 64 (leNat ((List.range r.len).map fun j => if cls = 1 then s.amoByte r.task (pa + j) else s.rowByte (pa + j))))

/-- R283, R284, R358: the answer of a live thread's performed access reaches the register that still waits for it, extended, with a poison mark exactly when
the data was uncorrectable; a register that no longer waits keeps its value; no memory byte changes. -/
def Sys2Proof.Claims.LoadReturns : Prop :=
  ∀ (s : State) (r : Req) (v : Word) (cause : Nat) (pa cls scope home : Nat), s.req? r.id = some r → r.tgt = .row pa cls scope home → r.done = true →
    r.miss = false → r.op ≠ .fill → r.op ≠ .diag → r.len ≤ 8 → s.live r.ctx r.inn = true →
    Ends (.loadReturn r.id v cause) s fun t => BytesKept s t ∧ (∀ q, q ∈ t.reqs ↔ q ∈ s.reqs ∧ q.id ≠ r.id) ∧
      (∀ m, m ≠ r.leader → t.leader m = s.leader m) ∧ t = { s with leaders := t.leaders, reqs := t.reqs } ∧
      (∀ x, x ≠ r.d → t.xr r.leader x = s.xr r.leader x) ∧
      (r.d ≠ 0 → tget 0 (s.leader r.leader).xPend r.d = r.id →
        (∀ signed, r.op = .load signed → extended (signed = true) r.len r.val.toNat (t.xr r.leader r.d)) ∧
        (∀ e w, r.op = .lda ∨ r.op = .cas e w → extended True r.len r.val.toNat (t.xr r.leader r.d)) ∧
        (∀ o w, r.op = .amo o w → extended (o ≠ 9) r.len r.val.toNat (t.xr r.leader r.d)) ∧
        tget 0 (t.leader r.leader).xPend r.d = 0 ∧
        tget none (t.leader r.leader).xPoison r.d = if r.poison then some r.va else none) ∧
      (r.d = 0 ∨ tget 0 (s.leader r.leader).xPend r.d ≠ r.id → t.leader r.leader = s.leader r.leader)

/-- A request is performed at its slice in one step, and its answer reaches the register that waits: `SlicePerforms`, `LoadReturns` together. -/
def Obligations.RequestsPerformed : Prop := SlicePerforms ∧ LoadReturns

/-- R252, R282, R286: an access whose probe fails traps with the probe's cause and the virtual address, before anything but the lookup's own
state changes; its alignment is checked first, and a misaligned access makes no lookup. -/
def Sys2Proof.Claims.AccessTraps : Prop :=
  (∀ (i : Instr) (s : State) (n d a k va len : Nat) (signed : Prop) (c : Cause), i.wf = true →
    (loadOp (s.leader n).xr i = some (d, a, k, signed, va, len) ∧ Ready s n [a] ∧ s.translate n (.leader n) va k (loadKind k) = .error c ∨
     storeOp (s.leader n).xr i = some (d, a, k, va, len) ∧ Ready s n [a, d] ∧ s.translate n (.leader n) va k (storeKind k) = .error c) →
    s.heldByBanks n = false → Free s n → Ends i s (Trapped n (BitVec.ofNat 64 c.code) (BitVec.ofNat 64 va) 0 (s.touch n va k))) ∧
  (∀ (i : Instr) (s : State) (n d va k : Nat) (srcs : List Nat) (ak : AccKind) (op : ReqOp) (c : Cause), i.wf = true →
    atomOp (s.leader n).xr i = some (d, srcs, va, k, ak, op) → Ready s n srcs → s.heldByBanks n = false → Free s n →
    s.translate n (.leader n) va k (atomKind ak k) = .error c →
    Ends i s (Trapped n (BitVec.ofNat 64 c.code) (BitVec.ofNat 64 va) 0 (s.touch n va k))) ∧
  (∀ (s : State) (n : Nat) (q : Seq) (va len : Nat) (k : AccKind),
    (va % k.align ≠ 0 → s.translate n q va len k = .error .misaligned ∧ s.touch n va k.align = s) ∧
    (va % k.align = 0 → 2 ^ 52 ≤ va → s.translate n q va len k = .error .regionMiss))

/-- R246, R251: what the walk of a context's region table finds is a well-formed entry of that table that holds the address. -/
def Sys2Proof.Claims.RegionWalkFindsItsRegion : Prop :=
  ∀ (s : State) (c va : Nat) (e : Region), s.walk c va = some e →
    e.ok = true ∧ e.vbase ≤ va ∧ va < e.vbase + e.len ∧ ∃ i, i < 4096 ∧ e = s.regionEntry (s.ctx c).rtb i

/-- R246, R250, R251, R252: a lookup makes the entry it finds the most recently used of the TLB's 64; where the TLB does not hold it, the walk reads the
table through the L2, and the valid entries that it met and found malformed are noted with their context, each recorded once; only a region that
leads back to this part is looked up a second time; the lookup changes nothing else. -/
def Sys2Proof.Claims.LookupsLeave : Prop :=
  ∀ (s : State) (n va : Nat),
    let t := s.tlbUse n va
    let twice := ∃ e rva cls, s.lookup n va = some e ∧ s.regionTarget e (va - e.vbase) = some (.remote Config.partNumber rva cls)
    Aside n s t ∧ OnlyFills s t ∧ t = { s with leaders := t.leaders, ctxs := t.ctxs, ring := t.ring, rows := t.rows, ecc := t.ecc, cacheOld := t.cacheOld,
                                               counts := t.counts, l2 := t.l2, reqs := t.reqs, reqNum := t.reqNum } ∧
    t.leader n = { s.leader n with tlb := (t.leader n).tlb } ∧
    (scratchBase ≤ va → t = s) ∧
    (va < scratchBase → ∀ e, s.lookup n va = some e →
      (t.leader n).tlb.head? = some e ∧ (t.leader n).tlb.length ≤ 64 ∧ ∀ x ∈ (t.leader n).tlb, x = e ∨ x ∈ (s.leader n).tlb) ∧
    (va < scratchBase → (s.leader n).tlbHit va = false → ∀ i, i ∈ (s.ctx (s.leader n).ctxOf).badRgn ∨ i ∈ s.walkBad (s.leader n).ctxOf va →
      i ∈ (t.ctx (s.leader n).ctxOf).badRgn) ∧
    (va < scratchBase → (s.leader n).tlbHit va = false → ¬ twice → ∀ i, i ∈ (t.ctx (s.leader n).ctxOf).badRgn →
      i ∈ (s.ctx (s.leader n).ctxOf).badRgn ∨ i ∈ s.walkBad (s.leader n).ctxOf va) ∧
    ((s.leader n).tlbHit va = true → ¬ twice → t = { s with leaders := t.leaders })

/-- An access whose probe fails traps; what a walk finds holds the address; a lookup moves only its TLB and records malformed entries: `AccessTraps`, `RegionWalkFindsItsRegion`, `LookupsLeave` together. -/
def Obligations.TrappedAccesses : Prop := AccessTraps ∧ RegionWalkFindsItsRegion ∧ LookupsLeave

/-- R288, R261: PFL never traps and changes no value; CFLUSH changes no value; CDISCARD drops what its leader stored to the line and has not
published, and touches no other byte. -/
def Obligations.CacheControl : Prop :=
  ∀ (s : State) (n : Nat) (a : BitVec 5) (h : BitVec 2) (o : BitVec 11) (o' : BitVec 37), Ready s n [a.toNat] →
    (∀ i len, (i = Instr.pfl a h o ∧ len = 4 ∨ i = Instr.pflExt a h o' ∧ len = 8) →
      Ends i s fun t => Awaits n 0 len 0 s t ∧ t.pend = s.pend ∧ OnlyFills s t ∧
        Aside n s { t with weights := { t.weights with frames := s.weights.frames } }) ∧
    (∀ i va len tgt, (i = Instr.cflush a o ∧ va = eaOf (s.xr n a.toNat) o.toInt 128 ∧ len = 4 ∨
        i = Instr.cflushExt a o' ∧ va = eaOf (s.xr n a.toNat) o'.toInt 128 ∧ len = 8) →
      s.translate n (.leader n) va 1 { rd := true, wr := false, align := 1 } = .ok tgt →
      Ends i s fun t => Awaits n 0 len 0 s t ∧ Aside n s t ∧ t.pend = s.pend ∧ OnlyFills s t) ∧
    (∀ i va len pa cls scope home, (i = Instr.cdiscard a o ∧ va = eaOf (s.xr n a.toNat) o.toInt 128 ∧ len = 4 ∨
        i = Instr.cdiscardExt a o' ∧ va = eaOf (s.xr n a.toNat) o'.toInt 128 ∧ len = 8) →
      s.translate n (.leader n) va 1 { rd := false, wr := true, discard := true, align := 1 } = .ok (.row pa cls scope home) →
      Ends i s fun t => Awaits n 0 len 0 s t ∧ Aside n s t ∧ OnlyFills s t ∧
        (∀ p ∈ t.pend, p.agent = leaderAgent n → p.strip = false → p.kind = .store → ∀ b, b / 128 = pa / 128 → p.at? b = none) ∧
        (∀ b, b / 128 ≠ pa / 128 → Calm s b → ∀ ag task c, s.streamedOpen ag task b = false → t.viewByte ag task c b = s.viewByte ag task c b))

/-- R243, R283: an access of another part goes out as one request and the leader waits at it; once the answer is there, the instruction
completes with it. -/
def Sys2Proof.Claims.RemoteAccesses : Prop :=
  ∀ (i : Instr) (s : State) (n d va k len part rva cls : Nat) (srcs : List Nat) (ak : AccKind) (op : ReqOp),
    i.wf = true → accessOp (s.leader n).xr i = some (d, srcs, va, k, ak, op, len) → Ready s n srcs → s.heldByBanks n = false →
    s.translate n (.leader n) va k ak = .ok (.remote part rva cls) → noAtomic s n →
    ((∀ r ∈ s.reqs, ¬ remoteMatch n va op r) → s.outstanding n (fun o => op.isLoad && o.isLoad || op.isStore && o.isStore) < 15 →
      Ends i s fun t => let u := afterLookup s n va
        (t.leader n).pc = (s.leader n).pc ∧ (t.leader n).x = (s.leader n).x ∧ BytesCalm s t ∧ t.reqNum = u.reqNum + 1 ∧
        part ∈ (t.ctx (s.leader n).ctxOf).parts ∧ OnlyFills s u ∧
        ∃ r, t.reqs = u.reqs ++ [r] ∧ r.id = u.reqNum ∧ r.done = false ∧ r.op = op ∧ r.len = k ∧ r.tgt = .remote part rva cls ∧ r.leader = n ∧ r.va = va) ∧
    (∀ before r after, s.reqs = before ++ r :: after → (∀ q ∈ before, ¬ remoteMatch n va op q) → remoteMatch n va op r → r.done = true → r.hint = 0 →
      Ends i s fun t => OnlyFills s (afterLookup s n va) ∧ (∀ q, q ∈ t.reqs ↔ q ∈ (afterLookup s n va).reqs ∧ q.id ≠ r.id) ∧
        Sequenced len (s.leader n) (t.leader n) ∧ Aside n s t ∧
        (∀ x, x ≠ d ∨ x = 0 ∨ silent op = true → t.xr n x = s.xr n x) ∧
        (silent op = false → d ≠ 0 → t.xr n d = op.extend k r.val ∧ tget none (t.leader n).xPoison d = if r.poison then some va else none))

/-- R243, R359, R419, R358: the answer of another part is kept for its issuer; an access of another part is performed on the row it names,
one whose tag is on the remote tag list is dropped; after 200 µs, or at an unreachable part, a request is answered poisoned; the answer to an
incarnation that its port no longer takes for live is dropped and counted, whichever event brings it. -/
def Sys2Proof.Claims.RemoteEvents : Prop :=
  (∀ (s : State) (r : Req) (v : Word) (part rva cls : Nat), s.req? r.id = some r → r.tgt = .remote part rva cls → r.done = false →
    (∀ cause, s.live r.ctx r.inn = true → Ends (.loadReturn r.id v cause) s fun t => BytesKept s t ∧ t = { s with reqs := t.reqs } ∧
      ∃ q ∈ t.reqs, q = { r with done := true, val := v, hint := if 3 ≤ cause ∧ cause ≤ 6 then cause else 0, poison := decide (cause = 0x10) }) ∧
    ((16 ≤ s.portOf part ∨ r.born + 500000 ≤ s.cycle) →
      Ends (.remoteTimeout r.id) s fun t => BytesCalm s t ∧ ∃ q ∈ t.reqs, q = { r with done := true, val := 0, poison := true, hint := 0 })) ∧
  (∀ (s : State) (r : Req) (v : Word) (cause : Nat) (i : Instr), s.req? r.id = some r → s.portLive r = false →
    i = .orphanResponse r.id ∨ i = .loadReturn r.id v cause ∧ ((∃ p w c, r.tgt = .remote p w c ∧ r.done = false) ∨
      ∃ p c h k, r.tgt = .row p c h k ∧ r.done = true ∧ r.miss = false ∧ r.op ≠ .fill ∧ r.op ≠ .diag) →
    Ends i s fun t => BytesKept s t ∧ (∀ q, q ∈ t.reqs ↔ q ∈ s.reqs ∧ q.id ≠ r.id) ∧
      (∀ part rva cls, r.tgt = .remote part rva cls → tget 0 t.hub.portOrphan (s.portOf part) = tget 0 s.hub.portOrphan (s.portOf part) + 1) ∧
      ((∀ part rva cls, r.tgt ≠ .remote part rva cls) → (t.leader r.leader).orphan = (s.leader r.leader).orphan + 1)) ∧
  (∀ (s : State) (agent ctx inn va len kind pa cls scope home : Nat) (v : Word) (e : Region),
    ((agent / 8192, ctx, inn) ∈ s.hub.remoteTags → Ends (.remoteRequest agent ctx inn va len kind v) s fun t => BytesKept s t ∧
      tget 0 t.hub.portStale (s.portOf (agent / 8192)) = tget 0 s.hub.portStale (s.portOf (agent / 8192)) + 1) ∧
    ((agent / 8192, ctx, inn) ∉ s.hub.remoteTags → len ∈ [1, 2, 4, 8] → va % len = 0 →
      let u := s.walked 192 ctx inn (s.taskOfTag ctx inn) va
      s.walk ctx va = some e → u.probeRegion ctx (.leader 192) e va len
        { rd := kind != 1 && kind != 13, wr := kind != 0 && kind != 12, atomic := decide (2 ≤ kind), align := len } = .ok (.row pa cls scope home) →
      Ends (.remoteRequest agent ctx inn va len kind v) s fun t =>
        (∀ b, (b < pa ∨ pa + len ≤ b) ∨ kind = 0 ∨ kind = 12 ∨ cls ≠ 3 → Calm s b → t.rowByte b = s.rowByte b) ∧
        (kind = 1 ∨ kind = 13 → cls = 3 → ∀ j, j < len → memByte t.rows (pa + j) = v.extractLsb' (8 * j) 8) ∧
        (kind = 1 ∨ kind = 13 → cls ≠ 3 → ∃ p, t.pend = s.pend ++ [p] ∧ p.agent = agent ∧ p.pa = pa ∧ p.data = bytesOf v len) ∧
        (∃ old w, old = leNat ((List.range len).map fun j =>
            if cls = 1 ∧ 2 ≤ kind ∧ kind ≠ 12 ∧ kind ≠ 13 then u.amoByte (tagTask (agent / 8192) ctx inn) (pa + j)
            else u.remoteByte agent ctx inn cls (pa + j)) ∧
          t.hub.answers = s.hub.answers ++ [{ agent := agent, ctx := ctx, inn := inn, cause := 0, value := w,
                                              poison := (List.range len).any fun j => u.remotePoison agent ctx inn cls (pa + j) }] ∧ extended (kind ≠ 0 ∧ kind ≠ 11) len old w ∧
          ∀ op, kind = op + 2 → op < 10 → ∃ new, amoResult op (8 * len) old (v.toNat % 2 ^ (8 * len)) new ∧
            ∀ j, j < len → (cls = 3 → memByte t.rows (pa + j) = BitVec.ofNat 8 (new / 256 ^ j)) ∧
              (cls = 1 → t.amoByte (tagTask (agent / 8192) ctx inn) (pa + j) = BitVec.ofNat 8 (new / 256 ^ j)))))

/-- R116, R258: a request that no cache served waits in the bank's foreign queue with its arrival cycle while its slot is open with another row,
and changes nothing else; one for the open row is served from it. -/
def Sys2Proof.Claims.ForeignRequestWaits : Prop :=
  ∀ (s : State) (r : Req) (pa cls scope home : Nat), s.req? r.id = some r → r.tgt = .row pa cls scope home → s.live r.ctx r.inn = true →
    let g := bankOfPa pa
    let sl := s.slot g (slotOfPa pa)
    r.miss = true → (sl.st = .openClean ∨ sl.st = .openDirty ∨ sl.st = .commitPending) →
    (sl.row ≠ rowOfPa pa → (∀ f ∈ (s.bank g).foreign, f.1 ≠ r.id) → Ends (.foreignRequest g r.id) s fun t =>
      (t.bank g).foreign = (s.bank g).foreign ++ [(r.id, s.cycle)] ∧ t.bank g = { s.bank g with foreign := (t.bank g).foreign } ∧
      (∀ h, h ≠ g → t.bank h = s.bank h) ∧ t = { s with banks := t.banks } ∧ BytesKept s t) ∧
    (sl.row = rowOfPa pa → s.olderSameWord r = false → r.op.isLoad = true →
      Ends (.foreignRequest g r.id) s fun t => BytesKept s t ∧ (t.bank g).slots = (s.bank g).slots ∧
        ∃ q ∈ t.reqs, q.id = r.id ∧ q.done = true ∧ q.miss = false)

/-- Accesses of and by other parts, their answers, losses and time-outs; requests that wait at a bank: `RemoteAccesses`, `RemoteEvents`, `ForeignRequestWaits` together. -/
def Obligations.RemoteAndForeign : Prop := RemoteAccesses ∧ RemoteEvents ∧ ForeignRequestWaits

/-- R130 to R136: VF, VWR and VRD place one entry for their banks and go on, VRD with its register waiting for the answer; BMASK swaps
the bank mask, its reserved banks held at zero. -/
def Sys2Proof.Claims.RopeEntries : Prop :=
  (∀ (a : BitVec 5) (s : State) (n : Nat), Ready s n [a.toNat] → blockDesc (s.xr n a.toNat).toNat → (s.leader n).rowq.length < 64 →
    Ends (.vf a) s fun t => ∃ m, targets s n m ∧
      Placed (s.leader n) (t.leader n) (.vf (s.xr n a.toNat) (s.leader n).csr.frm (s.leader n).csr.vxrm) m 0 0 ∧
      (∀ r, t.xr n r = s.xr n r) ∧ Sequenced 4 (s.leader n) (t.leader n) ∧ RopeKept (s.leader n) (t.leader n) ∧ OnlyLeader n s t ∧ BytesKept s t) ∧
  (∀ (a b : BitVec 5) (sel : BitVec 8) (s : State) (n : Nat), Ready s n [a.toNat, b.toNat] → (s.xr n a.toNat).toNat < 32 →
    s.granted (s.xr n a.toNat).toNat = true → (s.leader n).rowq.length < 64 →
    Ends (.vwr a b sel) s fun t => Placed (s.leader n) (t.leader n) (.vwr sel.toNat (s.xr n b.toNat)) (1#32 <<< (s.xr n a.toNat).toNat) 0 0 ∧
      (∀ r, t.xr n r = s.xr n r) ∧ Sequenced 4 (s.leader n) (t.leader n) ∧ RopeKept (s.leader n) (t.leader n) ∧ OnlyLeader n s t ∧ BytesKept s t) ∧
  (∀ (d a : BitVec 5) (sel : BitVec 8) (s : State) (n : Nat), Ready s n [a.toNat] → (s.xr n a.toNat).toNat < 32 →
    s.granted (s.xr n a.toNat).toNat = true → (s.leader n).rowq.length < 64 →
    Ends (.vrd d a sel) s fun t => Placed (s.leader n) (t.leader n) (.vrd sel.toNat d.toNat s.reqNum) (1#32 <<< (s.xr n a.toNat).toNat) 0 0 ∧
      (d ≠ 0 → tget 0 (t.leader n).xPend d.toNat = s.reqNum) ∧ (t.leader n).x = (s.leader n).x ∧ t.reqNum = s.reqNum + 1 ∧
      Sequenced 4 (s.leader n) (t.leader n) ∧ RopeKept (s.leader n) (t.leader n) ∧ t = { s with leaders := t.leaders, reqNum := t.reqNum } ∧
      (∀ m, m ≠ n → t.leader m = s.leader m) ∧ BytesKept s t) ∧
  (∀ (d a : BitVec 5) (s : State) (n : Nat), Ready s n [a.toNat] → (s.xr n a.toNat).toNat < 2 ^ 32 →
    Ends (.bmask d a) s fun t => t.xr n d.toNat = (if d = 0 then 0 else (s.leader n).bmr.setWidth 64) ∧
      (∀ i, i < 32 → (t.leader n).bmr.getLsbD i = ((s.xr n a.toNat).getLsbD i && s.granted i)) ∧
      OthersKept d.toNat (s.leader n) (t.leader n) ∧ Sequenced 4 (s.leader n) (t.leader n) ∧
      LeaderKept (s.leader n) { t.leader n with bmr := (s.leader n).bmr } ∧ OnlyLeader n s t ∧ BytesKept s t)

/-- R134, R139, R140: a SETVL form grants the count capped by the type's largest length, and by the cairn's grant in the .C form, writes it
to xd, VL and VT, places its entry, owes a commit to an open strip, and opens a strip when its mask names a register. -/
def Sys2Proof.Claims.SetvlIssues : Prop :=
  ∀ (i : Instr) (s : State) (n d a b : Nat) (form : SetvlForm) (ck : BitVec 8), setvlOp i = some (form, d, a, b, ck) → Ready s n [a, b] →
    (∀ k, k < 8 → ck.getLsbD k = true → tget 0 (s.leader n).xPend (8 + k) = 0) → (s.leader n).rowq.length < 64 →
    (s.leader n).commitWait = none →
    let T := (s.xr n b).toNat
    let e := T / 2 ^ 16 % 64
    let vt : Word := BitVec.ofNat 64 (T % 2 ^ 11 + if (s.leader n).protOf then 2 ^ 11 else 0)
    typeWord form T → (form = .c → s.cairnDep n e ≠ none ∧ (0 < (s.cairnView n e).1 ∨ (s.cairnView n e).2 = true)) →
    let len := if form = .c then min (s.xr n a).toNat (min (vlmaxOf vt) (s.cairnView n e).1) else min (s.xr n a).toNat (vlmaxOf vt)
    Ends i s fun t => ∃ m commit strips, targets s n m ∧ grantedIf s ((s.leader n).strip.isSome = true) commit ∧ grantedIf s (ck ≠ 0) strips ∧
      Placed (s.leader n) (t.leader n) (.setvl vt len (form == .q)) m commit strips ∧
      (t.leader n).csr.vt = vt ∧ (t.leader n).csr.vl = len ∧
      (t.xr n d = if d = 0 then 0 else BitVec.ofNat 64 len) ∧ (∀ r, r ≠ d ∨ r = 0 → t.xr n r = s.xr n r) ∧
      (form = .c → tget 0 (t.leader n).cpos e = tget 0 (s.leader n).cpos e + len) ∧ (form ≠ .c → (t.leader n).cpos = (s.leader n).cpos) ∧
      ((s.leader n).strip = none → ((t.leader n).strip.isSome = true ↔ ck ≠ 0) ∧ (t.leader n).commitWait = (s.leader n).commitWait ∧
        ∀ st ∈ (t.leader n).strip, st.addr = (t.leader n).pc ∧ st.bmr = (s.leader n).bmr ∧ st.gates = (s.leader n).gates ∧
          ∀ x ∈ st.xs, 8 ≤ x.1 ∧ ck.getLsbD (x.1 - 8) = true ∧ x.2.1 = t.xr n x.1) ∧
      ((s.leader n).strip ≠ none → (t.leader n).strip = (s.leader n).strip ∧ (t.leader n).commitWait = some (t.leader n).rowNum ∧
        ((t.leader n).nextStrip.isSome = true ↔ ck ≠ 0)) ∧
      Sequenced 4 (s.leader n) (t.leader n) ∧ RopeKept (s.leader n) (t.leader n) ∧ OnlyLeader n s t ∧ BytesKept s t

/-- VF, VWR and VRD place their row-queue entries, BMASK swaps the bank mask, SETVL grants its length and opens its strip: `RopeEntries`, `SetvlIssues` together. -/
def Obligations.RopeInstructions : Prop := RopeEntries ∧ SetvlIssues

/-- R43, R131, R132, R135, R136, R318, R332: a bad descriptor or mask or a bank index above 31 traps ILLEGAL_INSTR, a reserved bank traps
PERMISSION, and a full row queue makes the leader wait. -/
def Sys2Proof.Claims.RopeRefusals : Prop :=
  (∀ (a : BitVec 5) (s : State) (n : Nat), Ready s n [a.toNat] →
    (Free s n → ¬ blockDesc (s.xr n a.toNat).toNat → Ends (.vf a) s (Trapped n 0x01 (wordOf (.vf a)) 0 s)) ∧
    (blockDesc (s.xr n a.toNat).toNat → 64 ≤ (s.leader n).rowq.length → Ends (.vf a) s (Waits n 5 s))) ∧
  (∀ (d a : BitVec 5) (s : State) (n : Nat), Ready s n [a.toNat] → Free s n → 2 ^ 32 ≤ (s.xr n a.toNat).toNat →
    Ends (.bmask d a) s (Trapped n 0x01 (s.xr n a.toNat) 0 s)) ∧
  (∀ (i : Instr) (s : State) (n a : Nat) (srcs : List Nat), bankIndexOp i = some (a, srcs) → Ready s n srcs →
    (Free s n → 32 ≤ (s.xr n a).toNat → Ends i s (Trapped n 0x01 (s.xr n a) 0 s)) ∧
    (Free s n → (s.xr n a).toNat < 32 → s.granted (s.xr n a).toNat = false → Ends i s (Trapped n 0x05 (s.xr n a) 0 s)) ∧
    ((s.xr n a).toNat < 32 → s.granted (s.xr n a).toNat = true → 64 ≤ (s.leader n).rowq.length → Ends i s (Waits n 5 s)))

/-- R134, R352: an unfit type word, or a SETVL.C that names no cairn dependency, traps ILLEGAL_INSTR with the type word; a cairn with nothing to grant
that is not sealed makes the leader wait. -/
def Sys2Proof.Claims.SetvlRefusals : Prop :=
  ∀ (i : Instr) (s : State) (n d a b : Nat) (form : SetvlForm) (ck : BitVec 8), setvlOp i = some (form, d, a, b, ck) → Ready s n [a, b] →
    let T := (s.xr n b).toNat
    (Free s n → ¬ typeWord form T → Ends i s (Trapped n 0x01 (s.xr n b) 0 s)) ∧
    (Free s n → typeWord form T → form = .c → s.cairnDep n (T / 2 ^ 16 % 64) = none → Ends i s (Trapped n 0x01 (s.xr n b) 0 s)) ∧
    (typeWord form T → form = .c → s.cairnDep n (T / 2 ^ 16 % 64) ≠ none → s.cairnView n (T / 2 ^ 16 % 64) = (0, false) → Ends i s (Waits n 3 s))

/-- Row-queue instructions that break their rules trap, and wait when the queue is full or the cairn has nothing: `RopeRefusals`, `SetvlRefusals` together. -/
def Obligations.RopeChecks : Prop := RopeRefusals ∧ SetvlRefusals

/-- R46, R132, R133, R135, R136, Table 5.11: the head entry of a ready bank takes its effect there: a VF starts its block, which crosses the spine once
for all the banks of the entry that lack it, a VWR writes its y
register, a VRD sends its value to the register that waits for it, a SETVL entry sets VT and VL or pops the length queue; an empty queue
traps LQ_EMPTY. -/
def Sys2Proof.Claims.EntriesTakeEffect : Prop :=
  (∀ (s : State) (g : Nat) (e : RowEntry) (d : Word) (frm : BitVec 3) (vxrm : BitVec 2), s.headEntry g = some e → e.op = .vf d frm vxrm →
    Ends (.vfBlockStart g) s fun t => EntryTaken g e.num false s t ∧ OnlyBankAndQueue g s { t with counts := s.counts } ∧
      (let miss := d.toNat ∉ (s.bank g).blocks ∧ e.sent = false
       (miss → ∀ q ∈ (t.leader (ropeOf g)).rowq, q.num = e.num → q.sent = true) ∧
       ∀ k, tget 0 t.counts k = tget 0 s.counts k +
         if miss ∧ k = 2 ^ 33 * 8 + (s.leader (ropeOf g)).taskOf then (if (s.leader (ropeOf g)).degraded then 2 else 1) else 0) ∧
      (∃ r, (t.bank g).run = some r ∧ r.desc = d.toNat ∧ r.wpos = 0 ∧ r.entry = some e.num ∧ r.parts = e.banks) ∧
      (t.bank g).frm = frm ∧ (t.bank g).vxrm = vxrm ∧ (t.bank g).y = (s.bank g).y ∧ (t.bank g).slots = (s.bank g).slots) ∧
  (∀ (s : State) (g y : Nat) (e : RowEntry) (v : Word), s.headEntry g = some e → e.op = .vwr y v →
    Ends (.vwrEntry g) s fun t => EntryTaken g e.num true s t ∧ OnlyBankAndQueue g s t ∧
      (t.bank g).yr y = (if y = 0 then 0 else v) ∧ (∀ r, r ≠ y → (t.bank g).yr r = (s.bank g).yr r) ∧ t.bank g = { s.bank g with y := (t.bank g).y, entryNum := e.num }) ∧
  (∀ (s : State) (g sel d req : Nat) (e : RowEntry), s.headEntry g = some e → e.op = .vrd sel d req →
    Ends (.vrdEntry g) s fun t => EntryTaken g e.num true s t ∧ t = { s with leaders := t.leaders, banks := t.banks } ∧
      t.bank g = { s.bank g with entryNum := e.num } ∧ (∀ h, h ≠ g → t.bank h = s.bank h) ∧ BytesKept s t ∧
      (∀ r, r ≠ d → t.xr (ropeOf g) r = s.xr (ropeOf g) r) ∧
      (d ≠ 0 → tget 0 (s.leader (ropeOf g)).xPend d = req →
        t.xr (ropeOf g) d = (if sel < 16 then (s.bank g).yr sel else s.bankCsr g (sel - 128)) ∧ tget 0 (t.leader (ropeOf g)).xPend d = 0)) ∧
  (∀ (s : State) (g len : Nat) (e : RowEntry) (vt : Word) (pop : Bool), s.headEntry g = some e → e.op = .setvl vt len pop →
    e.commit.getLsbD (rbiOf g) = false → e.sync = true → e.strips.getLsbD (rbiOf g) = false → e.banks.getLsbD (rbiOf g) = true →
    (pop = false → Ends (.setvlEntry g) s fun t => EntryTaken g e.num true s t ∧ OnlyBankAndQueue g s t ∧
      t.bank g = { s.bank g with vt := vt, vl := len, entryNum := e.num }) ∧
    (∀ h q, pop = true → (s.bank g).lq = h :: q → Ends (.setvlEntry g) s fun t => EntryTaken g e.num true s t ∧ OnlyBankAndQueue g s t ∧
      t.bank g = { s.bank g with vt := vt, vl := min h (min len (vlmaxOf vt)), lq := q, entryNum := e.num }) ∧
    (pop = true → (s.bank g).lq = [] → Ends (.setvlEntry g) s fun t => OnlyBankAndQueue g s t ∧
      (t.bank g).vl = (s.bank g).vl ∧ (t.bank g).vt = (s.bank g).vt ∧ ∃ tr, (t.bank g).trap = some tr ∧ tr.cause = .lqEmpty ∧ tr.tval = 0))

/-- R140, R141, R397: a bank that reaches a strip commit waits for it; when every granted bank has, the commit takes effect at all of them
at once: a register of the bound task held for the commit goes on to its class's publication, SW clears, and the checkpoint is dropped; another
task's registers are as they were (R115). -/
def Sys2Proof.Claims.StripCommits : Prop :=
  (∀ (s : State) (g len : Nat) (e : RowEntry) (vt : Word) (pop : Bool), s.headEntry g = some e → (e.op = .setvl vt len pop ∨ e.op = .commit) →
    e.commit.getLsbD (rbiOf g) = true → Ends (.setvlEntry g) s fun t => t.bank g = s.bank g ∧ OnlyBankAndQueue g s t ∧
      ∀ q ∈ (t.leader (ropeOf g)).rowq, q.num = e.num → q.commit.getLsbD (rbiOf g) = false) ∧
  (∀ (s : State) (n : Nat) (e : RowEntry), (s.leader n).rowq.find? (fun e => !e.sync && e.commit == 0) = some e → s.boundLive n = true →
    Ends (.stripCommit n) s fun t => (t.leader n).strip = (s.leader n).nextStrip ∧ (t.leader n).nextStrip = none ∧
      ((s.leader n).commitWait = some e.num → (t.leader n).commitWait = none) ∧ (∀ q ∈ (t.leader n).rowq, q.num = e.num → q.sync = true) ∧
      (∀ r, t.xr n r = s.xr n r) ∧
      ∀ i, i < 32 → s.granted i = true → (t.bank (bankOf n i)).strip = none ∧
        ∀ k, k < 8 → (s.foreignSlot (bankOf n i) k = true → t.slot (bankOf n i) k = s.slot (bankOf n i) k) ∧
          (s.foreignSlot (bankOf n i) k = false → (t.slot (bankOf n i) k).sw = false ∧ (t.slot (bankOf n i) k).latch = (s.slot (bankOf n i) k).latch ∧
          ((s.slot (bankOf n i) k).st = .commitPending → (s.slot (bankOf n i) k).cw = 1 →
            (t.slot (bankOf n i) k).cw = if (s.slot (bankOf n i) k).pub = 0 then 0 else 2)))

/-- Row-queue entries take effect at their banks in order; a strip commits at all of them at once: `EntriesTakeEffect`, `StripCommits` together. -/
def Obligations.EntriesAndStrips : Prop := EntriesTakeEffect ∧ StripCommits

/-- R234, R237: WFE completes once an event is there, and that event ends no later WFE; it otherwise waits, at most 65,536 cycles; HALT first commits an open strip, waits for
everything the thread has placed, and then ends the thread and frees its rope. -/
def Obligations.WaitForEventAndHalt : Prop :=
  (∀ (s : State) (n : Nat), s.cur = .leader n →
    (s.wfeReady n = true → Ends .wfe s fun t => (t.leader n).wfeAt = none ∧ t.wfeReady n = false ∧ (∀ r, t.xr n r = s.xr n r) ∧
      Sequenced 4 (s.leader n) (t.leader n) ∧ t = { s with leaders := t.leaders, banks := t.banks } ∧ (∀ m, m ≠ n → t.leader m = s.leader m) ∧
      LeaderKept (s.leader n) { t.leader n with wfeAt := (s.leader n).wfeAt, wfeEv := (s.leader n).wfeEv, asyncSeen := (s.leader n).asyncSeen } ∧
      (∀ g, t.bank g = { s.bank g with trap := (t.bank g).trap } ∧
        (t.bank g).trap = (s.bank g).trap.map fun tr => { tr with woke := ((t.bank g).trap.map fun x => x.woke).getD false }) ∧ BytesKept s t) ∧
    (s.wfeReady n = false → Ends .wfe s fun t => (t.leader n).pc = (s.leader n).pc ∧ (t.leader n).x = (s.leader n).x ∧
      (t.leader n).wfeAt = some ((s.leader n).wfeAt.getD s.cycle) ∧ OnlyLeader n s t)) ∧
  (∀ (s : State) (n c : Nat), (s.leader n).wfeAt = some c → c + 65536 ≤ s.cycle →
    Ends (.wfeTimeout n) s fun t => t.wfeReady n = true ∧ t.leader n = { s.leader n with wfeEv := true } ∧ OnlyLeader n s t) ∧
  (∀ (s : State) (n : Nat), s.cur = .leader n → (s.leader n).strip = none →
    (s.haltReady n = true → Ends .halt s fun t => (t.leader n).bind = none ∧ (t.leader n).run = false ∧
      n ∈ (t.task (s.leader n).taskOf).halts ∧
      ((∀ e ∈ (s.task (s.leader n).taskOf).frames, e.1 = n ∨ e.1 ∈ (s.task (s.leader n).taskOf).halts) →
        (t.task (s.leader n).taskOf).ended = true ∧ ∀ p ∈ t.pend, ¬ (p.task = (s.leader n).taskOf ∧ (p.kind = .store ∨ p.done = true))) ∧
      (¬ (∀ e ∈ (s.task (s.leader n).taskOf).frames, e.1 = n ∨ e.1 ∈ (s.task (s.leader n).taskOf).halts) →
        t.pend = s.pend ∧ ∀ b, Calm s b → t.rowByte b = s.rowByte b)) ∧
    (s.haltReady n = false → Ends .halt s (Waits n 0x0B s))) ∧
  (∀ (s : State) (n : Nat), s.cur = .leader n → (s.leader n).strip ≠ none → (s.leader n).commitWait = none → (s.leader n).rowq.length < 64 →
    Ends .halt s fun t => (∃ m, grantedIf s True m ∧ Placed (s.leader n) (t.leader n) .commit 0 m 0) ∧ (t.leader n).pc = (s.leader n).pc ∧
      (t.leader n).commitWait = some (t.leader n).rowNum ∧ (t.leader n).x = (s.leader n).x ∧ OnlyLeader n s t ∧ BytesKept s t)

/-- R289 to R292: a belay waits with its marker in the row queue, and completes once its completion point has come; its level may not be
above its task's widest; PUBLISH completes and changes no value. -/
def Obligations.BelayInstructions : Prop :=
  (∀ (i : Instr) (s : State) (n level fn : Nat) (srcs : List Nat) (red : Option (Nat × Nat × Word)),
    belayOp (s.leader n).xr i = some (level, fn, srcs, red) → Ready s n srcs →
    ((s.leader n).arrival = none → level ≤ (s.task (s.leader n).taskOf).widest → (s.leader n).rowq.length < 64 →
      (s.leader n).commitWait = none → Ends i s fun t => ∃ m commit, grantedIf s True m ∧ grantedIf s ((s.leader n).strip.isSome = true) commit ∧
        Placed (s.leader n) (t.leader n) (.belay level) m commit 0 ∧
        (∃ a, (t.leader n).arrival = some a ∧ a.level = level ∧ a.red = red ∧ a.done = false ∧ a.engines = (s.leader n).engDone ∧ a.insts = []) ∧
        (t.leader n).pc = (s.leader n).pc ∧ (t.leader n).x = (s.leader n).x ∧ OnlyLeader n s t ∧ BytesKept s t) ∧
    ((s.leader n).arrival = none → (s.task (s.leader n).taskOf).widest < level → Free s n →
      Ends i s (Trapped n 0x01 (BitVec.ofNat 64 level) 0 s)) ∧
    (∀ a, (s.leader n).arrival = some a → a.done = true → a.bad = false →
      Ends i s fun t => (t.leader n).arrival = none ∧ (∀ r, t.xr n r = s.xr n r) ∧ Sequenced 4 (s.leader n) (t.leader n) ∧
        LeaderKept (s.leader n) { t.leader n with arrival := (s.leader n).arrival } ∧ OnlyLeader n s t ∧ BytesKept s t) ∧
    (∀ a, (s.leader n).arrival = some a → a.done = true → a.bad = true → Free s n →
      Ends i s fun t => (t.leader n).csr.tcause = 0x01 ∧ (t.leader n).csr.tval = BitVec.ofNat 64 fn ∧ (t.leader n).level = 2)) ∧
  (∀ (k : BitVec 3) (s : State) (n : Nat), s.cur = .leader n →
    Ends (.publish k) s fun t => (∀ r, t.xr n r = s.xr n r) ∧ Sequenced 4 (s.leader n) (t.leader n) ∧
      LeaderKept (s.leader n) { t.leader n with l1 := (s.leader n).l1 } ∧ Aside n s t ∧ t.pend = s.pend ∧ t.reqs = s.reqs)

/-- R31, R113, R149, R255, R266: a marker first releases the write-backs that its event publishes; with none left it fires: what the bank held back
of its PRIVATE regions is published and no region that it owns is engaged any longer, the bank's flags reach the leader and clear, and the entry is done. -/
def Sys2Proof.Claims.MarkersFire : Prop :=
  ∀ (s : State) (g level id : Nat) (e : RowEntry), s.headEntry g = some e →
    (e.op = .belay level → e.commit.getLsbD (rbiOf g) = false → e.sync = true →
      ((∀ k, k < 8 → ¬ mustWriteBack s g 1 level k) → Ends (.belayMarkerFire g) s fun t => EntryTaken g e.num true s t ∧
        (t.bank g).fflags = 0 ∧ (t.bank g).vxsat = false ∧
        (t.leader (ropeOf g)).csr.fflags = (s.leader (ropeOf g)).csr.fflags ||| (s.bank g).fflags ∧
        (t.leader (ropeOf g)).csr.vxsat = ((s.leader (ropeOf g)).csr.vxsat || (s.bank g).vxsat) ∧
        Published (privateOf s g) (fun _ => false) s t ∧
        ∀ x, x ∈ (t.ctx (s.bankTag g).1).engaged ↔ x ∈ (s.ctx (s.bankTag g).1).engaged ∧ x.2.2 ≠ g) ∧
      ((∃ k, k < 8 ∧ mustWriteBack s g 1 level k) → Ends (.belayMarkerFire g) s fun t => t.leaders = s.leaders ∧ BytesKept s t ∧
        ∀ k, k < 8 → mustWriteBack s g 1 level k → (t.slot g k).cw = 0 ∧ (t.slot g k).latch = (s.slot g k).latch)) ∧
    (e.op = .cairn id →
      ((∀ k, k < 8 → ¬ mustWriteBack s g 2 5 k) → Ends (.cairnMarkerFire g) s fun t => EntryTaken g e.num true s t ∧ BytesKept s t) ∧
      ((∃ k, k < 8 ∧ mustWriteBack s g 2 5 k) → Ends (.cairnMarkerFire g) s fun t => t.leaders = s.leaders ∧ BytesKept s t ∧
        ∀ k, k < 8 → mustWriteBack s g 2 5 k → (t.slot g k).cw = 0 ∧ (t.slot g k).latch = (s.slot g k).latch))

/-- R264, R265, R268, R269, R275, R276, R290: once every party has arrived and an instance's last marker has fired, that instance's publications take
effect in one step; a belay at bank or bank-group level has an instance for each, and with the last one the waiting thread may go on and
reads the current weight version. Which writes are published is the model's `belaySel`. -/
def Sys2Proof.Claims.BelayPublishes : Prop :=
  ∀ (s : State) (n inst : Nat) (a : Arrival), (s.leader n).arrival = some a →
    (s.belayReady n a ≠ none ↔ a.done = false ∧ s.boundLive n = true ∧
      (∀ r ∈ s.partiesOf (s.leader n).taskOf n a.level, (s.thread (s.leader n).taskOf r).arrivedAt a.level = true) ∧
      ∃ i ∈ s.belayInsts n a.level, i ∉ a.insts ∧
        ∀ r ∈ s.partiesOf (s.leader n).taskOf n a.level, (s.thread (s.leader n).taskOf r).firedAt r a.level i = true) ∧
    (s.belayReady n a = some inst → a.bad = false → a.red = none → n ∈ s.partiesOf (s.leader n).taskOf n a.level →
      s.savedFrame (s.leader n).taskOf n = none →
      let whole := (s.belayInsts n a.level).all fun i => i == inst || a.insts.contains i
      let u := s.haltedRows (s.leader n).taskOf a.level inst
      Ends (.belayCompletion n) s fun t => HaltedDue (s.leader n).taskOf s u ∧ OnlyPublication u t ∧
        ((∀ r ∈ s.partiesOf (s.leader n).taskOf n a.level, s.savedFrame (s.leader n).taskOf r = none) →
          Published (s.belaySel (s.leader n).taskOf n a.level inst whole) (s.belayAmo (s.leader n).taskOf a.level inst) u t) ∧
        t.pend = u.pend.filter (fun p => !s.belaySel (s.leader n).taskOf n a.level inst whole p) ∧
        (∀ r, t.xr n r = s.xr n r) ∧ ∃ a', (t.leader n).arrival = some a' ∧ a'.bad = false ∧
          (whole = true → a'.done = true ∧ (t.leader n).wever = s.weights.epoch) ∧ (whole = false → a' = { a with insts := a.insts ++ [inst] }))

/-- Markers fire bank by bank, and a complete belay publishes in one step: `MarkersFire`, `BelayPublishes` together. -/
def Obligations.BelaysComplete : Prop := MarkersFire ∧ BelayPublishes

/-- R353, R354: CAIRN and TRIGGER place their markers and go on; at the cairn's point H rises to H′ unless the cairn is sealed, at a
trigger's point the thread's flag is set, and what the rope and its engines had streamed before it is published; dependants start when every producer has triggered. -/
def Obligations.CairnsAndTriggers : Prop :=
  (∀ (i : Instr) (s : State) (n h c : Nat) (srcs : List Nat) (trig seals : Bool), cairnOp (s.leader n).xr i = some (srcs, trig, h, c, seals) →
    Ready s n srcs → h < 2 ^ 48 → (∀ a b, i = .cairn a b → (s.xr n b.toNat).toNat / 64 % 2 ^ 57 = 0) → (s.leader n).rowq.length < 64 →
    Ends i s fun t => (∃ m, grantedIf s True m ∧ Placed (s.leader n) (t.leader n) (.cairn ((s.leader n).rowNum + 1)) m 0 0) ∧
      (∃ p, (t.leader n).cairns = (s.leader n).cairns ++ [p] ∧ p.trigger = trig ∧ p.h = h ∧ p.cairn = c ∧ p.seals = seals ∧
        p.engines = (s.leader n).engDone ∧ (p.strip = none ↔ (s.leader n).strip = none)) ∧
      (∀ r, t.xr n r = s.xr n r) ∧ Sequenced 4 (s.leader n) (t.leader n) ∧ OnlyLeader n s t ∧ BytesKept s t) ∧
  (∀ (a b : BitVec 5) (s : State) (n : Nat), Ready s n [a.toNat, b.toNat] → Free s n →
    (2 ^ 48 ≤ (s.xr n a.toNat).toNat → Ends (.cairn a b) s (Trapped n 0x01 (s.xr n a.toNat) 0 s)) ∧
    ((s.xr n a.toNat).toNat < 2 ^ 48 → (s.xr n b.toNat).toNat / 64 % 2 ^ 57 ≠ 0 → Ends (.cairn a b) s (Trapped n 0x01 (s.xr n b.toNat) 0 s))) ∧
  (∀ (s : State) (n : Nat) (c : CairnPend) (rest : List CairnPend), (s.leader n).cairns = c :: rest → c.strip = none → s.boundLive n = true →
    (∀ e ∈ (s.leader n).rowq, e.num ≠ c.num) →
    let tk := (s.leader n).taskOf
    (c.trigger = false → Ends (.cairnPoint n) s fun t => (t.leader n).cairns = rest ∧
      (((s.task tk).cairn c.cairn).sealed = true → (t.task tk).cairn c.cairn = (s.task tk).cairn c.cairn) ∧
      (((s.task tk).cairn c.cairn).sealed = false → (t.task tk).cairn c.cairn = { h := max ((s.task tk).cairn c.cairn).h c.h, sealed := c.seals }) ∧
      (∀ k, k ≠ c.cairn → (t.task tk).cairn k = (s.task tk).cairn k) ∧ Published (pointOf s n c) (fun _ => false) s t) ∧
    (c.trigger = true → Ends (.triggerPoint n) s fun t => n ∈ (t.task tk).trigs ∧ (∀ r ∈ (s.task tk).trigs, r ∈ (t.task tk).trigs) ∧
      (t.leader n).cairns = rest ∧ Published (pointOf s n c) (fun _ => false) s t)) ∧
  (∀ (s : State) (k : Nat), (s.task k).rcd ≠ [] → bit ((s.task k).dw 0) 51 = true → (s.task k).started = false →
    (∀ d ∈ (s.task k).deps, s.triggered d = true) →
    Ends (.triggerDependantStart k) s fun t => (t.task k).started = true ∧ (∀ j, j ≠ k → t.task j = s.task j) ∧ t = { s with tasks := t.tasks })

/-- R350, R351, R34: LAUNCH hands a request to the hub, queues its token and writes the token's sequence number and place to xd; the
request joins the hub's queue of 64, where the token at the head is RUNNING, or is refused with reason 11 when that is full. -/
def Obligations.LaunchRequests : Prop :=
  (∀ (d a b : BitVec 5) (s : State) (n : Nat), Ready s n [a.toNat] → (s.xr n a.toNat).toNat % 128 = 0 → ((s.leader n).tok b.toNat).free = true →
    Ends (.launch d a b) s fun t => ((t.leader n).tok b.toNat).st = .queued ∧ ((t.leader n).tok b.toNat).kind = 4 ∧
      ((t.leader n).tok b.toNat).seq = (s.leader n).seq + 1 ∧ (t.leader n).seq = (s.leader n).seq + 1 ∧
      t.hub.arriving = s.hub.arriving ++ [{ leader := some (n, b.toNat), slot := none, ctx := (s.leader n).ctxOf, inn := (s.leader n).innOf, task := (s.leader n).taskOf,
                                            level := (s.leader n).level.toNat, va := (s.xr n a.toNat).toNat }] ∧
      t.xr n d.toNat = (if d = 0 then 0 else BitVec.ofNat 64 (((s.leader n).seq + 1) * 2 ^ 32 + b.toNat)) ∧
      OthersKept d.toNat (s.leader n) (t.leader n) ∧ Sequenced 4 (s.leader n) (t.leader n) ∧ BytesKept s t ∧ ∀ m, m ≠ n → t.leader m = s.leader m) ∧
  (∀ (d a b : BitVec 5) (s : State) (n : Nat), Ready s n [a.toNat] →
    (Free s n → (s.xr n a.toNat).toNat % 128 ≠ 0 → Ends (.launch d a b) s (Trapped n 0x01 (s.xr n a.toNat) 0 s)) ∧
    ((s.xr n a.toNat).toNat % 128 = 0 → ((s.leader n).tok b.toNat).free = false → Ends (.launch d a b) s (Waits n 7 s))) ∧
  (∀ (s : State) (r : LaunchReq) (q : List LaunchReq), s.hub.arriving = r :: q →
    (s.hub.launches.length < 64 → Ends .launchRequestArrival s fun t =>
      t.hub = { s.hub with arriving := q, launches := s.hub.launches ++ [r] } ∧
      (∀ h n tk, (s.hub.launches ++ [r]).head? = some h → h.leader = some (n, tk) → s.launchLive h = true →
        ((t.thread h.task n).tok tk).st = .running ∧ ∀ k, k ≠ tk → (t.thread h.task n).tok k = (s.thread h.task n).tok k) ∧
      (∀ h, (s.hub.launches ++ [r]).head? = some h → h.leader = none ∨ s.launchLive h = false → t = { s with hub := t.hub })) ∧
    (∀ i, 64 ≤ s.hub.launches.length → r.slot = some i → Ends .launchRequestArrival s fun t => t.hub.launches = s.hub.launches ∧ t.hub.arriving = q ∧
      bits (tget MailSlot.reset t.host.slots i).rsp 55 48 = 0x11 ∧ bits (tget MailSlot.reset t.host.slots i).rsp 47 40 = 11))

/-- R34, R348, R349, R351, R369: a mailbox request at the head of the launch queue, whose pages of flash are staged, leaves it; a record that breaks its own rules refuses it
with reason 1, and one that no reason refuses makes a task: its number, record and start, its bind records, and the code image in each of its frames (R41, R403). At its time a bind record binds its free ropes under its
own tag.
Where two records in force name one rope, the lower index prevails and the conflict is noted. -/
def Obligations.AdmissionAndBind : Prop :=
  (∀ (s : State) (r : LaunchReq) (q : List LaunchReq) (i why fr : Nat) (binds : List (List Word)) (rcd : List Word),
    s.hub.launches = r :: q → r.slot = some i → r.leader = none → s.readRecord r = .ok rcd → s.launchAbsent r (.ok rcd) = [] →
    let calm := ∀ h n tk, q.head? = some h → h.leader = some (n, tk) → s.savedFrame h.task n = none
    (recordOk rcd = false → Ends (.admission why fr binds) s fun t => t.hub.launches = q ∧ t.tasks = s.tasks ∧
      bits (tget MailSlot.reset t.host.slots i).rsp 55 48 = 0x11 ∧ bits (tget MailSlot.reset t.host.slots i).rsp 47 40 = 1 ∧ (calm → BytesCalm s t)) ∧
    (∀ img, s.readImageWords rcd = .ok img → s.takeReplay rcd = none →
      let c := bits (rcd.getD 0 0) 41 32
      let rs := binds.map (bindOf rcd (s.ctx c).inn s.hub.nextTask)
      s.refuseWhy r why (.ok rcd) rs = none →
      rs ≠ [] → (s.setTask s.hub.nextTask { Task.reset with rcd := rcd }).placementOk rcd rs = true →
      s.placeFree rs (s.freeSlots.take rs.length) (rcd.getD 3 0 != 0) = true → s.powerFits rs = true →
      (s.ctx c).biv + (fr + bits (rcd.getD 4 0) 7 0) * 0x800000 ≤ 6144 * 8192 * 12288 →
      (∀ e ∈ s.tasks, e.2.alive = true → e.2.ctx = c → ∀ f ∈ e.2.frames, f.2 < fr ∨ fr + bits (rcd.getD 4 0) 7 0 ≤ f.2) →
      Ends (.admission why fr binds) s fun t => t.hub.launches = q ∧ t.hub.nextTask = s.hub.nextTask + 1 ∧
        (t.task s.hub.nextTask).ctx = c ∧ (t.task s.hub.nextTask).rcd = rcd ∧ (t.task s.hub.nextTask).ended = false ∧
        (t.task s.hub.nextTask).start = ((rs.headD []).getD 2 0).toNat ∧ (∀ k, k ≠ s.hub.nextTask → t.task k = s.task k) ∧
        bits (tget MailSlot.reset t.host.slots i).rsp 55 48 = 0x10 ∧
        (∀ e ∈ s.freeSlots.zip rs, tget [] t.hub.binds e.1 = e.2) ∧
        (∀ j k b, calm → j < bits (rcd.getD 4 0) 7 0 → k < img.length → b < 4 → OffRing s (s.imageArea c (fr + j) + 4 * k + b) →
          t.rowByte (s.imageArea c (fr + j) + 4 * k + b) = (img.getD k 0).extractLsb' (8 * b) 8) ∧
        ∀ a, calm → Calm s a → (∀ j, j < bits (rcd.getD 4 0) 7 0 → a / 8 * 8 + 8 ≤ s.imageArea c (fr + j) ∨ s.imageArea c (fr + j) + 0x40000 ≤ a / 8 * 8) →
          t.rowByte a = s.rowByte a)) ∧
  (∀ (s : State) (i n : Nat), s.hub.recovery = false → s.bindNow (tget [] s.hub.binds i) = true → bindRopes (tget [] s.hub.binds i) = [n] →
    let k := bits ((tget [] s.hub.binds i).getD 0 0) 31 0
    let c := bits ((tget [] s.hub.binds i).getD 0 0) 57 48
    n ∉ (s.task k).halts → (s.leader n).bind = none → s.savedFrame k n = none → (∀ e ∈ s.hub.binds, e.1 < i → n ∉ bindRopes e.2) →
    s.hubAbsent (s.task k).ctx 192 s.weights.epoch (s.ctx (s.task k).ctx).gtb.toNat 2048 = [] →
    Ends (.bind i) s fun t => (∃ b, (t.leader n).bind = some b ∧ b.task = k ∧ b.ctx = c ∧ b.inn = bits ((tget [] s.hub.binds i).getD 0 0) 47 34 ∧ b.rcd = i) ∧
      (t.ctx c).tvec = (s.ctx c).entry ∧ (t.leader n).csr = { Csrs.reset with vt := if (s.ctx c).prot then 0xC00 else 0x400 } ∧
      (t.leader n).run = true ∧ (t.leader n).pc.toNat = bits ((s.task k).dw 2) 50 32 ∧ (∀ r, t.xr n r = 0) ∧ (t.leader n).level = 0 ∧
      (t.leader n).mm = false ∧ (t.leader n).loops = [] ∧ (t.leader n).gates = [] ∧ 
      (t.leader n).imem = s.loadImem (s.imageArea c (((((s.task k).frames.find? fun e => e.1 == n).map fun e => e.2).getD 0))) (bits ((s.task k).dw 2) 18 0) ∧
      (∀ j, bits ((s.task k).dw 2) 18 0 ≤ 4 * j → tget 0 (t.leader n).imem j = 0) ∧
      (∀ j, j < 32 → (t.leader n).bmr.getLsbD j = s.granted j) ∧ n ∈ (t.task k).threads ∧
      (∀ j, j < 32 → (t.bank (bankOf n j)).y = [] ∧ (t.bank (bankOf n j)).p = [] ∧ (t.bank (bankOf n j)).vl = 0 ∧ (t.bank (bankOf n j)).run = none) ∧
      ∀ m, m ≠ n → t.leader m = s.leader m) ∧
  (∀ (s : State) (i n : Nat), s.hub.recovery = false → s.bindNow (tget [] s.hub.binds i) = true → bindRopes (tget [] s.hub.binds i) = [n] →
    n ∉ (s.task (bits ((tget [] s.hub.binds i).getD 0 0) 31 0)).halts →
    (∀ b, (s.leader n).bind = some b → b.rcd ≠ i → s.bindNow (tget [] s.hub.binds b.rcd) = true → (s.leader n).preempt = false →
      Ends (.bind i) s fun t => t.leader n = (if i < b.rcd then { s.leader n with preempt := true, wfeEv := true } else s.leader n) ∧
        (∀ m, m ≠ n → t.leader m = s.leader m) ∧ i ∈ t.hub.clash ∧ BytesCalm s t) ∧
    (∀ j, (s.leader n).bind = none → j < i → s.bindNow (tget [] s.hub.binds j) = true → n ∈ bindRopes (tget [] s.hub.binds j) →
      n ∉ (s.task (bits ((tget [] s.hub.binds j).getD 0 0) 31 0)).halts →
      Ends (.bind i) s fun t => (∀ m, t.leader m = s.leader m) ∧ i ∈ t.hub.clash ∧ BytesCalm s t))

/-- R369, R25, R26, R403, R404, R406: at its quantum's end a bound thread is asked to yield; at its boundary its rope's state goes to its frame in
bivouac memory, a pending bank trap with it, and the rope is freed (the places of the doublewords within a part: the model's, log entry 91); when the
thread is bound again, what its frame then holds comes back, and a frame that cannot be read or is no save of this binding kills the incarnation. -/
def Obligations.PreemptionAndRestore : Prop :=
  (∀ (s : State) (i n : Nat) (b : Binding), (s.leader n).bind = some b → b.rcd = i →
    let r := tget [] s.hub.binds i
    b.task = bits (r.getD 0 0) 31 0 → bit (r.getD 0 0) 63 = true → bits (r.getD 3 0) 31 0 ≠ 0 → (r.getD 2 0).toNat + bits (r.getD 3 0) 31 0 ≤ s.time →
    (∀ e ∈ s.hub.binds, e.1 ≠ i → e.2.getD 5 0 ≠ r.getD 5 0) →
    Ends (.quantumEnd i) s fun t => t.leader n = { s.leader n with preempt := true, wfeEv := (s.leader n).wfeEv || !(s.leader n).preempt } ∧
      t = { s with leaders := t.leaders }) ∧
  (∀ (s : State) (n : Nat) (b : Binding), (s.leader n).bind = some b → (s.leader n).preempt = true → (s.leader n).run = true →
    (s.leader n).killed = false → s.live b.ctx b.inn = true → s.ropeYields n = true →
    let A := s.frameAddr b
    Ends (.preemption n) s fun t => threadGone n t ∧ t.pend = s.pend ∧ (∀ m, m ≠ n → t.leader m = s.leader m) ∧ t.weights = s.weights ∧
      (∀ a, a < A ∨ A + imageLen ≤ a → memByte t.rows a = memByte s.rows a) ∧
      memDw t.rows A = BitVec.ofNat 64 (2 ^ 63 + b.ctx * 2 ^ 48 + b.inn * 2 ^ 34 + b.task) ∧
      (∀ k, k < 31 → memDw t.rows (A + 0x1000 + 8 * k) = s.xr n (k + 1)) ∧ memDw t.rows (A + 0x1000 + 8 * 62) = (s.leader n).pc ∧
      (∀ j k, j < 32 → k < 15 → memDw t.rows (A + 0x90000 + 0x8000 * j + 8 * (43 + k)) = (s.bank (bankOf n j)).yr (k + 1)) ∧
      ∃ f, tget none t.frames (s.frameAddr b) = some f ∧ f.v = true ∧ f.ctx = b.ctx ∧ f.inn = b.inn ∧ f.task = b.task ∧ f.rope = n ∧
        f.leader.pc = (s.leader n).pc ∧ f.leader.x = (s.leader n).x ∧ f.leader.loops = (s.leader n).loops ∧ f.leader.gates = (s.leader n).gates ∧
        f.leader.level = (s.leader n).level ∧ f.leader.mm = (s.leader n).mm ∧ f.leader.csr = (s.leader n).csr ∧
        f.leader.scratch = (s.leader n).scratch ∧ f.leader.rowq = (s.leader n).rowq ∧ f.leader.preempt = false ∧
        (∀ j tr, s.pendingBankTrap n = some (j, tr) → Free s n → (s.leader n).pendTrap = none →
          ∃ p, f.pend = some p ∧ p.cause = .bankTrap ∧ p.bank = j ∧ p.tval = BitVec.ofNat 64 tr.cause.code)) ∧
  (∀ (s : State) (n : Nat) (b : Binding) (f : Frame), (s.leader n).bind = some b → (s.leader n).run = false → (s.leader n).killed = false →
    s.stopping n = false → tget none s.frames (s.frameAddr b) = some f → f.v = true → f.task = b.task → f.rope = n →
    (∀ g, s.readFrame (s.frameAddr b) f = some g → g.fits b n = true →
      Ends (.restore n) s fun t => (t.leader n).run = true ∧ (t.leader n).pc = g.leader.pc ∧ (t.leader n).x = g.leader.x ∧
        (t.leader n).loops = g.leader.loops ∧ (t.leader n).gates = g.leader.gates ∧ (t.leader n).level = g.leader.level ∧
        (t.leader n).mm = g.leader.mm ∧ (t.leader n).bmr = g.leader.bmr ∧ (t.leader n).scratch = g.leader.scratch ∧ (t.leader n).rowq = g.leader.rowq ∧
        (t.leader n).csr.tstate = g.leader.csr.tstate ∧ (t.leader n).csr.fflags = g.leader.csr.fflags ||| g.flags ∧
        (t.leader n).bind = (s.leader n).bind ∧ (∀ h, tget none t.frames (s.frameAddr b) = some h → h.v = false) ∧
        ((∀ e ∈ g.openRows, e.2.1 < 8) → ∀ a, (∀ e ∈ s.frames, a < e.1 ∨ e.1 + imageLen ≤ a) → memByte t.rows a = memByte s.rows a)) ∧
    ((∀ g, s.readFrame (s.frameAddr b) f = some g → g.fits b n = false) → b.ctx ≠ 0 → (s.ctx b.ctx).st = 1 → (s.ctx b.ctx).inn = b.inn →
      Ends (.restore n) s fun t => KillStarted b.ctx b.inn s t ∧ (t.leader n).run = false ∧ t.ring.head = s.ring.head + 2))

/-- R399, R400: a rewind gives the leader its checkpoint back, drops the strip's held stores and later entries, clears its banks' traps, and marks the
strip as rewound. R37, R381, R393: a task that has overrun a budget stops: its threads run no further and its requests that wait at the hub go; once its
copies, banks and arrays have come to their stops it ends: its own unpublished writes are dropped, its ropes released, and the stop is recorded. -/
def Obligations.RewindAndBudget : Prop :=
  (∀ (s : State) (n : Nat) (tr : TrapRec) (st : LStrip), (s.leader n).rewind = some tr → (s.leader n).strip = some st → Free s n → (s.leader n).run = true →
    (s.leader n).killed = false → Ends (.stripRewind n) s fun t => (t.leader n).pc = st.addr ∧ (t.leader n).loops = st.loops ∧ (t.leader n).gates = st.gates ∧
      (t.leader n).level = st.level ∧ (t.leader n).mm = st.mm ∧ (t.leader n).bmr = st.bmr ∧ (t.leader n).rewind = none ∧
      (∀ e, e ∈ (t.leader n).rowq ↔ e ∈ (s.leader n).rowq ∧ e.num ≤ st.entry) ∧
      (∀ p, p ∈ t.pend ↔ p ∈ s.pend ∧ ¬ (p.strip = true ∧ p.task = (s.leader n).taskOf ∧ agentRope p.agent = n)) ∧
      (∃ u, (t.leader n).strip = some u ∧ u.rewound = true ∧ u.spoiled = false ∧ u.bytes = 0 ∧ u.scr = []) ∧
      (∀ i, i < 32 → (t.bank (bankOf n i)).trap = none ∧ (t.bank (bankOf n i)).disp = 0) ∧
      (∀ r v m, st.xs = [(r, v, m)] → r ≠ 0 → t.xr n r = v) ∧ (∀ r, (∀ e ∈ st.xs, e.1 ≠ r) → t.xr n r = s.xr n r) ∧
      (t.leader n).scratch = (s.leader n).scratch ∧ (∀ m, m ≠ n → t.leader m = s.leader m)) ∧
  (∀ (s : State) (k why : Nat), (s.task k).alive = true → (s.task k).stop = 0 → (s.task k).overrun = some why → why ≠ 0 →
    let u := s.stopTask k why
    ((∃ n ∈ s.ropesOf k, (s.leader n).bind.isSome = true ∧ (s.leader n).taskOf = k ∧ u.settledAt n = false) →
      Ends (.budgetStop k) s fun t => (t.task k).stop = why ∧ (t.task k).ended = false ∧ t = u ∧ BytesKept s t ∧
        (∀ n, n < 192 → (s.leader n).bind.isSome = true → (s.leader n).taskOf = k → (t.leader n).run = false) ∧
        (∀ e ∈ t.weights.stages, e.2.task ≠ k) ∧ ∀ e ∈ t.weights.consigns, e.2.task ≠ k) ∧
    ((∀ n ∈ s.ropesOf k, (s.leader n).bind.isSome = true → (s.leader n).taskOf = k → u.settledAt n = true) → Ends (.budgetStop k) s (StoppedFor k s))) ∧
  (∀ (s : State) (k : Nat), (s.task k).alive = true → (s.task k).stop ≠ 0 →
    (∀ n ∈ s.ropesOf k, (s.leader n).bind.isSome = true → (s.leader n).taskOf = k → s.settledAt n = true) → Ends (.budgetStop k) s (StoppedFor k s))

/-- R360, R364, R365: KILL of a LIVE incarnation, and the operator's kill, start its kill in one step; KILL answers with the next
incarnation, with bit 62 for a tag that is not LIVE and with bit 63 for one that is DYING; a malformed tag is illegal. RECLAIM waits while the tag's fence is outstanding. -/
def Sys2Proof.Claims.KillAndReclaim : Prop :=
  (∀ (d a : BitVec 5) (s : State) (n : Nat), Ready s n [a.toNat] → (s.leader n).level = 2 →
    let T := (s.xr n a.toNat).toNat
    let c := T / 2 ^ 14 % 2 ^ 10
    let i := T % 2 ^ 14
    (T / 2 ^ 24 % 2 ^ 39 = 0 → c ≠ 0 →
      ((s.ctx c).st = 1 → (s.ctx c).inn = i → Ends (.kill d a) s fun t => KillStarted c i s t ∧
        t.xr n d.toNat = (if d = 0 then 0 else BitVec.ofNat 64 (c * 2 ^ 14 + nextIn (s.ctx c).q i))) ∧
      ((s.ctx c).st = 2 → Ends (.kill d a) s (Writes n d.toNat 4 (fun v => v = 0x8000000000000000) s)) ∧
      ((s.ctx c).st ≠ 2 → (s.ctx c).st ≠ 1 ∨ (s.ctx c).inn ≠ i → Ends (.kill d a) s (Writes n d.toNat 4 (fun v => v = 0x4000000000000000) s))) ∧
    (Free s n → T / 2 ^ 24 % 2 ^ 39 ≠ 0 ∨ c = 0 → Ends (.kill d a) s (Trapped n 0x01 (s.xr n a.toNat) 0 s)) ∧
    (T / 2 ^ 24 = 0 → (∀ k ∈ (s.ctx c).kill, k.1 ≠ i) →
      let never := (∀ x ∈ (s.ctx c).fenced, x.1 ≠ i) ∨ ((s.ctx c).st = 1 ∧ (s.ctx c).inn = i)
      (never → Ends (.reclaim d a) s (Writes n d.toNat 4 (fun v => v = BitVec.ofNat 64 (2 ^ 62 + c * 2 ^ 14 + (s.ctx c).inn)) s)) ∧
      (∀ before after quar, ¬ never → (s.ctx c).fenced = before ++ (i, quar) :: after → (∀ x ∈ before, x.1 ≠ i) →
        Ends (.reclaim d a) s (Writes n d.toNat 4 (fun v => v = BitVec.ofNat 64 ((if quar then 2 ^ 63 else 0) + c * 2 ^ 14 + (s.ctx c).inn)) s))) ∧
    (T / 2 ^ 24 = 0 → (∃ k ∈ (s.ctx c).kill, k.1 = i) → Ends (.reclaim d a) s (Waits n 0x0B s)) ∧
    (Free s n → T / 2 ^ 24 ≠ 0 → Ends (.reclaim d a) s (Trapped n 0x01 (s.xr n a.toNat) 0 s))) ∧
  (∀ (s : State) (c i : Nat) (free : Bool), c ≠ 0 → (s.ctx c).st = 1 → (s.ctx c).inn = i →
    Ends (.operatorKillRequest c i free) s (KillStarted c i s))

/-- R281, R359 to R363: each agent group reclaims the dying tag once and acknowledges, the ports passing the kill on to the context's parts; when all have,
the fence completes and the context is FREE or LIVE under its next incarnation, one whose part stays silent for 200 µs from that sending being quarantined
until the last such part answers, which is announced; the lists of other parts' dead tags follow their kills, which are acknowledged, and announcements. -/
def Sys2Proof.Claims.KillFences : Prop :=
  (∀ (s : State) (c agent i mask at_ : Nat) (free : Bool), (s.ctx c).kill = some (i, free, mask, at_) → agent < 8 → mask / 2 ^ agent % 2 = 1 →
    Ends (.reclaimWaveArrival c agent) s fun t => (t.ctx c).kill = some (i, free, mask - 2 ^ agent, if agent = 5 then s.cycle else at_) ∧
      ((agent = 4 → s.frames = []) → ∀ a, Calm s a → (∀ e ∈ s.frames, a / 8 * 8 + 8 ≤ e.1 ∨ e.1 + imageLen ≤ a / 8 * 8) → t.rowByte a = s.rowByte a) ∧
      (agent = 0 → ∀ n, n < 192 → (s.leader n).bind.isSome = true → (s.leader n).ctxOf = c → (s.leader n).innOf = i → threadGone n t) ∧
      (agent = 1 → (∀ p ∈ t.pend, p.agent / 8192 = Config.partNumber → ¬ (p.ctx = c ∧ p.inn = i)) ∧ ∀ r ∈ t.reqs, r.ctx = c → r.inn = i → r.done = true) ∧
      (agent = 3 → ∀ k, (s.array k).ctx = c → (s.array k).inn = i → (t.array k).lines = [] ∧ (t.array k).stream0 = []) ∧
      (agent = 5 → t.hub.portOut = s.hub.portOut ++ (s.ctx c).parts.map fun p => .kill p c i)) ∧
  (∀ (s : State) (c i at_ : Nat) (free : Bool), (s.ctx c).kill = some (i, free, 0, at_) →
    ((s.ctx c).parts = [] → Ends (.fenceComplete c) s fun t => (t.ctx c).kill = none ∧ (t.ctx c).st = (if free then 0 else 1) ∧
      (t.ctx c).inn = (s.ctx c).inn ∧ (t.ctx c).rplX = false ∧ (t.ctx c).engaged = [] ∧ (i, false) ∈ (t.ctx c).fenced ∧ BytesCalm s t) ∧
    (∀ q, (s.ctx c).parts ≠ [] → at_ + 500000 ≤ s.cycle → (s.ctx c).freeQ = some q → Ends (.fenceComplete c) s fun t =>
      (t.ctx c).kill = none ∧ (t.ctx c).st = (if free then 0 else 1) ∧ tget none (t.ctx c).q q = some i ∧ (i, true) ∈ (t.ctx c).fenced ∧
      (∀ p ∈ (s.ctx c).parts, (i, p) ∈ (t.ctx c).silent) ∧ BytesCalm s t) ∧
    ((s.ctx c).parts ≠ [] → s.cycle < at_ + 500000 → Ends (.fenceComplete c) s fun t => t = s)) ∧
  (∀ (s : State) (c i part k : Nat), i < 16384 → k < 8 → tget none (s.ctx c).q k = some i → (∀ j, j < k → tget none (s.ctx c).q j ≠ some i) → (s.ctx c).lack = none →
    ((∀ y ∈ (s.ctx c).silent, y.1 = i → y.2 = part) → Ends (.quarantineClear c (part * 16384 + i)) s fun t =>
      tget none (t.ctx c).q k = none ∧ (∀ d, d ≠ c → t.ctx d = s.ctx d) ∧ t.hub.portOut = s.hub.portOut ++ [.announce c i] ∧
      t = { s with ctxs := t.ctxs, hub := { s.hub with portOut := t.hub.portOut } }) ∧
    ((∃ y ∈ (s.ctx c).silent, y.1 = i ∧ y.2 ≠ part) → Ends (.quarantineClear c (part * 16384 + i)) s fun t =>
      tget none (t.ctx c).q k = some i ∧ (i, part) ∉ (t.ctx c).silent ∧ (∀ d, d ≠ c → t.ctx d = s.ctx d) ∧ t = { s with ctxs := t.ctxs })) ∧
  (∀ (s : State) (part c i : Nat),
    (Ends (.remoteKillArrival part c i) s fun t => (part, c, i) ∈ t.hub.remoteTags ∧ (∀ x ∈ s.hub.remoteTags, x ∈ t.hub.remoteTags) ∧
      t.hub.portOut = s.hub.portOut ++ [.ack part c i] ∧ (∀ a ∈ t.amos, a.task ≠ tagTask part c i) ∧
      (∀ a ∈ t.hub.answers, ¬ (a.agent / 8192 = part ∧ a.ctx = c ∧ a.inn = i)) ∧
      (part ≠ Config.partNumber → ∀ p ∈ t.pend, ¬ (p.agent / 8192 = part ∧ p.ctx = c ∧ p.inn = i))) ∧
    (Ends (.quarantineAnnouncementArrival part c i) s fun t => ∀ x, x ∈ t.hub.remoteTags ↔ x ∈ s.hub.remoteTags ∧ x ≠ (part, c, i)))

/-- Kills begin in one step; their reclaim waves and fences end the incarnation: `KillAndReclaim`, `KillFences` together. -/
def Obligations.KillsAndFences : Prop := KillAndReclaim ∧ KillFences

/-- R142 to R150, R173: a lane instruction whose checks pass completes; it changes only the elements, y register, predicate bits, flags
and length-queue entry that it writes, and every other register, byte and bank holds what it held. -/
def Obligations.LaneEffects : Prop :=
  ∀ (i : Instr) (s : State) (g : Nat) (mk : Bank → LaneSpec), laneSpecOf i = some mk → LaneReady mk s g →
    let sp := mk (s.bank g)
    let o := sp.out
    Ends i s fun t => LaneEnds g sp s t ∧
      (∀ k, (∀ q ∈ sp.regs, q.1 ≠ k) → t.slot g k = s.slot g k) ∧
      (∀ k, (∀ w ∈ o.rows, w.k ≠ k) → SlotScored (s.slot g k) (t.slot g k)) ∧ (∀ k, SlotWritten (s.slot g k) (t.slot g k)) ∧
      (∀ k j, ¬ writesByte o k j → rowGetByte (t.slot g k).latch j = rowGetByte (s.slot g k).latch j) ∧
      (∀ r, (∀ v, o.y ≠ some (r, v)) → (t.bank g).yr r = (s.bank g).yr r) ∧
      (∀ r v, o.y = some (r, v) → (t.bank g).yr r = if r = 0 then 0 else v) ∧
      (∀ r k, (∀ v m, o.p = some (r, v, m) → m.getLsbD k = false) → ((t.bank g).pr r).getLsbD k = ((s.bank g).pr r).getLsbD k) ∧
      (∀ r v m, o.p = some (r, v, m) → (t.bank g).pr r = if r = 0 then BitVec.allOnes 12288 else v) ∧
      (t.bank g).fflags = (s.bank g).fflags ||| o.fl ∧ (t.bank g).vxsat = ((s.bank g).vxsat || o.sat) ∧
      (t.bank g).lq = (s.bank g).lq ++ o.push.toList

/-- R144, R152 to R155, R160: each element-wise instruction has these formats and this limit, writes this result to every active element of
vd, and sets VXSAT exactly when a result saturates. -/
def Obligations.ElementResults : Prop :=
  ∀ (i : Instr) (s : State) (g : Nat) (R : ElRow) (mk : Bank → LaneSpec), laneEl i = some R → laneSpecOf i = some mk → LaneReady mk s g →
    let b := s.bank g
    let F := effFmt b.vt R.e
    let n := esizeOf F
    R.ok F ∧ b.vl * (n * max R.md R.ma) ≤ rowLimit b.vt ∧
    Ends i s fun t =>
      (∀ j, isActive b R.p n j →
        R.val b F (8 * n) j (elAt s g R.a (R.ma * n) j) (R.q.get b n j) (elAt s g R.d (R.md * n) j) (elAt t g R.d (R.md * n) j)) ∧
      ((t.bank g).vxsat = true ↔ b.vxsat = true ∨
        ∃ j, isActive b R.p n j ∧ R.sat b (8 * n) (elAt s g R.a (R.ma * n) j) (R.q.get b n j))

/-- R152, R160 to R162, R170: VSEL, the slides, VPERM, VCOMPRESS, VEXT and VINS move elements as stated; sources are read before anything is
written. -/
def Obligations.LaneMoves : Prop :=
  ∀ (i : Instr) (s : State) (g : Nat) (mk : Bank → LaneSpec), laneSpecOf i = some mk → LaneReady mk s g →
    let b := s.bank g
    (∀ d a q p e, selOp i = some (d, a, q, p, e) → Ends i s fun t => ∀ j, j < b.vl →
      let n := esizeOf (effFmt b.vt e)
      elAt t g d n j = if (b.pr p.toNat).getLsbD (n * j) then elAt s g a n j else q.get b n j) ∧
    (∀ up d a p e fills y, slideOp i = some (up, d, a, p, e, fills, y) → Ends i s fun t =>
      let n := esizeOf (effFmt b.vt e)
      let k := (b.yr y.toNat).toNat
      ∀ j, isActive b p n j → elAt t g d n j =
        if up = true ∧ k ≤ j then elAt s g a n (j - k) else if up = false ∧ j + k < b.vl then elAt s g a n (j + k)
        else if fills then (b.yr (y.toNat + 1)).toNat % 2 ^ (8 * n) else elAt s g d n j) ∧
    (∀ d a v p e x, i = .vperm d a v p e x → Ends i s fun t =>
      let n := esizeOf (effFmt b.vt e)
      ∀ j, isActive b p n j → elAt t g d n j =
        if elAt s g v (if x = 1 then 2 else n) j < b.vl then elAt s g a n (elAt s g v (if x = 1 then 2 else n) j) else 0) ∧
    (∀ d a p e, i = .vcompress d a p e → Ends i s fun t =>
      let n := esizeOf (effFmt b.vt e)
      ∀ act, act = (List.range b.vl).filter (fun j => (b.pr p.toNat).getLsbD (n * j)) →
        (∀ m (h : m < act.length), elAt t g d n m = elAt s g a n act[m]) ∧
        ∀ m, act.length ≤ m → m < b.vl → elAt t g d n m = elAt s g d n m) ∧
    (∀ d a k, i = .vext d a k → Ends i s fun t => d ≠ 0 →
      ((b.yr a.toNat).toNat < b.vl → extendsTo (vtEF b.vt) (elAt s g k (esizeOf (vtEF b.vt)) (b.yr a.toNat).toNat) ((t.bank g).yr d.toNat)) ∧
      (b.vl ≤ (b.yr a.toNat).toNat → (t.bank g).yr d.toNat = 0)) ∧
    (∀ a c k, i = .vins a c k → (b.yr c.toNat).toNat < b.vl → b.vl * esizeOf (vtEF b.vt) ≤ 12288 → Ends i s fun t =>
      elAt t g k (esizeOf (vtEF b.vt)) (b.yr c.toNat).toNat = (b.yr a.toNat).toNat % 2 ^ (8 * esizeOf (vtEF b.vt)))

/-- R156 to R159, R79: compares and predicate operations write the stated bits of their predicate and no other; counts and reductions write
their y register, VPOPC.q also the length queue. p0 stays all ones. -/
def Obligations.PredicatesAndReductions : Prop :=
  ∀ (i : Instr) (s : State) (g : Nat) (mk : Bank → LaneSpec), i.wf = true → laneSpecOf i = some mk → LaneReady mk s g →
    let b := s.bank g
    (∀ d a q p e C, cmpOp i = some (d, a, q, p, e, C) → Ends i s fun t =>
      let F := effFmt b.vt e
      let n := esizeOf F
      (∀ j, isActive b p n j → (((t.bank g).pr d.toNat).getLsbD (n * j) = true ↔ C b F (8 * n) (elAt s g a n j) (q.get b n j))) ∧
      ∀ k, (∀ j, isActive b p n j → k ≠ n * j) → ((t.bank g).pr d.toNat).getLsbD k = (b.pr d.toNat).getLsbD k) ∧
    (∀ d a c p f, predOp i = some (d, a, c, p, f) → Ends i s fun t => ∀ k, k < 12288 →
      ((t.bank g).pr d.toNat).getLsbD k = if d = 0 then true else if (b.pr p.toNat).getLsbD k
        then f ((b.pr a.toNat).getLsbD k) ((b.pr c.toNat).getLsbD k) else (b.pr d.toNat).getLsbD k) ∧
    (∀ first push a p e y, countOp i = some (first, push, a, p, e, y) → Ends i s fun t =>
      let n := esizeOf (effFmt b.vt e)
      ∀ hit, hit = ((List.range b.vl).filter fun j => (b.pr p.toNat).getLsbD (n * j) && (b.pr a.toNat).getLsbD (n * j)) →
        (t.bank g).lq = b.lq ++ (if push then [hit.length] else []) ∧
        (y ≠ 0 → (t.bank g).yr y.toNat = if first then (match hit.head? with | some j => BitVec.ofNat 64 j | none => BitVec.allOnes 64)
                                        else BitVec.ofNat 64 hit.length)) ∧
    (∀ a p e y P, reduceOp i = some (a, p, e, y, P) → y ≠ 0 → Ends i s fun t =>
      let F := effFmt b.vt e
      let n := esizeOf F
      ∃ v, extendsTo F v ((t.bank g).yr y.toNat) ∧
        P b F ((List.range b.vl).map fun j => if (b.pr p.toNat).getLsbD (n * j) then some (elAt s g a n j) else none) v)

/-- R166 to R168, R72 to R74: VCVT converts each active element; the packing instructions write the packed elements, planes and scale bytes
of their blocks, VBPISPLIT no scale past its last block, and the unpacking ones the value of every packed element, VUNPACKMX's exactly when it
fits. -/
def Obligations.LaneConversions : Prop :=
  ∀ (i : Instr) (s : State) (g : Nat) (mk : Bank → LaneSpec), i.wf = true → laneSpecOf i = some mk → LaneReady mk s g →
    let b := s.bank g
    (∀ d a p e f, i = .vcvt d a p e f → Ends i s fun t =>
      let S := effFmt b.vt e
      let D := f.toNat
      ∀ j, isActive b p (esizeOf S) j →
        let x := elAt s g a (esizeOf S) j
        let v := elAt t g d (esizeOf D) j
        v = (cvtEl b S D x).1 % 2 ^ (8 * esizeOf D) ∧
        (S < 8 → D < 8 →
          let z := if S < 4 then sg x (8 * esizeOf S) else (x : Int)
          isZ (if D < 4 then clampS z (8 * esizeOf D) else clampU z (8 * esizeOf D)) (8 * esizeOf D) v)) ∧
    (∀ d a c l e f, i = .vpackmx d a c l e f → Ends i s fun t => ∀ G n, fmtOf (effFmt b.vt e) = some G → n < b.vl / 32 →
      let q := blockOf b (effFmt b.vt e) f.toNat a n G
      (rowGetByte (t.slot g c.toNat).latch (768 * l.toNat + n)).toNat = q.1 % 256 ∧
      ∀ j, j < 32 → packGet (t.slot g d.toNat).latch 0 (mxWidth f.toNat) (32 * n + j) = q.2.1.getD j 0 % 2 ^ mxWidth f.toNat) ∧
    (∀ d a c l f, i = .vunpackmx d a c l f → Ends i s fun t =>
      let S := vtEF b.vt
      ∀ G j, fmtOf f.toNat = some G → j < 8 * b.vl / mxWidth S →
        let v := scaled (rowGetByte (s.slot g c.toNat).latch (768 * l.toNat + j / 32)).toNat
          (packedElem S (packGet (s.slot g a.toNat).latch 0 (mxWidth S) j))
        let fits := roundFp G b.frm.toNat 0 v
        elAt t g d (esizeOf f.toNat) j =
          (if fits.2 = 0 then fits.1 else (roundFp G b.frm.toNat (vtFZ b.vt) v).1) % 2 ^ (8 * esizeOf f.toNat)) ∧
    (∀ d a c l e f, i = .vbpisplit d a c l e f → Ends i s fun t => ∀ G n, fmtOf (effFmt b.vt e) = some G → n < b.vl / 32 →
      let q := blockOf b (effFmt b.vt e) f.toNat a n G
      (rowGetByte (t.slot g c.toNat).latch (768 * l.toNat + n)).toNat = q.1 % 256 ∧
      (∀ m, b.vl / 32 ≤ m → m < 768 → rowGetByte (t.slot g c.toNat).latch (768 * l.toNat + m) = rowGetByte (s.slot g c.toNat).latch (768 * l.toNat + m)) ∧
      ∀ j k, j < 32 → k < 8 → (rowGetByte (t.slot g d.toNat).latch (planeStride b.vt * k + (32 * n + j) / 8)).getLsbD (j % 8) =
        (q.2.1.getD j 0).testBit (7 - k)) ∧
    (∀ d a c l f, i = .vbpijoin d a c l f → Ends i s fun t =>
      ∀ G j, fmtOf f.toNat = some G → j < 8 * b.vl →
        elAt t g d (esizeOf f.toNat) j = (roundFp G b.frm.toNat (vtFZ b.vt)
          (scaled (rowGetByte (s.slot g c.toNat).latch (768 * l.toNat + j / 32)).toNat
            (bpiVal (vtEF b.vt) (planeElem (s.slot g a.toNat).latch (planeStride b.vt) (bpiPlanes (vtEF b.vt)) j)))).1
          % 2 ^ (8 * esizeOf f.toNat))

/-- R137, R169, R171, R238: each bank-scalar instruction writes its result to its y register, y0 staying zero, and YCSR the bank CSR it names;
nothing else changes. -/
def Obligations.BankScalars : Prop :=
  (∀ (i : Instr) (s : State) (g d len : Nat) (P : Word → Prop), i.wf = true → yOp (s.bank g).yr i = some (d, len, P) → s.cur = .bank g →
    Ends i s fun t => (∃ v, P v ∧ (t.bank g).yr d = if d = 0 then 0 else v) ∧ (∀ r, r ≠ d → (t.bank g).yr r = (s.bank g).yr r) ∧
      BankEnds g len s t ∧ SlotsKept g s t ∧ PredsKept g s t ∧ FlagsKept g s t) ∧
  (∀ (d : BitVec 4) (n : BitVec 11) (s : State) (g : Nat), Instr.wf (.ycsr d n) = true → s.cur = .bank g →
    Ends (.ycsr d n) s fun t => (∃ v, bankCsrIs s g n.toNat v ∧ (t.bank g).yr d.toNat = if d = 0 then 0 else v) ∧
      (∀ r, r ≠ d.toNat → (t.bank g).yr r = (s.bank g).yr r) ∧ BankEnds g 4 s t ∧ SlotsKept g s t ∧ PredsKept g s t ∧ FlagsKept g s t)

/-- R137, R138, R172, R173: YB goes on at its target or at the next word; YLOOP pushes its body or skips it on a zero count; TFETCH starts its
block and STOP ends the block. -/
def Obligations.BlockControl : Prop :=
  (∀ (c a b : BitVec 4) (o : BitVec 11) (s : State) (g words : Nat) (r : BlockRun), Instr.wf (.yb c a b o) = true → Running s g r words →
    0 ≤ (r.wpos : Int) + o.toInt → (r.wpos : Int) + o.toInt < words →
    Ends (.yb c a b o) s fun t => OnlyBlock g s t ∧
      (yHolds c.toNat ((s.bank g).yr a.toNat) ((s.bank g).yr b.toNat) → (t.bank g).loops = (s.bank g).loops ∧
        (t.bank g).run = some { r with wpos := ((r.wpos : Int) + o.toInt).toNat }) ∧
      (¬ yHolds c.toNat ((s.bank g).yr a.toNat) ((s.bank g).yr b.toNat) → BankSequenced g 4 s t)) ∧
  (∀ (a : BitVec 4) (o : BitVec 11) (s : State) (g words : Nat) (r : BlockRun), Instr.wf (.yloop a o) = true → Running s g r words →
    r.wpos + o.toNat < words → badLoopEnd (s.blockWord g (r.wpos + o.toNat)) = false → (s.bank g).loops.length < 6 →
    Ends (.yloop a o) s fun t => OnlyBlock g s t ∧
      ((s.bank g).yr a.toNat ≠ 0 → (t.bank g).run = some { r with wpos := r.wpos + 1 } ∧ (t.bank g).loops =
        { start := r.wpos + 1, last := r.wpos + o.toNat, count := ((s.bank g).yr a.toNat).toNat } :: (s.bank g).loops) ∧
      ((s.bank g).yr a.toNat = 0 → r.wpos + o.toNat + 1 < words →
        (t.bank g).run = some { r with wpos := r.wpos + o.toNat + 1 } ∧ (t.bank g).loops = (s.bank g).loops) ∧
      ((s.bank g).yr a.toNat = 0 → words ≤ r.wpos + o.toNat + 1 → (s.bank g).loops = [] → (t.bank g).run = none)) ∧
  (∀ (a : BitVec 4) (s : State) (g words : Nat) (r : BlockRun), Running s g r words → (s.bank g).loops = [] →
    (blockDesc ((s.bank g).yr a.toNat).toNat → Ends (.tfetch a) s fun t => OnlyBlock g s t ∧ (t.bank g).tfetch = true ∧
      ∃ q, (t.bank g).run = some q ∧ q.desc = ((s.bank g).yr a.toNat).toNat ∧ q.wpos = 0 ∧ q.entry = none ∧ q.coll = none) ∧
    Ends .stop s fun t => OnlyBlock g s t ∧ (t.bank g).run = none)

/-- R44, R54, R138, R145, R146, R150, R170, R172, R173, R297, R402: a bank instruction whose checks fail traps at the bank and changes nothing
else: its first failing check decides the cause; it waits for busy lanes, for a register still in use and for an opening one. A damaged operand or
differing lane halves trap it and leave what it was to write unspecified. -/
def Obligations.BankRefusals : Prop :=
  (∀ (i : Instr) (s : State) (g : Nat) (mk : Bank → LaneSpec), laneSpecOf i = some mk → s.cur = .bank g →
    let sp := mk (s.bank g)
    (s.cycle < (s.bank g).laneAt ∨ s.laneHeld g sp = true → Ends i s (BankWaits g 1 s)) ∧
    ((s.bank g).laneAt ≤ s.cycle → s.laneHeld g sp = false → sp.okFmt = false ∨ sp.okLim = false →
      Ends i s (BankTrapped g .illegal (wordOf i) 0 s)) ∧
    ((s.bank g).laneAt ≤ s.cycle → s.laneHeld g sp = false → sp.okFmt = true → sp.okLim = true →
      (s.rowsChk g sp.regs = .wait → Ends i s (BankWaits g 1 s)) ∧
      (∀ c v e, s.rowsChk g sp.regs = .bad c v e → c ≠ .permission → Ends i s (BankTrapped g c v e s)) ∧
      (∀ v e, s.rowsChk g sp.regs = .bad .permission v e → Ends i s fun t => (∃ tr, (t.bank g).trap = some tr ∧ tr.cause = .permission) ∧
        t = { s with banks := t.banks, free := t.free } ∧ t.bank g = { s.bank g with trap := (t.bank g).trap } ∧ ∀ h, h ≠ g → t.bank h = s.bank h) ∧
      (∀ k w el, s.rowsChk g sp.regs = .ok → (s.bank g).firstPoison sp.needs = some (k, w, el) → (s.bank g).strip = none →
        Ends i s (Spoiled g sp.out .ueConsumed (BitVec.ofNat 64 (rowAddr g k (s.slot g k).row (8 * w))) (BitVec.ofNat 64 el) s)) ∧
      (s.rowsChk g sp.regs = .ok → (s.bank g).firstPoison sp.needs = none →
        (sp.out.push ≠ none → 16 ≤ (s.bank g).lq.length → Ends i s (BankTrapped g .lqEmpty 16 0 s)) ∧
        (∀ el, (sp.out.push ≠ none → (s.bank g).lq.length < 16) → (s.bank g).mismatch sp = some el → (s.bank g).strip = none →
          Ends i s (Spoiled g sp.out .sdc 0 (BitVec.ofNat 64 el) s))))) ∧
  (∀ (s : State) (g k : Nat) (write : Bool),
    ((s.seenSlot g k).st = .closed ∨ (s.seenSlot g k).st = .closing → (s.seenSlot g k).wp = false →
      s.rowChk g k write = .bad .rowState (s.rowStatus g k) 0) ∧
    ((s.seenSlot g k).st = .commitPending → (s.seenSlot g k).wp = false → s.rowChk g k true = .bad .rowState (s.rowStatus g k) 0) ∧
    ((s.seenSlot g k).st = .commitPending → s.rowChk g k false = .ok) ∧
    ((s.seenSlot g k).st = .openClean ∨ (s.seenSlot g k).st = .openDirty → (write = true → (s.seenSlot g k).wp = false) → s.rowChk g k write = .ok)) ∧
  (∀ (c a b : BitVec 4) (o : BitVec 11) (s : State) (g words : Nat) (r : BlockRun), Running s g r words →
    ((r.wpos : Int) + o.toInt < 0 ∨ (words : Int) ≤ (r.wpos : Int) + o.toInt →
      Ends (.yb c a b o) s (BankTrapped g .illegal (wordOf (.yb c a b o)) 0 s)) ∧
    (words ≤ r.wpos + o.toNat ∨ badLoopEnd (s.blockWord g (r.wpos + o.toNat)) = true ∨ 6 ≤ (s.bank g).loops.length →
      Ends (.yloop a o) s (BankTrapped g .illegal (wordOf (.yloop a o)) 0 s)) ∧
    ((s.bank g).loops ≠ [] ∨ ¬ blockDesc ((s.bank g).yr a.toNat).toNat → Ends (.tfetch a) s (BankTrapped g .illegal (wordOf (.tfetch a)) 0 s)) ∧
    ((s.bank g).loops ≠ [] → Ends .stop s (BankTrapped g .illegal (wordOf .stop) 0 s))) ∧
  (∀ (w v : BitVec 32) (s : State),
    (∀ g, s.cur = .bank g → Ends (.illegalInstructionWord w v) s (BankTrapped g .illegal (tv w v) 0 s)) ∧
    (∀ n, s.cur = .leader n → Free s n → Ends (.illegalInstructionWord w v) s (Trapped n 0x01 (tv w v) 0 s)))

/-- R112, R117 to R119, R255: ACT and ACTW of a closed slot take a permit and open the register with the row, whose bytes ACT senses; it opens after
30 or 10 cycles. No memory byte changes. The first of an owner in its PRIVATE region engages it and waits; a row that the bank may not open traps. -/
def Obligations.RowsOpen : Prop :=
  (∀ (i : Instr) (s : State) (g k n : Nat) (w : Bool), actOp i = some (k, n, w) → s.cur = .bank g →
    let row := (s.bank g).yr n
    let q := row.toNat
    (1024 ≤ q → Ends i s (BankTrapped g .illegal row 0 s)) ∧
    (q < 1024 → Idle s g k →
      ((s.bank g).rowRegion g k q = none → Ends i s (BankTrapped g .regionMiss row 0 s)) ∧
      (∀ e, (s.bank g).rowRegion g k q = some e → ¬ MayOpen s g k q w e → Ends i s (BankTrapped g .permission row 0 s)) ∧
      ∀ e, MayOpen s g k q w e →
        (s.unengaged g e = true → Ends i s fun t => (∃ x ∈ (t.ctx (s.bankTag g).1).engaged, x.1 = e.idx) ∧ (t.bank g).engTo = s.cycle + 40 ∧
          (t.bank g).run = (s.bank g).run ∧ SlotsKept g s t ∧ RegsKept g s t ∧ BytesCalm s t) ∧
        (s.engaging g e = false → s.readsPend g e = false → ActTimes s g → PermitFree s g →
          Ends i s fun t => BankSequenced g 4 s t ∧ OnlyRowState s t ∧ OtherSlots g k s t ∧ BankRowKept (s.bank g) (t.bank g) ∧
            TakesPermit g 0 (if w then 10 else 30) s t ∧
            (t.slot g k).st = .opening ∧ (t.slot g k).row = q ∧ ((t.slot g k).ctx, (t.slot g k).inn) = s.bankTag g ∧
            (t.slot g k).until_ = s.cycle + (if w then 10 else 30) ∧ ((t.slot g k).wp = true ↔ e.mayW = false) ∧ (t.slot g k).cr = 0 ∧
            (t.slot g k).debt = (s.slot g k).debt ∧ (t.slot g k).sw = false ∧ (t.slot g k).cw = 0 ∧
            (w = true → (t.slot g k).latch = 0 ∧ (t.slot g k).poison = 0) ∧
            (w = false → Mem.wf s.rows = true → s.ecc = [] → (∀ p ∈ s.pend, p.wb = false) →
              (t.slot g k).poison = 0 ∧ ∀ j, j < 12288 → rowGetByte (t.slot g k).latch j = s.rowByte (rowAddr g k q j))))) ∧
  (∀ (s : State) (g k : Nat), (s.slot g k).st = .opening → (s.slot g k).until_ ≤ s.cycle → (s.slot g k).preReq = false → (s.slot g k).forced = 0 →
    Ends (.rowOpenComplete g k) s fun t => t.slot g k = { s.slot g k with st := (t.slot g k).st, wbing := false } ∧
      (t.slot g k).st = (if (s.slot g k).wbing then .openDirty else .openClean) ∧ OneSlot g k s t ∧ OnlyRowState s t)

/-- R113, R114, R120 to R122, R304, R308: WB makes a dirty register commit-pending, PRE closes a clean one or asks a pending one to close, PRED gives
the latch up at once and closes once tRAS has passed, and REF refreshes 8 rows of a closed slot and lowers its debt; no memory byte changes. -/
def Sys2Proof.Claims.RowStateInstructions : Prop :=
  ∀ (s : State) (g : Nat) (d : BitVec 3), s.cur = .bank g →
    let k := d.toNat
    let sl := s.slot g k
    (LanesPast s g k →
      (Own s g k →
        (sl.st = .openDirty → sl.wrAt = 0 ∨ sl.wrAt + 25 ≤ s.cycle → Ends (.wb d) s fun t => BankEnds g 4 s t ∧ OtherSlots g k s t ∧ RegsKept g s t ∧
          t.slot g k = { sl with st := .commitPending, cw := (t.slot g k).cw, wbing := false, wbAt := s.cycle } ∧
          (t.slot g k).cw = if (s.bank g).strip ≠ none ∧ sl.sw = true then 1 else if sl.pub ≠ 0 then 2 else 0) ∧
        (sl.st = .openClean ∨ sl.st = .commitPending → Ends (.wb d) s fun t => BankEnds g 4 s t ∧ SlotsKept g s t ∧ RegsKept g s t) ∧
        (sl.st = .openClean → RasOk s g k → Ends (.pre d) s fun t => BankSequenced g 4 s t ∧ OnlyRowState s t ∧ OtherSlots g k s t ∧
          BankRowKept (s.bank g) (t.bank g) ∧ Closing s t g k sl.forced) ∧
        (sl.st = .commitPending → Ends (.pre d) s fun t => BankEnds g 4 s t ∧ OtherSlots g k s t ∧ RegsKept g s t ∧ t.slot g k = { sl with cc := true }) ∧
        (sl.st = .openClean ∨ sl.st = .openDirty ∨ (sl.st = .commitPending ∧ sl.wbing = false) →
          (RasOk s g k → Ends (.pred d) s fun t => BankSequenced g 4 s t ∧ OnlyRowState s t ∧ OtherSlots g k s t ∧
            BankRowKept (s.bank g) (t.bank g) ∧ Closing s t g k sl.forced) ∧
          (¬ RasOk s g k → Ends (.pred d) s fun t => OnlyRowState s t ∧ OtherSlots g k s t ∧ (t.bank g).run = (s.bank g).run ∧ RegsKept g s t ∧
            t.slot g k = { sl with st := .openClean, cw := 0, cc := false, wmask := 0, wbing := false, preReq := false, pred := true })) ∧
        (sl.st = .commitPending → sl.wbing = true → Ends (.pred d) s fun t => OnlyRowState s t ∧ OtherSlots g k s t ∧
          (t.bank g).run = (s.bank g).run ∧ RegsKept g s t ∧ t.slot g k = { sl with pred := true }) ∧
        (sl.st = .openDirty → Ends (.pre d) s (BankTrapped g .rowState (s.rowStatus g k) 0 s)) ∧
        (sl.st ≠ .closed → sl.st ≠ .closing → sl.busy = false → Ends (.ref d) s (BankTrapped g .rowState (s.rowStatus g k) 0 s))) ∧
      ((s.seenSlot g k).st = .closed ∨ (s.seenSlot g k).st = .closing →
        ∀ i ∈ [Instr.wb d, .pre d, .pred d], Ends i s (BankTrapped g .rowState (s.rowStatus g k) 0 s))) ∧
    (¬ LanesPast s g k → ∀ i ∈ [Instr.wb d, .pre d, .pred d], Ends i s (BankWaits g 1 s)) ∧
    (Idle s g k → PermitFree s g → Ends (.ref d) s fun t => BankSequenced g 4 s t ∧ OnlyRowState s t ∧ OtherSlots g k s t ∧
      BankRowKept (s.bank g) (t.bank g) ∧ TakesPermit g 0 120 s t ∧ (∀ q, sl.refPtr ≤ q → q < sl.refPtr + 8 → tget 0 t.actCnt (rowNo g k q) = 0) ∧
      t.slot g k = { sl with refPtr := (sl.refPtr + 8) % 1024, debt := max (-8) (sl.debt - 1), busy := true, until_ := s.cycle + 120 })

/-- R123, R266, R303: ROWFILL and ROWCPY take a permit and 60 cycles for each row; with their last row all of them take their contents in one step, for others
than the bank once their region is engaged, every other byte of memory staying as it is; a descriptor that names none of the allowed rows is illegal. -/
def Sys2Proof.Claims.RowFillAndCopy : Prop :=
  ∀ (i : Instr) (s : State) (g d a n : Nat) (fill : Option Nat), multiOp i = some (d, a, n, fill) → s.cur = .bank g →
    let D := (s.bank g).yr n
    let last := D.toNat / 2 ^ 32 % 8
    let v := fill.map (s.bank g).yr
    ((s.bank g).multi = none →
      (multiOk fill.isNone d a D = false → Ends i s (BankTrapped g .illegal (wordOf i) 0 s)) ∧
      (multiOk fill.isNone d a D = true → Idle s g d → Idle s g a →
        (∀ c q, (s.bank g).multiCheck g d a D fill.isNone = some (c, q) → Ends i s (BankTrapped g c (BitVec.ofNat 64 q) 0 s)) ∧
        ((s.bank g).multiCheck g d a D fill.isNone = none → PermitFree s g → Ends i s fun t => OnlyMulti g d a s t ∧
          (last = 0 → RowsGet g d a D v s t ∧ BankSequenced g 4 s t ∧ (t.bank g).multi = none) ∧
          (last ≠ 0 → BytesKept s t ∧ (t.bank g).multi = some { rows := 1, d := d, a := a } ∧ (t.bank g).run = (s.bank g).run)))) ∧
    (∀ m, (s.bank g).multi = some { rows := m + 1, d := d, a := a } → (s.slot g d).until_ ≤ s.cycle → (s.slot g a).until_ ≤ s.cycle →
      (s.slot g d).alert = [] → (s.slot g a).alert = [] → multiOk fill.isNone d a D = true → (s.bank g).multiCheck g d a D fill.isNone = none → PermitFree s g → Ends i s fun t => OnlyMulti g d a s t ∧
        (m + 1 = last → RowsGet g d a D v s t ∧ BankSequenced g 4 s t ∧ (t.bank g).multi = none) ∧
        (m + 1 < last → BytesKept s t ∧ (t.bank g).multi = some { rows := m + 2, d := d, a := a } ∧ (t.bank g).run = (s.bank g).run))

/-- WB, PRE, PRED, REF, ROWFILL and ROWCPY: `RowStateInstructions`, `RowFillAndCopy` together. -/
def Obligations.RowStateAndFill : Prop := RowStateInstructions ∧ RowFillAndCopy

/-- R113, R114, R121, R281, R304, R308, R309: a write-back of a live owner starts under a permit and ends with its row holding the latch, or with the latch
held unpublished where its class asks it, the register clean or closing; precharges, the end of closing and of a refresh, and neighbour refreshes
change their own slot only. -/
def Obligations.RowTransients : Prop :=
  (∀ (s : State) (g k : Nat), let sl := s.slot g k
    sl.st = .commitPending → sl.cw = 0 → sl.wbing = false → sl.preReq = false → sl.wrAt = 0 ∨ sl.wrAt + 25 ≤ s.cycle →
    (s.live sl.ctx sl.inn = false → Ends (.writeBackStart g k) s fun t => t = s) ∧
    (s.live sl.ctx sl.inn = true → PermitFree s g → (sl.sw = true → Own s g k) → Ends (.writeBackStart g k) s fun t =>
      t.slot g k = { sl with wbing := true, until_ := s.cycle + 40 } ∧ OneSlot g k s t ∧ TakesPermit g (1 + k) 40 s t ∧ OnlyRowState s t) ∧
    (s.live sl.ctx sl.inn = true → (s.tier (tierOf g)).value ≤ (s.holders (tierOf g)).length → (∀ p ∈ (s.tier (tierOf g)).holders, p.bank ≠ g) →
      (∀ r ∈ (s.tier (tierOf g)).waiting, r.bank ≠ g) → Ends (.writeBackStart g k) s fun t => t = { s with tiers := t.tiers } ∧
        ∃ older newer, (t.tier (tierOf g)).waiting = older ++ [{ at_ := s.cycle, bank := g, key := 1 + k }] ++ newer ∧
          (∀ r ∈ older, r.at_ ≤ s.cycle) ∧ ∀ r ∈ newer, s.cycle ≤ r.at_)) ∧
  (∀ (s : State) (g k : Nat), let sl := s.slot g k
    sl.st = .commitPending → sl.wbing = true → sl.until_ ≤ s.cycle →
    Ends (.writeBackEnd g k) s fun t => OneSlot g k s t ∧
      t = { s with banks := t.banks, rows := t.rows, ecc := t.ecc, cacheOld := t.cacheOld, pend := t.pend, snaps := t.snaps, free := t.free } ∧
      (∀ x ∈ s.snaps, x ∈ t.snaps) ∧ (∀ b, (b < rowAddr g k sl.row 0 ∨ rowAddr g k sl.row 0 + 12288 ≤ b) → t.rowByte b = s.rowByte b) ∧
      (s.live sl.ctx sl.inn = false → t.pend = s.pend ∧ ∀ b, t.rowByte b = s.rowByte b) ∧
      (s.live sl.ctx sl.inn = true → s.holdsBack sl = false → (sl.cls ≠ 0 → t.pend = s.pend) ∧ (∀ p, p.agent ≠ bankAgent g → (p ∈ t.pend ↔ p ∈ s.pend)) ∧
        ∀ j, j < 12288 →
        (sl.poison.getLsbD (j / 8) = true → t.rowPoison (rowAddr g k sl.row j) = true) ∧
        (sl.poison.getLsbD (j / 8) = false → t.rowByte (rowAddr g k sl.row j) = rowGetByte sl.latch j)) ∧
      (s.live sl.ctx sl.inn = true → s.holdsBack sl = true → HeldBack g k sl true s t ∧ ∀ b, t.rowByte b = s.rowByte b) ∧
      (sl.cc = false ∨ sl.pred = true → t.slot g k = { sl with st := .openClean, cw := 0, cc := false, wbing := false, wmask := 0 }) ∧
      (sl.cc = true → sl.pred = false → (RasOk s g k → Closing s t g k sl.forced) ∧
        (¬ RasOk s g k → t.slot g k = { sl with wbing := false, wmask := 0, preReq := true }))) ∧
  (∀ (s : State) (g k : Nat), (s.slot g k).preReq = true → (s.slot g k).st ≠ .opening → RasOk s g k →
    Ends (.prechargeStart g k) s fun t => Closing s t g k (s.slot g k).forced ∧ OneSlot g k s t ∧ OnlyRowState s t) ∧
  (∀ (s : State) (g k : Nat), (s.slot g k).st = .closing → (s.slot g k).until_ ≤ s.cycle → (s.slot g k).alert = [] →
    Ends (.closingEnd g k) s fun t => OtherSlots g k s t ∧ ((s.slot g k).forced ≠ 2 ∨ Own s g k → OnlyRowState s t) ∧
      t.slot g k = { s.slot g k with st := .closed, forced := 0, busy := decide (0 < (s.slot g k).debt), until_ := s.cycle } ∧
      ((s.slot g k).forced ≠ 2 ∨ ¬ Own s g k → OneSlot g k s t) ∧
      ((s.slot g k).forced = 2 → Own s g k → TrapsNow s g → ∃ tr, (t.bank g).trap = some tr ∧ tr.cause = .openLimit ∧
        tr.tval = t.rowStatus g k ∧ tr.telem = BitVec.ofNat 64 k ∧ tr.kind = .close)) ∧
  (∀ (s : State) (g k : Nat), (s.slot g k).busy = true → (s.slot g k).until_ ≤ s.cycle → (s.slot g k).alert = [] → (s.bank g).multi = none →
    ((s.slot g k).st ≠ .closed ∨ (s.slot g k).debt ≤ 0 → Ends (.slotBusyEnd g k) s fun t =>
      t.slot g k = { s.slot g k with busy := false } ∧ OneSlot g k s t ∧ OnlyRowState s t) ∧
    ((s.slot g k).st = .closed → 0 < (s.slot g k).debt → PermitFree s g → Ends (.slotBusyEnd g k) s fun t =>
      (t.slot g k).debt = (s.slot g k).debt - 1 ∧ (t.slot g k).busy = true ∧ (t.slot g k).until_ = s.cycle + 120 ∧
      TakesPermit g (9 + k) 120 s t ∧ OneSlot g k s t ∧ OnlyRowState s t)) ∧
  (∀ (s : State) (g k q : Nat) (r : List Nat), (s.slot g k).st = .closing ∨ (s.slot g k).st = .closed ∧ (s.slot g k).busy = true →
    (s.slot g k).until_ ≤ s.cycle → (s.slot g k).alert = q :: r → (s.bank g).multi = none → PermitFree s g →
    Ends (.neighbourRefresh g k) s fun t => OneSlot g k s t ∧ OnlyRowState s t ∧
      TakesPermit g (17 + k) (if 0 < q ∧ q < 1023 then 40 else 20) s t ∧
      t.slot g k = { s.slot g k with alert := r, until_ := s.cycle + (if 0 < q ∧ q < 1023 then 40 else 20), nearTo := (t.slot g k).until_ })

/-- R115, R116, R304 to R307, R309, R310: a refresh tick raises the slot's debt, at 8 an open register's owner traps REFDUE and another incarnation's
register is evicted; after 160,000 cycles the register is closed, a dirty one committed or spilled first; a request that waits for tOPEN closes it too; a
permit goes to the oldest request. -/
def Obligations.RefreshAndPermits : Prop :=
  (∀ (s : State) (g k : Nat), let sl := s.slot g k
    (¬ TickDue s g k → Ends (.refreshTick g k) s fun t => t = s) ∧ (TickDue s g k →
    (Ends (.refreshTick g k) s fun t => (t.slot g k).tickAt = some (match sl.tickAt with | none => tickPhase g k | some c => c + 625000) ∧
      (t.slot g k).debt = min 8 (sl.debt + 1) ∧ (t.bank g).debtMax = max (s.bank g).debtMax (min 8 (sl.debt + 1))) ∧
    (sl.debt < 7 ∨ sl.debt = 8 ∨ sl.st = .closed ∨ sl.st = .closing → Ends (.refreshTick g k) s fun t =>
      t.slot g k = { sl with debt := (t.slot g k).debt, tickAt := (t.slot g k).tickAt, busy := (t.slot g k).busy, until_ := (t.slot g k).until_ } ∧
      (sl.st ≠ .closed → (t.slot g k).busy = sl.busy ∧ (t.slot g k).until_ = sl.until_) ∧
      (sl.st = .closed → sl.busy = false → ((t.slot g k).busy = true ↔ 0 < min 8 (sl.debt + 1))) ∧
      t.bank g = { s.bank g with slots := (t.bank g).slots, debtMax := (t.bank g).debtMax } ∧ OtherSlots g k s t ∧ OnlyRowState s t) ∧
    (sl.debt = 7 → sl.st ≠ .closed → sl.st ≠ .closing →
      (Own s g k → TrapsNow s g → Ends (.refreshTick g k) s fun t => (t.slot g k).grace = some s.cycle ∧ (t.bank g).refdue = (s.bank g).refdue + 1 ∧
        (∃ tr, (t.bank g).trap = some tr ∧ tr.cause = .refdue ∧ tr.tval = t.rowStatus g k ∧ tr.telem = BitVec.ofNat 64 k ∧ tr.kind = .close) ∧
        OtherSlots g k s t ∧ OnlyRowRecord s t) ∧
      (¬ Own s g k → sl.st = .openClean → sl.forced = 0 → sl.sw = false → RasOk s g k → Ends (.refreshTick g k) s fun t =>
        (t.slot g k).st = .closing ∧ (t.slot g k).cr = 3 ∧ (t.slot g k).until_ = s.cycle + 30 ∧ (t.bank g).trap = (s.bank g).trap ∧
        OtherSlots g k s t ∧ t = { s with banks := t.banks, tasks := t.tasks, free := t.free } ∧ (∀ j, j ≠ sl.task → t.task j = s.task j) ∧
        (t.task sl.task).ropeCyc = (s.task sl.task).ropeCyc + (if s.live sl.ctx sl.inn = true ∧ (s.task sl.task).rcd ≠ [] then 30 else 0))))) ∧
  (∀ (s : State) (g k c : Nat), let sl := s.slot g k
    sl.grace = some c → c + 160000 ≤ s.cycle → s.forceable g k = true → s.live sl.ctx sl.inn = true → (s.task sl.task).ended = false → sl.preReq = false →
    (sl.sw = true → Own s g k) → Ends (.refreshForcedClose g k) s fun t => (t.bank g).closeRef = (s.bank g).closeRef + 1 ∧ OtherSlots g k s t ∧ OnlyRowRecord s t ∧
      (sl.st = .openClean ∨ sl.pub ≠ 0 → RasOk s g k → Closing s t g k 1) ∧
      (sl.st = .openClean ∨ sl.pub = 0 → t.pend = s.pend) ∧
      (sl.st ≠ .openClean → sl.pub ≠ 0 → HeldBack g k sl false s t) ∧
      (sl.st ≠ .openClean → sl.pub = 0 → t.slot g k = { sl with st := .commitPending, cw := 0, cc := true, forced := 1 }) ∧
      (sl.sw = true → ∀ st, (s.leader (ropeOf g)).strip = some st → (t.leader (ropeOf g)).strip = some { st with spoiled := true })) ∧
  (∀ (s : State) (g k id born pa cls scope home : Nat) (r : Req), let sl := s.slot g k
    (id, born) ∈ (s.bank g).foreign → born + 70000 ≤ s.cycle →
    s.reqs.find? (fun x => x.id == id) = some r → r.tgt = .row pa cls scope home → slotOfPa pa = k → rowOfPa pa ≠ sl.row →
    s.forceable g k = true → s.live sl.ctx sl.inn = true → sl.preReq = false → (sl.sw = true → Own s g k) →
    Ends (.openLimit g k) s fun t => (t.bank g).closeOpen = (s.bank g).closeOpen + 1 ∧ OtherSlots g k s t ∧ OnlyRowRecord s t ∧ t.pend = s.pend ∧
      (sl.st = .openClean → RasOk s g k → Closing s t g k 2) ∧
      (sl.st ≠ .openClean → t.slot g k = { sl with st := .commitPending, cw := 0, cc := true, forced := 2 })) ∧
  (∀ (s : State) (i : Nat) (r : PermitReq) (w : List PermitReq), s.asking i = r :: w → s.granting i r = false → (s.holders i).length < (s.tier i).value →
    Ends (.permitGrant i) s fun t => t = { s with tiers := t.tiers } ∧ (∀ j, j ≠ i → t.tier j = s.tier j) ∧ (t.tier i).waiting = (s.tier i).waiting ∧
      (t.tier i).value = (s.tier i).value ∧
      (t.tier i).holders = s.holders i ++ [{ bank := r.bank, key := r.key, until_ := s.cycle + 1, used := false }]) ∧
  (∀ (s : State) (i : Nat), Ends (.permitArrival i) s fun t => (t.tier i).value = s.hub.permit ∧ t.tier i = { s.tier i with value := s.hub.permit } ∧
    (∀ j, j ≠ i → t.tier j = s.tier j) ∧ t = { s with tiers := t.tiers })

/-- R294 to R298, R303: a row-memory load whose probes pass completes: each access puts the bytes that its bank reads at its address, and their poison, into the
stated register bytes, a bad MX scale word setting NV, and nothing else in the registers or in memory changes. -/
def Sys2Proof.Claims.RowMemoryLoads : Prop :=
  ∀ (i : Instr) (s : State) (g : Nat) (mk : Bank → VForm), vformOf i = some mk → (mk (s.bank g)).store = false → VmemReady (mk (s.bank g)) s g →
    let f := mk (s.bank g)
    Ends i s fun t => RowAccess g s t ∧ BytesCalm s t ∧ t.pend = s.pend ∧ (t.bank g).sendUe = (s.bank g).sendUe ∧ (∀ k, SlotWritten (s.slot g k) (t.slot g k)) ∧
      (t.bank g).fflags = (s.bank g).fflags ||| (if (unitsOf f).any (fun u => u.scale && decide (leNat ((t.unitRead g u).1.drop 1) ≠ 0)) then flNV else 0) ∧
      (∀ k j, (∀ u ∈ unitsOf f, ¬ (u.reg = k ∧ u.off ≤ j ∧ j < u.off + u.len)) → rowGetByte (t.slot g k).latch j = rowGetByte (s.slot g k).latch j) ∧
      ∀ u ∈ unitsOf f,
        ((t.unitRead g u).2 = true → (t.slot g u.reg).poison.getLsbD (u.off / 8) = true) ∧
        (u.scale = false → ∀ j, j < u.len → some (rowGetByte (t.slot g u.reg).latch (u.off + j)) = (t.unitRead g u).1[j]?) ∧
        (u.scale = true → rowGetByte (t.slot g u.reg).latch u.off =
          if leNat ((t.unitRead g u).1.drop 1) = 0 then (t.unitRead g u).1.getD 0 0 else 0xFF) ∧
        ∀ e pa, OneRegion s g f e → unitAt s e u pa →
          (t.unitRead g u).1 = (List.range u.len).map fun j => t.viewByte (bankAgent g) (s.leader (ropeOf g)).taskOf e.cls (pa + j)

/-- R294, R298: which bytes of which addresses the active elements of the unit-stride, indexed and segment forms access. -/
def Sys2Proof.Claims.RowMemoryAddresses : Prop :=
  ∀ (b : Bank) (d v p e : BitVec 3) (o store : Bool) (y : BitVec 4),
    let n := esizeOf (effFmt b.vt e)
    (∀ u, u ∈ unitsOf (vldForm d p e o y store b) ↔ ∃ j, isActive b p n j ∧
      u = { va := ((b.yr y.toNat).toNat + j * n) % 2 ^ 64, len := n, reg := d.toNat, off := n * j, scale := false }) ∧
    (∀ u, u ∈ unitsOf (vldxForm d v p e o y store b) ↔ ∃ j, isActive b p n j ∧
      u = { va := ((b.yr y.toNat).toNat + rowGet (b.slot v.toNat).latch (max n 4) j) % 2 ^ 64, len := n, reg := d.toNat, off := n * j, scale := false, via := some j }) ∧
    (effFmt b.vt e < 12 → ∀ u, u ∈ unitsOf (segForm d v p e o y store b) ↔ ∃ j f, isActive b p n j ∧ f ≤ v.toNat ∧
      u = { va := ((b.yr y.toNat).toNat + (j * (v.toNat + 1) + f) * n) % 2 ^ 64, len := n, reg := d.toNat + f, off := n * j, scale := false }) ∧
    (∀ i mk, i ∈ [Instr.vld d p e 0 0 y 0, .vst d p e 0 0 y 0] → vformOf i = some mk →
      ((mk b).okLim = true ↔ b.vl * n ≤ rowLimit b.vt) ∧ (mk b).align = n)

/-- Row-memory loads put the bytes of the stated addresses into the stated register bytes: `RowMemoryLoads`, `RowMemoryAddresses` together. -/
def Obligations.RowMemoryReads : Prop := RowMemoryLoads ∧ RowMemoryAddresses

/-- R294, R296, R266: a row-memory store whose probes pass completes: every byte of memory outside its accesses is unchanged; bytes of SYNC data, and of the
bank's own PRIVATE data outside a strip, are written, those of PHASED and STREAMED data are seen by their bank and stay unpublished. -/
def Obligations.RowMemoryStores : Prop :=
  ∀ (i : Instr) (s : State) (g : Nat) (mk : Bank → VForm) (e : Region), vformOf i = some mk → (mk (s.bank g)).store = true → VmemReady (mk (s.bank g)) s g →
    OneRegion s g (mk (s.bank g)) e →
    let f := mk (s.bank g)
    Ends i s fun t => RowAccess g s t ∧ (t.bank g).sendUe = 0 ∧ (∀ k, SlotScored (s.slot g k) (t.slot g k)) ∧ (t.bank g).fflags = (s.bank g).fflags ∧
      t.weights.bytes = s.weights.bytes ∧ (∀ n a, memByte (t.leader n).scratch a = memByte (s.leader n).scratch a) ∧
      (∀ b, Calm s b → (∀ u ∈ unitsOf f, ∀ pa, unitAt s e u pa → b < pa ∨ pa + u.len ≤ b) → t.rowByte b = s.rowByte b) ∧
      (e.cls = 1 ∨ e.cls = 2 → ∀ b, Calm s b → t.rowByte b = s.rowByte b) ∧
      ∀ before u after pa j b, unitsOf f = before ++ u :: after → unitAt s e u pa → j < u.len → ((s.bank g).unitData u)[j]? = some b →
        (∀ v ∈ before ++ after, ∀ pb, unitAt s e v pb → pa + j < pb ∨ pb + v.len ≤ pa + j) →
        (e.cls = 3 → t.rowByte (pa + j) = b) ∧
        (e.cls = 0 → (s.leader (ropeOf g)).strip = none → t.rowByte (pa + j) = b) ∧
        (e.cls = 1 ∨ e.cls = 2 → t.viewByte (bankAgent g) (s.leader (ropeOf g)).taskOf e.cls (pa + j) = b)

/-- R151, R299: a peer form gives each active element the other bank's register element that its index names, or stores to it, and sets the element's fault bit
exactly when it could not; no other register, and no byte of memory, changes. A lane write that reaches a target's chunk with the store or later stands. -/
def Obligations.PeerForms : Prop :=
  ∀ (i : Instr) (s : State) (g : Nat) (d vk v p e m : BitVec 3) (store : Bool), i.wf = true → peerOp i = some (d, vk, v, p, e, store, m) → s.cur = .bank g →
    let b := s.bank g
    let n := esizeOf (effFmt b.vt e)
    let regs := [(v.toNat, false), (d.toNat, !store)]
    b.vl * n ≤ rowLimit b.vt → b.vl * 4 ≤ rowLimit b.vt → s.rowsChk g regs = .ok → s.vbusy g regs = false → (∀ k, (s.slot g k).poison = 0) →
    (∀ j x, isActive b p n j → s.peerTarget g v.toNat n j = some x → s.peerChk g vk.toNat store x ≠ .wait) →
    Ends i s fun t => BankSequenced g 4 s t ∧ BytesKept s t ∧ YKept g s t ∧ FlagsKept g s t ∧
      t = { s with banks := t.banks, leaders := t.leaders, counts := t.counts } ∧ LeadersRow s t ∧
      (∀ j, isActive b p n j → (((t.bank g).pr m.toNat).getLsbD (n * j) = true ↔ ¬ ∃ x, Reaches s g vk v n store j x)) ∧
      (∀ k, (∀ j, isActive b p n j → k ≠ n * j) → ((t.bank g).pr m.toNat).getLsbD k = (b.pr m.toNat).getLsbD k) ∧
      (∀ r, r ≠ m.toNat → (t.bank g).pr r = b.pr r) ∧
      (store = false → (∀ h, h ≠ g → t.bank h = s.bank h) ∧ (∀ k, k ≠ d.toNat → SlotScored (s.slot g k) (t.slot g k)) ∧
        ∀ j, isActive b p n j → (∀ x, Reaches s g vk v n store j x → elAt t g d n j = rowGet (s.slot x.bank vk.toNat).latch n (x.byte / n)) ∧
          ((¬ ∃ x, Reaches s g vk v n store j x) → elAt t g d n j = 0)) ∧
      (store = true → (∀ h k, k ≠ vk.toNat → SlotScored (s.slot h k) (t.slot h k)) ∧
        ∀ j x, isActive b p n j → Reaches s g vk v n store j x →
          (∀ l z, isActive b p n l → Reaches s g vk v n store l z → l ≠ j → ¬ (z.bank = x.bank ∧ z.byte = x.byte)) →
          (s.slot x.bank vk.toNat).lnAt + 31 ≤ s.cycle →
          rowGet (t.slot x.bank vk.toNat).latch n (x.byte / n) = elAt s g d n j)

/-- R163, R164: a collective waits at its bank; once every participant has issued, each participant's active elements take those of the bank it receives from, or zero
from a bank that takes no part, all sources being read first. That a bad pattern word traps with itself as TVAL is the model's choice (log entry 66). -/
def Obligations.Collectives : Prop :=
  (∀ (i : Instr) (s : State) (g : Nat) (r : BlockRun) (c : Coll) (w : Word), collOp (s.bank g).yr i = some (c, w) → s.cur = .bank g →
    (s.bank g).run = some r → r.coll = none → (s.bank g).tfetch = false → (s.bank g).laneAt ≤ s.cycle → effFmt (s.bank g).vt c.e ≠ 0x12 →
    (s.bank g).vl * esizeOf (effFmt (s.bank g).vt c.e) ≤ rowLimit (s.bank g).vt → s.laneHeld g (collSpec c (s.bank g)) = false →
    s.rowsChk g [(c.a.toNat, false), (c.d.toNat, true)] = .ok →
    (w.toNat < (if c.bcast then 32 else 512) → (c.bcast = false → w.toNat / 32 % 8 = 0) →
      Ends i s fun t => t.bank g = { s.bank g with run := some { r with coll := some c } } ∧ (∀ h, h ≠ g → t.bank h = s.bank h) ∧
        t = { s with banks := t.banks }) ∧
    ((if c.bcast then 32 else 512) ≤ w.toNat ∨ (c.bcast = false ∧ w.toNat / 32 % 8 ≠ 0) → Ends i s (BankTrapped g .illegal w 0 s))) ∧
  (∀ (s : State) (n : Nat) (ps : List Nat), s.readyCollective n = some ps →
    Ends (.collectiveStart n) s fun t => BytesKept s t ∧ t = { s with banks := t.banks, leaders := t.leaders, counts := t.counts } ∧ LeadersRow s t ∧
      (∀ h, (∀ i ∈ ps, h ≠ bankOf n i) → t.bank h = s.bank h) ∧
      ∀ i ∈ ps, ∀ r c, (s.bank (bankOf n i)).run = some r → r.coll = some c →
        let g := bankOf n i
        let z := esizeOf (effFmt (s.bank g).vt c.e)
        (∀ k, k ≠ c.d.toNat → t.slot g k = s.slot g k) ∧ (t.bank g).y = (s.bank g).y ∧ (t.bank g).p = (s.bank g).p ∧
        BankKept (s.bank g) (t.bank g) ∧ FlagsKept g s t ∧
        (∀ q, (t.bank g).run = some q → q.coll = none ∧ q.rank = r.rank + 1) ∧
        ∀ j, isActive (s.bank g) c.p z j → (s.bank g).vl * z ≤ 12288 → rowGet (t.slot g c.d.toNat).latch z j =
          if receivesFrom c i ∈ ps then rowGet (s.slot (bankOf n (receivesFrom c i)) c.a.toNat).latch z j else 0)

/-- R312 to R315: a failed transfer is retried up to four times, eight cycles apart, and delivered or the spine degrades; a degraded spine delivers a pair that failed
five times poisoned, to whichever receives it (the codes of the kinds are the model's, log entry 71); stack reset ends the degraded mode; a log copy records
and clears the logs. -/
def Obligations.SpineEvents : Prop :=
  (∀ (s : State) (n src dst beat group : Nat), (s.leader n).degraded = false →
    let mine := fun (x : Xfer) => x.kind == src / 64 % 6 && x.src == src % 64 && x.dst == dst % 64
    let rest := (s.leader n).xfer.filter fun x => !mine x
    ((s.leader n).xfer.find? mine = none →
      Ends (.spineTransferReceive n src dst true beat group) s (fun t => t = s) ∧
      Ends (.spineTransferReceive n src dst false beat group) s fun t => OnlySpine n s t ∧ (t.leader n).xfer = (s.leader n).xfer ++
        [{ kind := src / 64 % 6, src := src % 64, dst := dst % 64, beat := beat % 16, group := group % 192, tries := 0, at_ := s.cycle, waits := true }]) ∧
    ∀ x, (s.leader n).xfer.find? mine = some x →
      Ends (.spineTransferReceive n src dst true beat group) s (fun t => OnlySpine n s t ∧ (t.leader n).xfer = rest ∧ (t.leader n).degraded = false) ∧
      (x.tries < 4 → Ends (.spineTransferReceive n src dst false beat group) s fun t => OnlySpine n s t ∧
        (t.leader n).xfer = rest ++ [{ x with at_ := s.cycle, waits := true }]) ∧
      (4 ≤ x.tries → Ends (.spineTransferReceive n src dst false beat group) s fun t => (t.leader n).degraded = true ∧
        (t.leader n).degradedN = (s.leader n).degradedN + 1 ∧ t.banks = s.banks ∧ t.pend = s.pend ∧ BytesCalm s t)) ∧
  (∀ (s : State) (n : Nat) (before after : List Xfer) (x : Xfer), (s.leader n).xfer = before ++ x :: after → (∀ y ∈ before, y.waits = false) →
    x.waits = true → x.tries < 4 → x.at_ + 8 ≤ s.cycle → x ∉ after → s.copyLive n = true → Ends (.spineRetry n) s fun t => OnlySpine n s t ∧
      (t.leader n).xfer = before ++ { x with tries := x.tries + 1, waits := false } :: after ∧ (t.leader n).retry = (s.leader n).retry + 1) ∧
  (∀ (s : State) (n : Nat), s.copyLive n = false → Ends (.spineRetry n) s fun t => OnlySpine n s t ∧ (t.leader n).xfer = [] ∧ (t.leader n).retry = (s.leader n).retry) ∧
  (∀ (s : State) (n beat group fails k : Nat), (s.leader n).degraded = true → 5 ≤ fails → Ends (.beatPairResend n beat group fails k) s fun t =>
    let g := bankOf n (k / 8 % 32)
    t = { s with leaders := t.leaders, banks := t.banks, arrays := t.arrays, pend := t.pend } ∧ OnlySpine n s { s with leaders := t.leaders } ∧
    (t.leader n).poisonedN = (s.leader n).poisonedN + 1 ∧ (∀ h, h ≠ g → t.bank h = s.bank h) ∧ (∀ h j, (t.slot h j).latch = (s.slot h j).latch) ∧
    (k / 8192 % 6 < 2 → ∀ w, w < 96 → (t.slot g (k % 8)).poison.getLsbD (96 * (beat % 16) + w) = true) ∧
    (k / 8192 % 6 = 2 → t.array (4 * n + k % 4) = { s.array (4 * n + k % 4) with unitUe := true }) ∧
    (k / 8192 % 6 = 3 → t.bank g = { s.bank g with fetchUe := true }) ∧
    (k / 8192 % 6 = 5 → t.bank g = { s.bank g with sendUe := (t.bank g).sendUe } ∧ ∀ w, w < 96 → (t.bank g).sendUe.getLsbD (96 * (beat % 16) + w) = true) ∧
    (t.pend.map fun p => { p with pois := 0 }) = s.pend.map fun p => { p with pois := 0 }) ∧
  (∀ (s : State) (x n : Nat), Ends (.stackReset x) s fun t => t = { s with leaders := t.leaders } ∧
    (n / 24 = x → t.leader n = { s.leader n with degraded := false, xfer := [] }) ∧ (n / 24 ≠ x → t.leader n = s.leader n)) ∧
  (∀ (s : State) (g : Nat), Ends (.errorLogCopy g) s fun t => t.bank g = { s.bank g with aerr := [], aerrOrd := [] } ∧
    t.leader (ropeOf g) = { s.leader (ropeOf g) with spineLog := [], spineOrd := [] } ∧ s.ring.head < t.ring.head ∧ (∀ h, h ≠ g → t.bank h = s.bank h) ∧
    (∀ m, m ≠ ropeOf g → t.leader m = s.leader m) ∧ BytesCalm s t ∧
    t = { s with banks := t.banks, leaders := t.leaders, ring := t.ring, rows := t.rows, ecc := t.ecc, cacheOld := t.cacheOld })

/-- R392, R394, R395, R236, R234, Table 18.3: at a boundary the lowest-numbered pending bank trap, and then the oldest ASYNC_FAULT, is delivered, an event for
the next WFE if none has seen it; TRET from a bank trap resolves it as DISP says: retried, passed over, or its block abandoned. -/
def Obligations.BankTrapDelivery : Prop :=
  (∀ (s : State) (n i : Nat) (tr : BankTrap), Takes s n → i < 32 → (s.bank (bankOf n i)).trap = some tr → tr.seen = false →
    (∀ j, j < i → ∀ q, (s.bank (bankOf n j)).trap = some q → q.seen = true) →
    Ends (.bankTrap n) s (Trapped n (BitVec.ofNat 64 (256 * i + 0x14)) (BitVec.ofNat 64 tr.cause.code) 0
      (let u := withTrap s (bankOf n i) (some { tr with seen := true })
       if tr.woke = true then u else woken u n))) ∧
  (∀ (s : State) (n : Nat) (v o : Word) (r : List (Word × Word)), Takes s n → s.pendingBankTrap n = none →
    (s.leader n).async = (v, o) :: r →
    Ends (.asyncFault n) s (Trapped n 0x13 v 0
      (let u := s.setLeader n { s.leader n with async := r, asyncSeen := (s.leader n).asyncSeen - 1 }
       if 0 < (s.leader n).asyncSeen then u else woken u n))) ∧
  (∀ (s : State) (n i : Nat) (tr : BankTrap), s.cur = .leader n → (s.leader n).level = 2 → (s.leader n).csr.tstate.getLsbD 8 = true →
    (s.leader n).csr.tcause.toNat % 256 = 0x14 → i = (s.leader n).csr.tcause.toNat / 256 % 32 → (s.bank (bankOf n i)).trap = some tr →
    Ends .tret s fun t =>
      let g := bankOf n i
      (t.leader n).pc = (s.leader n).csr.tpc ∧ (t.leader n).loops = (s.leader n).aside ∧ (t.leader n).csr.tstate.getLsbD 8 = false ∧ BytesKept s t ∧
      (∀ h, h ≠ g → t.bank h = s.bank h) ∧ (∀ m, m ≠ n → t.leader m = s.leader m) ∧ t = { s with banks := t.banks, leaders := t.leaders } ∧
      (tr.kind = .instr → tr.disp = 0 → t.bank g = { s.bank g with trap := none, lastTrap := some tr, disp := 0 }) ∧
      (tr.kind = .instr → tr.disp = 1 → BankSequenced g (s.bankInstrLen g) (withTrap s g none) t) ∧
      (tr.kind = .close → tr.disp.toNat < 2 → t.bank g = { s.bank g with trap := none, lastTrap := some tr, disp := 0 }) ∧
      (tr.kind = .instr ∨ tr.kind = .close → 2 ≤ tr.disp.toNat → (t.bank g).run = none ∧ (t.bank g).trap = none) ∧
      (tr.kind = .entry → (t.bank g).trap = none) ∧
      (tr.kind = .entry → tr.disp = 0 → t.bank g = { s.bank g with trap := none, lastTrap := some tr, disp := 0 }) ∧
      (tr.kind = .blockEnd → (t.bank g).run = none ∧ (t.bank g).trap = none)) ∧
  (∀ (d a : BitVec 5) (h : BitVec 2) (o : BitVec 11) (s : State) (n i : Nat), Ready s n [a.toNat, d.toNat] → (s.leader n).level = 2 →
    s.heldByBanks n = false → i < 32 → eaOf (s.xr n a.toNat) o.toInt 1 = scratchBase + 0x7FB00 + 32 * i + 1 →
    let v := (s.xr n d.toNat).extractLsb' 0 2
    Ends (.st d a 0 h o) s fun t => Completes n s t ∧
      (∀ tr, (s.bank (bankOf n i)).trap = some tr → t.bank (bankOf n i) = { s.bank (bankOf n i) with trap := some { tr with disp := v } }) ∧
      ((s.bank (bankOf n i)).trap = none → t.bank (bankOf n i) = { s.bank (bankOf n i) with disp := v }) ∧ (∀ g, g ≠ bankOf n i → t.bank g = s.bank g) ∧ BytesKept s t ∧
      t = { s with banks := t.banks, leaders := t.leaders })

/-- R408 to R410, R256, R246: DIAGST writes exactly the stored word and check bits that its address names, DIAGLD reads them and changes nothing, both of a row
word only once its bank has served the access; RGNINV drops the context's cached region entries and reloads its banks' stores; an address outside
Table 18.8 is illegal. -/
def Obligations.Diagnostics : Prop :=
  (∀ (d a : BitVec 5) (c : BitVec 8) (s : State) (n : Nat), ReadyK s n [a.toNat, d.toNat] →
    let D := s.xr n a.toNat
    let v := s.xr n d.toNat
    let g := D.toNat / 2 ^ 40 % 2 ^ 13
    let k := D.toNat / 2 ^ 37 % 8
    let x := D.toNat / 2 ^ 40 % 2 ^ 10
    (diagOk D = false ∨ 2 < D.toNat / 2 ^ 60 → Free s n → Ends (.diagst d a c) s (Trapped n 0x01 D 0 s)) ∧
    (diagOk D = true → D.toNat / 2 ^ 59 = 0 → CellWaits n D s (.diagst d a c) ∧
      ∀ r, s.diagReq n (cellWord D) = some r → r.miss = false → Ends (.diagst d a c) s fun t =>
        let w := cellWord D
        Completes n s t ∧ memDw t.rows (8 * w) = v ∧ t.rowEcc w = c ∧ (∀ b, b < 8 * w ∨ 8 * w + 8 ≤ b → memByte t.rows b = memByte s.rows b) ∧
        t = { withoutReq s r.id with rows := t.rows, ecc := t.ecc, cacheOld := t.cacheOld, leaders := t.leaders }) ∧
    (diagOk D = true → D.toNat / 2 ^ 59 = 1 →
      (s.rowqAimed g = true ∨ (s.slot g k).st = .opening → Ends (.diagst d a c) s (Waits n 0x0B s)) ∧
      (s.rowqAimed g = false → (s.slot g k).st = .closed ∨ (s.slot g k).st = .closing → Free s n →
        Ends (.diagst d a c) s (Trapped n 0x07 (s.slot g k).status 0 s)) ∧
      (s.rowqAimed g = false → (s.slot g k).st ∈ [RowSt.openClean, .openDirty, .commitPending] →
        Ends (.diagst d a c) s fun t =>
          let w := D.toNat / 2 ^ 16 % 2 ^ 11
          Completes n s t ∧ BytesKept s t ∧ (t.slot g k).latch.extractLsb' (64 * w) 64 = (eccDecode v c).1 ∧
          ((t.slot g k).poison.getLsbD w = true ↔ (eccDecode v c).2.1 = .uncorrectable) ∧
          (∀ j, j ≠ w → (t.slot g k).latch.extractLsb' (64 * j) 64 = (s.slot g k).latch.extractLsb' (64 * j) 64) ∧
          t.slot g k = { s.slot g k with latch := (t.slot g k).latch, poison := (t.slot g k).poison } ∧ OtherSlots g k s t ∧
          t = { s with banks := t.banks, leaders := t.leaders })) ∧
    (diagOk D = true → D.toNat / 2 ^ 60 = 1 → Ends (.diagst d a c) s fun t =>
      let pl := (t.array x).plane (D.toNat / 2 ^ 32 % 2)
      let q := 8 * (D.toNat % 2 ^ 13)
      Completes n s t ∧ memDw pl.data q = v ∧ eccGet pl.ecc (D.toNat % 2 ^ 13) v = c ∧ t = { s with arrays := t.arrays, leaders := t.leaders } ∧
      (∀ b, b < q ∨ q + 8 ≤ b → memByte pl.data b = memByte ((s.array x).plane (D.toNat / 2 ^ 32 % 2)).data b) ∧
      (∀ y, y ≠ x → t.array y = s.array y)) ∧
    (diagOk D = true → D.toNat / 2 ^ 60 = 2 → Ends (.diagst d a c) s fun t =>
      let ln := (t.array x).line (D.toNat / 2 ^ 16 % 2 ^ 9)
      let q := 8 * (D.toNat % 2 ^ 7)
      Completes n s t ∧ memDw ln.data q = v ∧ eccGet ln.ecc (D.toNat % 2 ^ 7) v = c ∧ ln.dirty = true ∧ t = { s with arrays := t.arrays, leaders := t.leaders } ∧
      (∀ b, b < q ∨ q + 8 ≤ b → memByte ln.data b = memByte ((s.array x).line (D.toNat / 2 ^ 16 % 2 ^ 9)).data b) ∧
      (∀ y, y ≠ x → t.array y = s.array y))) ∧
  (∀ (d a : BitVec 5) (c : BitVec 1) (s : State) (n : Nat), ReadyK s n [a.toNat] →
    let D := s.xr n a.toNat
    (diagOk D = false ∨ (c = 1 ∧ 2 < D.toNat / 2 ^ 60) → Free s n → Ends (.diagld d a c) s (Trapped n 0x01 D 0 s)) ∧
    (diagOk D = true → D.toNat / 2 ^ 59 = 0 → CellWaits n D s (.diagld d a c) ∧
      ∀ r, s.diagReq n (cellWord D) = some r → r.miss = false →
        Ends (.diagld d a c) s (Writes n d.toNat 4 (diagValue s D.toNat c) (withoutReq s r.id))) ∧
    (diagOk D = true → D.toNat / 2 ^ 59 = 1 → s.rowqAimed (D.toNat / 2 ^ 40 % 2 ^ 13) = true → Ends (.diagld d a c) s (Waits n 0x0B s)) ∧
    (diagOk D = true → (c = 1 → D.toNat / 2 ^ 60 ≤ 2) → D.toNat / 2 ^ 59 ≠ 0 → (D.toNat / 2 ^ 59 = 1 → s.rowqAimed (D.toNat / 2 ^ 40 % 2 ^ 13) = false) →
      Ends (.diagld d a c) s (Writes n d.toNat 4 (diagValue s D.toNat c) s))) ∧
  (∀ (d a : BitVec 5) (s : State) (n : Nat), ReadyK s n [a.toNat] →
    let W := s.xr n a.toNat
    let x := (s.leader n).ctxOf
    (W.toNat / 2 ^ 12 % 2 ^ 51 ≠ 0 → Free s n → Ends (.rgninv d a) s (Trapped n 0x01 W 0 s)) ∧
    (W.toNat / 2 ^ 12 % 2 ^ 51 = 0 → Ends (.rgninv d a) s fun t => BytesCalm s t ∧ Sequenced 4 (s.leader n) (t.leader n) ∧
      OthersKept d.toNat (s.leader n) (t.leader n) ∧ t.xr n d.toNat = (if d = 0 then 0 else BitVec.ofNat 64 (s.crowdedBanks x).length) ∧
      (∀ m, m < 192 → (∃ b, (s.leader m).bind = some b ∧ b.ctx = x) →
        (W.getLsbD 63 = true → (t.leader m).tlb = [] ∧ ∀ i, tget [] (t.leader m).lanes i = []) ∧
        (∀ e ∈ (t.leader m).tlb, e.idx ≠ W.toNat % 2 ^ 12 ∧ e ∈ (s.leader m).tlb) ∧
        (∀ i, ∀ e ∈ tget [] (t.leader m).lanes i, e.idx ≠ W.toNat % 2 ^ 12) ∧
        ∀ i, i < 32 → t.bank (bankOf m i) = { s.bank (bankOf m i) with regions := t.bankRegions (t.regionList x) (bankOf m i) }) ∧
      (∀ m, (∀ b, (s.leader m).bind = some b → b.ctx ≠ x) → m ≠ n → t.leader m = s.leader m) ∧
      (∀ y, t.ctx y = { s.ctx y with badRgn := (t.ctx y).badRgn }) ∧
      t = { s with leaders := t.leaders, banks := t.banks, ctxs := t.ctxs, ring := t.ring, rows := t.rows, ecc := t.ecc, cacheOld := t.cacheOld }))

/-- R376, R377: SAVECTX writes the thread's state as an image, answers its size, and goes on. LOADCTX of an image of the thread's own, altered or not, that keeps
the layout puts its state back and goes on after the SAVECTX; it traps at the first doubleword that breaks it, and an image of another thread has no permission (the
places of the doublewords: log entry 91). Each waits until the thread's engines are at rest, and traps where its area is misaligned or cannot be accessed. -/
def Obligations.SaveAndLoad : Prop :=
  (∀ (d a : BitVec 5) (s : State) (n : Nat) (b : Binding), ReadyK s n [a.toNat] → AreaReady s n (s.xr n a.toNat).toNat true → (s.leader n).bind = some b →
    let va := (s.xr n a.toNat).toNat
    (s.ropeSettled n = false → Ends (.savectx d a) s (Waits n 0x0B s)) ∧
    (s.ropeSettled n = true → ∀ e, AreaIn s n va e → e.cls ≠ 3 → Ends (.savectx d a) s fun t =>
      BytesCalm s t ∧ (d ≠ 0 → t.xr n d.toNat = 0x790000) ∧ OthersKept d.toNat (s.leader n) (t.leader n) ∧ Sequenced 4 (s.leader n) (t.leader n) ∧
      t = { s with leaders := t.leaders, arrays := t.arrays, images := t.images, pend := t.pend, rows := t.rows, ecc := t.ecc, counts := t.counts, l2 := t.l2,
                   cacheOld := t.cacheOld, reqs := t.reqs, reqNum := t.reqNum } ∧ OnlyFills s t ∧ (∀ m, m ≠ n → t.leader m = s.leader m) ∧
      ∃ f, t.images = s.images ++ [(b.ctx, va, s.cycle, s.free, f)] ∧
        f.leader.pc = (s.leader n).pc + 4 ∧ f.leader.loops = (s.leader n).loops ∧ f.leader.gates = (s.leader n).gates ∧ f.leader.level = (s.leader n).level ∧
        f.leader.mm = (s.leader n).mm ∧ f.leader.csr = (s.leader n).csr ∧ f.leader.scratch = (s.leader n).scratch ∧
        (∀ r, f.leader.xr r = if r = d.toNat then 0 else s.xr n r) ∧
        ∀ o pa cls scope home, o < imageLen → s.regionTarget e (va + o - e.vbase) = some (.row pa cls scope home) →
          t.viewByte (leaderAgent n) (s.leader n).taskOf cls pa = imageByte f s.cycle s.free o)) ∧
  (∀ (a : BitVec 5) (s : State) (n : Nat) (b : Binding) (e : Region), ReadyK s n [a.toNat] → AreaReady s n (s.xr n a.toNat).toNat false →
    (s.leader n).bind = some b → AreaIn s n (s.xr n a.toNat).toNat e →
    let va := (s.xr n a.toNat).toNat
    let area := s.vaBytes n (s.leader n).wever va imageLen
    let u := s.vaTouch n (s.leader n).wever va imageLen false
    let own := areaDw s n va 0 / 2 ^ 34 % 2 ^ 24 = b.ctx * 2 ^ 14 + b.inn ∧ areaDw s n va 1 / 2 ^ 61 % 8 = b.level ∧
      areaDw s n va 1 % 2 ^ 32 = b.ord % 256 * 2 ^ 24 + b.inst % 2 ^ 24
    (∀ x ∈ area, x.2 = false) →
    (¬ own → Free s n → Ends (.loadctx a) s (Trapped n 0x05 (BitVec.ofNat 64 va) 0 u)) ∧
    (own → ∀ x, s.imageAt n va (area.map fun x => x.1) = .error x → Free s n → Ends (.loadctx a) s (Trapped n 0x01 (BitVec.ofNat 64 x) 0 u)) ∧
    (own → ∀ f, s.imageAt n va (area.map fun x => x.1) = .ok f →
      (s.haltReady n = false → Ends (.loadctx a) s (Waits n 0x0B s)) ∧
      (s.haltReady n = true → (∀ x ∈ f.openRows, ropeOf x.1 = n) → Ends (.loadctx a) s fun t => RowsCalm s t ∧
        (t.leader n).pc = f.leader.pc ∧ (t.leader n).x = f.leader.x ∧ (t.leader n).loops = f.leader.loops ∧ (t.leader n).gates = f.leader.gates ∧
        (t.leader n).level = f.leader.level ∧ (t.leader n).mm = f.leader.mm ∧ (t.leader n).scratch = f.leader.scratch ∧
        (t.leader n).csr.tstate = f.leader.csr.tstate ∧ (t.leader n).csr.fflags = f.leader.csr.fflags ||| f.flags ∧ (t.leader n).bind = some b ∧
        ∀ m, m ≠ n → t.leader m = s.leader m))) ∧
  (∀ (d a : BitVec 5) (s : State) (n : Nat), ReadyK s n [a.toNat] → Free s n →
    let va := (s.xr n a.toNat).toNat
    ∀ p ∈ [(Instr.savectx d a, true), (.loadctx a, false)],
      (va % 4096 ≠ 0 → Ends p.1 s (Trapped n 0x03 (s.xr n a.toNat) 0 s)) ∧
      (va % 4096 = 0 → ∀ c at_, s.areaFault n va p.2 = some (c, at_) →
        Ends p.1 s (Trapped n (BitVec.ofNat 64 c.code) (BitVec.ofNat 64 at_) 0 (s.vaWalk n va (at_ + 1 - va)))))

/-- R376, R377, R399, R400, R37, R393: SAVECTX completes wherever its area passes the probes and the thread's engines are at rest; LOADCTX completes on an image
that SAVECTX has written and nothing has changed; a pending rewind goes back to the SETVL of its strip; a task being stopped for a budget ends once all is at its stop. -/
def Obligations.SavesRewindsAndStopsComplete : Prop :=
  (∀ (d a : BitVec 5) (s : State) (n : Nat) (b : Binding), ReadyK s n [a.toNat] → AreaReady s n (s.xr n a.toNat).toNat true → (s.leader n).bind = some b →
    s.ropeSettled n = true → Ends (.savectx d a) s fun t =>
      t.xr n d.toNat = (if d = 0 then 0 else 0x790000) ∧ Sequenced 4 (s.leader n) (t.leader n)) ∧
  (∀ (a : BitVec 5) (s : State) (n : Nat) (b : Binding) (cyc fr : Nat) (f : Frame), ReadyK s n [a.toNat] → AreaReady s n (s.xr n a.toNat).toNat false →
    (s.leader n).bind = some b → AreaStaged s n (s.xr n a.toNat).toNat → AreaHolds s n (s.xr n a.toNat).toNat b cyc fr f → NamesBinding f b → s.haltReady n = true →
    Ends (.loadctx a) s fun t => (t.leader n).pc = f.leader.pc ∧ (t.leader n).x = f.leader.x ∧ (t.leader n).csr.tstate = f.leader.csr.tstate) ∧
  (∀ (s : State) (n : Nat) (tr : TrapRec) (st : LStrip), (s.leader n).rewind = some tr → (s.leader n).strip = some st → Free s n → (s.leader n).run = true →
    (s.leader n).killed = false → Ends (.stripRewind n) s fun t => (t.leader n).pc = st.addr ∧ (t.leader n).rewind = none) ∧
  (∀ (s : State) (k : Nat), (s.task k).alive = true → (s.task k).stop ≠ 0 →
    (∀ n ∈ s.ropesOf k, (s.leader n).bind.isSome = true → (s.leader n).taskOf = k → s.settledAt n = true) →
    Ends (.budgetStop k) s fun t => (t.task k).ended = true)

/-- R192, R193, R332: a matrix instruction whose operand words keep their rules enters the queue with its operands, CSRs and PC captured, and the thread goes on; the
first bad operand word traps ILLEGAL_INSTR, and a full queue makes the leader wait. An MDRAIN with no function that names a parameter block is an illegal word. -/
def Obligations.MatrixIssue : Prop :=
  (∀ (i : Instr) (s : State) (n : Nat), ¬ drainPlain i → s.cur = .leader n → Free s n → Ends i s (Trapped n 0x01 (wordOf i) 0 s)) ∧
  ∀ (i : Instr) (s : State) (n kind arr flags : Nat) (srcs : List Nat) (ops : List Word) (bad : Nat → Bool → Option Word),
    i.wf = true → matOp (s.leader n).xr i = some (kind, arr, srcs, ops, flags, bad) → Ready s n srcs → drainPlain i →
    let b := bad s.grantedBanks ((s.leader n).csr.vt.getLsbD 11 || (s.leader n).protOf)
    (b = none → (s.leader n).matq.length < 32 → Ends i s fun t => ∃ c, (t.leader n).matq = (s.leader n).matq ++ [c] ∧
      c.kind = kind ∧ c.arr = arr ∧ c.ops = ops ∧ (kind ≠ 7 → c.flags = flags) ∧ c.pc = (s.leader n).pc ∧ c.frm = (s.leader n).csr.frm ∧ c.vxrm = (s.leader n).csr.vxrm ∧ c.vt = (s.leader n).csr.vt ∧
      (kind = 7 → c.shift = (s.leader n).csr.acan.toNat ∧
        c.abr = (match arr with | 0 => (s.leader n).csr.abr0 | 1 => (s.leader n).csr.abr1 | 2 => (s.leader n).csr.abr2 | _ => (s.leader n).csr.abr3)) ∧
      c.tok = none ∧ c.ctx = (s.leader n).ctxOf ∧ c.inn = (s.leader n).innOf ∧ c.task = (s.leader n).taskOf ∧ c.leader = n ∧
      c.num = (s.leader n).cmdNum + 1 ∧ (kind = 7 → c.flags = tget 0 (s.leader n).tileSeq arr + 1) ∧
      Sequenced 4 (s.leader n) (t.leader n) ∧ QueueKept (s.leader n) (t.leader n) ∧ OnlyLeader n s t ∧ BytesKept s t) ∧
    (∀ v, b = some v → Free s n → Ends i s (Trapped n 0x01 v 0 s)) ∧
    (b = none → 32 ≤ (s.leader n).matq.length → Ends i s (Waits n 6 s))

/-- R204, R205, R332, R23, R188, R202: the queue's head goes to its array while its issuer lives and is not being stopped, and stream 0 has room; at a switch point the array starts the stream that R205
chooses among those whose next step can start with its operands on hand: an aged one first, else the one with the fewest rows left; the others ready age by its issue cycles. -/
def Sys2Proof.Claims.MatrixStreams : Prop :=
  (∀ (s : State) (n : Nat) (c : MatCmd) (r : List MatCmd), (s.leader n).matq = c :: r → s.live c.ctx c.inn = true → (s.task c.task).stop = 0 →
    let a := s.array (4 * n + c.arr)
    (a.stream0.length < 2 ∨ (a.stream0.length < 3 ∧ (a.cur = some 0 ∨ a.tile 0 ≠ none)) →
      Ends (.matrixQueueHandoff n) s fun t => t.leader n = { s.leader n with matq := r, matRun := (s.leader n).matRun ++ [c] } ∧
        t.array (4 * n + c.arr) = { a with stream0 := a.stream0 ++ [c] } ∧
        (∀ y, y ≠ 4 * n + c.arr → t.array y = s.array y) ∧ (∀ m, m ≠ n → t.leader m = s.leader m) ∧ t = { s with leaders := t.leaders, arrays := t.arrays })) ∧
  (∀ (a : Array_) (rs : List Nat), (a.choose rs = none ↔ rs = []) ∧ ∀ k, a.choose rs = some k → k ∈ rs ∧
    ((∃ j ∈ rs, 2048 ≤ tget 0 a.ages j) → 2048 ≤ tget 0 a.ages k ∧ ∀ j ∈ rs, 2048 ≤ tget 0 a.ages j → tget 0 a.ages j ≤ tget 0 a.ages k) ∧
    ((∀ j ∈ rs, tget 0 a.ages j < 2048) → ∀ j ∈ rs, a.remaining k ≤ a.remaining j)) ∧
  (∀ (s : State) (i k : Nat) (c : MatCmd), (s.array i).cur = none →
    let rs := (List.range 4).filter fun k => s.streamReady i k
    (s.array i).choose rs = some k → (s.array i).head k = some c → (c.kind = 0 → ∀ e, s.cmdCheck i k c ≠ some (.fault e)) →
    Ends (.arraySwitchPoint i) s fun t => (t.array i).cur = some k ∧ (t.array i).lines = (s.array i).lines ∧ (t.array i).head k = some c ∧
      tget 0 (t.array i).ages k = 0 ∧ (∀ j ∈ rs, j ≠ k → tget 0 (t.array i).ages j = tget 0 (s.array i).ages j +
        stepCycles c (match (s.array i).tile k with | some u => u.pass | none => 0)) ∧
      tget 0 (t.array i).eps k = (if (s.array i).tile k = none then (s.leader c.leader).wever else tget 0 (s.array i).eps k) ∧
      (c.kind ≤ 1 → ((t.array i).plane (c.flags % 2)).claim = some k) ∧ (c.kind = 0 → ((t.array i).plane (c.flags % 2)).st = 1) ∧
      (2 ≤ c.kind → (t.array i).p0 = (s.array i).p0 ∧ (t.array i).p1 = (s.array i).p1) ∧ (∀ y, y ≠ i → t.array y = s.array y) ∧
      (∀ m, t.leader m = { s.leader m with tlb := (t.leader m).tlb }) ∧ EngineAside s t)

/-- R181 to R186, R193, R196, R198, R211: a plane load leaves its plane VALID with the images read, or waits for their pages, or ends in a fault with its plane EMPTY;
MZERO empties its lines; MACLD fills them with the words read; each ends and its leader counts it. No byte of memory changes. -/
def Sys2Proof.Claims.MatrixCommands : Prop :=
  (∀ (s : State) (i k : Nat) (c : MatCmd), Runs s i k c → c.kind = 0 →
    let ep := tget 0 (s.array i).eps k
    let os := mldsOffsets (c.op 0) (c.op 1) c.prot
    (∀ ms, s.imageCheck c.leader ep c.prot (c.op 0) os = none → s.readImages c.leader ep c.prot (c.op 0) os = .ok ms →
      Ends (.planeLoadDone i) s fun t => MatEnded i k c s t ∧ EngineAside s t ∧ (t.array i).plane (c.flags % 2) = planeOf (dFmt (c.op 0)) k c.prot ms ∧
        ((t.array i).plane (c.flags % 2)).st = 2 ∧ (t.array i).lines = (s.array i).lines) ∧
    (∀ ps, s.imageCheck c.leader ep c.prot (c.op 0) os = some (.wait ps) →
      Ends (.planeLoadDone i) s fun t => t = { s with weights := { s.weights with want := t.weights.want } } ∧ ∀ p ∈ ps, (p.1, p.2, c.task) ∈ t.weights.want) ∧
    (∀ e, s.imageCheck c.leader ep c.prot (c.op 0) os = some (.fault e) ∨
        (s.imageCheck c.leader ep c.prot (c.op 0) os = none ∧ s.readImages c.leader ep c.prot (c.op 0) os = .error e) →
      Ends (.planeLoadDone i) s fun t => MatFaulted i k c e s t ∧ EngineAside s t ∧ (t.array i).plane (c.flags % 2) = Plane.reset ∧
        (t.array i).lines = (s.array i).lines)) ∧
  (∀ (s : State) (i k : Nat) (c : MatCmd), Runs s i k c → c.kind = 2 →
    let lo := (c.op 0).toNat % 2 ^ 9
    let m := (c.op 0).toNat / 2 ^ 9 % 2 ^ 9 + 1
    Ends (.matrixCommandEnd i) s fun t => MatEnded i k c s t ∧ BytesKept s t ∧ t = { s with leaders := t.leaders, arrays := t.arrays, pend := t.pend } ∧
      (∀ j, j < m → ((t.array i).line (lo + j)).vlen = 0) ∧ (∀ L, L < lo ∨ lo + m ≤ L → (t.array i).line L = (s.array i).line L)) ∧
  (∀ (s : State) (i k : Nat) (c : MatCmd), Runs s i k c → c.kind = 4 →
    let lo := (c.op 1).toNat % 2 ^ 9
    let m := (c.op 1).toNat / 2 ^ 9 % 2 ^ 9 + 1
    let bs := s.srcBytes c.leader (tget 0 (s.array i).eps k) c.prot (c.op 0) 0 (768 * m)
    s.cmdCheck i k c = none → bs.length = 768 * m →
    ((∀ b ∈ bs, b.2 = false) → Ends (.matrixCommandEnd i) s fun t => MatEnded i k c s t ∧ EngineAside s t ∧
      (∀ j u, j < m → u < 192 → ((t.array i).line (lo + j)).unit u = leNat (((bs.map fun b => b.1).drop (768 * j + 4 * u)).take 4)) ∧
      ∀ L, L < lo ∨ lo + m ≤ L → (t.array i).line L = (s.array i).line L) ∧
    ((∃ b ∈ bs, b.2 = true) → Ends (.matrixCommandEnd i) s fun t => MatFaulted i k c .ueConsumed s t ∧ EngineAside s t ∧
      ∀ L, L < lo ∨ lo + m ≤ L → (t.array i).line L = (s.array i).line L))

/-- Commands reach their streams, switch points choose among them, and plane loads and line commands take effect: `MatrixStreams`, `MatrixCommands` together. -/
def Obligations.MatrixStreamsRun : Prop := MatrixStreams ∧ MatrixCommands

/-- R201, R210, R214 to R218, R220, R221: a tile's step streams its rows past its plane, loads the next plane in its shadow and goes on to the next step; a narrow pass is judged
against its thresholds; an exceeding one is replayed, at once under QUALITY-FIRST and from the task's allowance otherwise; a commit moves the staged rows and charges the flags. -/
def Obligations.Tiles : Prop :=
  (∀ (s : State) (i k : Nat) (c : MatCmd) (b : Array_) (ms : List Mem) (us : List Opnd), Runs s i k c → c.isTile = true →
    let t0 := ((s.array i).tile k).getD (Tile.start c)
    let ep := tget 0 (s.array i).eps k
    let f := dFmt (passB c t0.pass)
    let pre := (s.array i).preloaded k f t0
    let p := if pre then b.plane (t0.kstep % 2) else planeOf f k (mirrored c t0.pass) ms
    t0.kstep + 1 < stepsOf c t0.pass → f ≠ 0x0B → s.stepCheck i k c t0 ep = none → (s.array i).tileInit k c = .ok b →
    (pre = false → s.readImages c.leader ep c.prot (passB c t0.pass) (stepOffsets c t0) = .ok ms) →
    s.readUnits c.leader ep c.prot (passA c t0.pass) (stepUnits c t0) = .ok us →
    b.badLines [linesOf (accMode (c.op 5)) (tileDst c) c.rows] = false →
    (∀ r, r < c.rows → b.badLines [((linesOf (accMode (c.op 5)) (tileDst c + r) 1).1 + t0.grp, 1)] = false) → b.unitLost (passA c t0.pass) = false → p.bad = 0 →
    Ends (.mtileStep i) s fun t => EngineAside s t ∧
      ((t.array i).cur = none ∧ (t.array i).head k = some c ∧ (t.array i).issue = (s.array i).issue + c.rows ∧
        (t.array i).plane (t0.kstep % 2) = p ∧ ((t.array i).plane ((t0.kstep + 1) % 2)).claim = some k ∧
        (∃ u, (t.array i).tile k = some u ∧ u.pass = t0.pass ∧ u.kstep = t0.kstep + 1 ∧ u.seq = t0.seq ∧ u.grp = t0.grp) ∧
        (∀ m, t.leader m = { s.leader m with tlb := (t.leader m).tlb, l1 := (t.leader m).l1 }) ∧ (∀ y, y ≠ i → t.array y = s.array y) ∨
       mirrored c t0.pass = true ∧ MatFaulted i k c .sdc s t)) ∧
  (∀ (s : State) (i k : Nat) (c : MatCmd) (u : Tile), Runs s i k c → (s.array i).tile k = some u → u.pass = 1 → stepsOf c 1 ≤ u.kstep → u.judged = none →
    (s.task c.task).stop = 0 → s.recorded c u = none →
    Ends (.verdict i) s fun t => (t.ctx c.ctx).rplT = (s.ctx c.ctx).rplT + 1 ∧ BytesCalm s t ∧
      ((∀ e, e < 3 → ¬ exceeds u c.abr e) → (t.ctx c.ctx).rplS = (s.ctx c.ctx).rplS ∧ t.leaders = s.leaders ∧
        (t.array i).tile k = some { u with judged := some (0, none) }) ∧
      ((∃ e, e < 3 ∧ exceeds u c.abr e) → (t.ctx c.ctx).rplS = (s.ctx c.ctx).rplS + 1 ∧
        (((s.task c.task).dw 0).getLsbD 52 = true → (∀ b, (s.array i).initRows c = .ok b → t.leaders = s.leaders ∧ (t.array i).lines = b.lines ∧
            ∃ v, (t.array i).tile k = some v ∧ v.pass = 2 ∧ v.kstep = 0 ∧ v.flags = 0) ∧
          ∀ b, (s.array i).initRows c = .error b → MatFaulted i k c .ueConsumed s t) ∧
        (((s.task c.task).dw 0).getLsbD 52 = false → t.leaders = s.leaders ∧ ∃ cs, cs ≠ 0 ∧ (t.array i).tile k = some { u with judged := some (cs, none) } ∧
          (cs % 2 = 1 ↔ exceeds u c.abr 0) ∧ (cs / 2 % 2 = 1 ↔ exceeds u c.abr 1) ∧ (cs / 4 % 2 = 1 ↔ exceeds u c.abr 2)))) ∧
  (∀ (s : State) (i k cs : Nat) (c : MatCmd) (u : Tile), Runs s i k c → (s.array i).tile k = some u → u.pass = 1 → stepsOf c 1 ≤ u.kstep →
    u.judged = some (cs, none) → cs ≠ 0 → (s.task c.task).stop = 0 →
    (∀ b, 0 < (s.task c.task).allow → (s.array i).initRows c = .ok b → Ends (.allowanceGrant i) s fun t =>
      (t.task c.task).allow = (s.task c.task).allow - 1 ∧ BytesCalm s t ∧ (t.array i).lines = b.lines ∧ t.leaders = s.leaders ∧
      ∃ v, (t.array i).tile k = some v ∧ v.pass = 2 ∧ v.kstep = 0 ∧ v.judged = some (cs, some true)) ∧
    ((s.task c.task).allow = 0 → Ends (.allowanceGrant i) s fun t => t.tasks = s.tasks ∧ t.ctxs = s.ctxs ∧ t.leaders = s.leaders ∧ BytesCalm s t ∧
      (t.array i).tile k = some { u with judged := some (cs, some false) })) ∧
  (∀ (s : State) (i k : Nat) (c : MatCmd) (u : Tile), Runs s i k c → c.isTile = true → (s.array i).tile k = some u → (s.task c.task).stop = 0 →
    let refused := u.pass = 1 ∧ ∃ cs, u.judged = some (cs, some false)
    let src := accLines (c.op 5) (accSrow (c.op 5)) c.rows
    let dst := accLines (c.op 5) (accRow (c.op 5)) c.rows
    (u.pass = 1 ∧ (∃ j, u.judged = some (0, j)) ∨ refused ∨ u.pass = 2 ∧ stepsOf c 2 ≤ u.kstep) → (s.array i).badLines [(src.1, dst.2)] = false →
    Ends (.tileCommit i) s fun t => MatEnded i k c s t ∧ ((s.leader c.leader).bind ≠ none → (s.leader c.leader).taskOf = c.task → BytesKept s t) ∧
      (refused → (t.ctx c.ctx).rplX = true) ∧ (¬ refused → t.ctxs = s.ctxs) ∧
      (t.leader c.leader).csr.fflags = (s.leader c.leader).csr.fflags |||
        (if (s.leader c.leader).bind ≠ none ∧ (s.leader c.leader).taskOf = c.task then u.flags else 0) ∧
      ((t.array i).p0.claim ≠ some k ∧ (t.array i).p1.claim ≠ some k) ∧
      (∀ j, j < dst.2 → (t.array i).line (dst.1 + j) = { ((s.array i).line (src.1 + j)).scrubbed with dirty := true }) ∧
      ∀ L, L < dst.1 ∨ dst.1 + dst.2 ≤ L → (t.array i).line L = (s.array i).line L)

/-- R322, R323, R332, R336, R338: COPY, COPYM, STAGE and CONSIGN whose registers keep their rules place one copy-queue entry with everything captured and make the token
QUEUED; the first bad register traps ILLEGAL_INSTR; a token in use or a full queue makes the leader wait. -/
def Sys2Proof.Claims.CopyIssue : Prop :=
  ∀ (i : Instr) (s : State) (n kind tok xf : Nat) (srcs : List Nat) (ops : List Word) (bad : Nat → Bool → Option Word),
    i.wf = true → copyOp (s.leader n).xr i = some (kind, tok, xf, srcs, ops, bad) → Ready s n srcs → (kind = 3 → 1 ≤ (s.leader n).level.toNat) →
    let b := bad s.grantedBanks ((s.leader n).csr.vt.getLsbD 11 || (s.leader n).protOf)
    (b = none → isFree ((s.leader n).tok tok) → (s.leader n).copyq.length < 32 → Ends i s fun t =>
      (t.leader n).tok tok = { st := .queued, kind := kind, code := 0, cause := 0, seq := (s.leader n).seq + 1, prog := 0, idx := 0, aux := 0,
                               num := (s.leader n).cmdNum + 1 } ∧
      OtherTokens tok (s.leader n) (t.leader n) ∧ (t.leader n).matq = (s.leader n).matq ∧
      (∃ c, (t.leader n).copyq = (s.leader n).copyq ++ [c] ∧ c.kind = kind ∧ c.tok = tok ∧ c.xf = xf ∧ c.ops = ops ∧ c.vt = (s.leader n).csr.vt ∧
        c.frm = (s.leader n).csr.frm ∧ c.task = (s.leader n).taskOf ∧ c.num = (s.leader n).cmdNum + 1 ∧ followsAs (s.leader n) n c i) ∧
      Sequenced 4 (s.leader n) (t.leader n) ∧ QueueKept (s.leader n) (t.leader n) ∧ OnlyLeader n s t ∧ BytesKept s t) ∧
    (∀ v, b = some v → Free s n → Ends i s (Trapped n 0x01 v 0 s)) ∧
    (b = none → ¬ isFree ((s.leader n).tok tok) ∨ 32 ≤ (s.leader n).copyq.length → Ends i s (Waits n 7 s))

/-- R344, R345: CANCEL makes an ended token IDLE, takes a queued entry back with code 6, and asks a running copy to stop; WAIT goes on when its conditions hold and makes
the leader see what the commands it named wrote, and waits otherwise. -/
def Sys2Proof.Claims.CancelAndWait : Prop :=
  (∀ (t : BitVec 3) (s : State) (n : Nat), Ready s n [] →
    let tk := (s.leader n).tok t.toNat
    (tk.st = .idle → Ends (.cancel t) s fun u => Sequenced 4 (s.leader n) (u.leader n) ∧ LeaderKept (s.leader n) (u.leader n) ∧
      (∀ r, u.xr n r = s.xr n r) ∧ OnlyLeader n s u ∧ BytesKept s u) ∧
    (tk.st = .done ∨ tk.st = .fault → Ends (.cancel t) s fun u => (u.leader n).tok t.toNat = { tk with st := .idle } ∧
      (u.leader n).copyq = (s.leader n).copyq ∧ (u.leader n).copyRun = (s.leader n).copyRun ∧ OtherTokens t.toNat (s.leader n) (u.leader n) ∧
      Sequenced 4 (s.leader n) (u.leader n) ∧ TokensKept (s.leader n) (u.leader n) ∧ OnlyLeader n s u ∧ BytesKept s u) ∧
    (tk.st = .queued → Ends (.cancel t) s fun u => (u.leader n).tok t.toNat = { tk with st := .fault, code := 6, cause := 0, idx := 0, aux := 0 } ∧
      (∀ c, c ∈ (u.leader n).copyq ↔ c ∈ (s.leader n).copyq ∧ c.tok ≠ t.toNat) ∧ OtherTokens t.toNat (s.leader n) (u.leader n) ∧
      Sequenced 4 (s.leader n) (u.leader n) ∧ TokensKept (s.leader n) (u.leader n) ∧ (∀ m, m ≠ n → u.leader m = s.leader m) ∧ BytesKept s u ∧
      u = { s with leaders := u.leaders, hub := { s.hub with arriving := u.hub.arriving, launches := u.hub.launches } }) ∧
    (∀ r, tk.st = .running ∨ tk.st = .suspended → tk.kind < 2 → (s.leader n).copyRun = some r → r.cmd.tok = t.toNat → Ends (.cancel t) s fun u =>
      (u.leader n).copyRun = some { r with stop := true } ∧ (u.leader n).toks = (s.leader n).toks ∧
      Sequenced 4 (s.leader n) (u.leader n) ∧ TokensKept (s.leader n) (u.leader n) ∧ OnlyLeader n s u ∧ BytesKept s u) ∧
    (∀ c, tk.st = .running ∨ tk.st = .suspended → tk.kind = 2 → (n, c) ∈ s.weights.stages → c.tok = t.toNat → c.task = (s.leader n).taskOf → Ends (.cancel t) s fun u =>
      (u.leader n).tok t.toNat = { tk with st := .fault, code := 6, cause := 0, idx := 0, aux := 0 } ∧
      (∀ e, e ∈ u.weights.stages ↔ e ∈ s.weights.stages ∧ ¬(e.1 = n ∧ e.2.tok = t.toNat ∧ e.2.task = (s.leader n).taskOf)) ∧ OtherTokens t.toNat (s.leader n) (u.leader n) ∧
      Sequenced 4 (s.leader n) (u.leader n) ∧ TokensKept (s.leader n) (u.leader n) ∧ (∀ m, m ≠ n → u.leader m = s.leader m) ∧ BytesKept s u ∧
      u = { s with leaders := u.leaders, weights := { s.weights with stages := u.weights.stages } })) ∧
  (∀ (t : BitVec 8) (ld st rq mq : BitVec 4) (s : State) (n : Nat), Ready s n [] →
    (WaitHolds s n t ld.toNat st.toNat rq.toNat mq.toNat → Ends (.wait t ld st rq mq) s fun u => Sequenced 4 (s.leader n) (u.leader n) ∧
      LeaderKept (s.leader n) (u.leader n) ∧ (∀ r, u.xr n r = s.xr n r) ∧ (∀ m, m ≠ n → u.leader m = s.leader m) ∧ BytesKept s u ∧
      u = { s with leaders := u.leaders, pend := u.pend } ∧
      u.pend.map (fun p => { p with seen := false }) = s.pend.map (fun p => { p with seen := false }) ∧
      (∀ p ∈ u.pend, p.agent = leaderAgent n → p.task = (s.leader n).taskOf → p.kind = .shadow → p.done = true → p.isCopy = true →
        (∃ k, k < 8 ∧ t.getLsbD k = true ∧ ((s.leader n).tok k).num = p.cmd) → p.seen = true) ∧
      (mq = 0 → ∀ p ∈ u.pend, p.agent = leaderAgent n → p.task = (s.leader n).taskOf → p.kind = .shadow → p.done = true → p.isCopy = false → p.seen = true)) ∧
    (¬ WaitHolds s n t ld.toNat st.toNat rq.toNat mq.toNat → Ends (.wait t ld st rq mq) s (Waits n 2 s)))

/-- COPY, COPYM, STAGE, CONSIGN, CANCEL and WAIT at the leader: `CopyIssue`, `CancelAndWait` together. -/
def Obligations.CopyQueue : Prop := CopyIssue ∧ CancelAndWait

/-- R339, R342, R343, R322: the free copy engine of a live rope starts its queue's head once every address has passed its probe, charging the task, and a failing address ends
it before a byte moves; a copy that would pass the budget is charged and left unstarted; STAGE and CONSIGN pass to the hub. -/
def Sys2Proof.Claims.CopyStarts : Prop :=
  ∀ (s : State) (n : Nat) (c : CopyCmd) (q : List CopyCmd), s.copyLive n = true → s.yielding n = false → s.stopping n = false → (s.leader n).copyRun = none →
    (s.leader n).copyq = c :: q →
    let k := s.task (s.leader n).taskOf
    (c.kind < 2 → ¬ overBytes k (k.copyBytes + c.charge) → ¬ overBytes k k.copyBytes →
      (s.copyProbe n c.prot (c.ops.getD 1 0) (c.runs c.prot) = .ok none → Ends (.copyStart n) s fun t => (t.leader n).copyq = q ∧
        (∃ r, (t.leader n).copyRun = some r ∧ r.cmd = c ∧ r.prog = 0 ∧ r.stop = false ∧ r.ep = (s.leader n).wever ∧ r.buf = []) ∧
        (t.leader n).tok c.tok = { (s.leader n).tok c.tok with st := .running } ∧ OtherTokens c.tok (s.leader n) (t.leader n) ∧
        (t.leader n) = { s.leader n with copyq := q, copyRun := (t.leader n).copyRun, toks := (t.leader n).toks, tlb := (t.leader n).tlb } ∧
        (k.rcd ≠ [] → (t.task (s.leader n).taskOf).copyBytes = k.copyBytes + c.charge) ∧ (∀ m, m ≠ n → t.leader m = s.leader m) ∧
        t.pend = s.pend ∧ t.arrays = s.arrays ∧ EngineAside s t) ∧
      (∀ cause idx aux, s.copyProbe n c.prot (c.ops.getD 1 0) (c.runs c.prot) = .ok (some (cause, idx, aux)) → Ends (.copyStart n) s fun t =>
        (t.leader n).copyq = q ∧ CopyFaulted n c 8 cause.code idx aux t ∧ (t.leader n).engDone = (s.leader n).engDone + 1 ∧
        (∀ m, m ≠ n → t.leader m = s.leader m) ∧ t.arrays = s.arrays ∧ EngineAside s t)) ∧
    (c.kind < 2 → overBytes k k.copyBytes → Ends (.copyStart n) s fun t => t = s) ∧
    (c.kind < 2 → overBytes k (k.copyBytes + c.charge) → ¬ overBytes k k.copyBytes → Ends (.copyStart n) s fun t =>
      t = { s with tasks := t.tasks } ∧ t.task (s.leader n).taskOf = { k with copyBytes := k.copyBytes + c.charge }) ∧
    (c.kind = 2 ∨ c.kind = 3 →
      Ends (.copyStart n) s fun t => (t.leader n).copyq = q ∧ (t.leader n).tok c.tok = { (s.leader n).tok c.tok with st := .running } ∧
        (c.kind = 2 → t.weights = { s.weights with stages := s.weights.stages ++ [(n, c)] }) ∧
        (c.kind = 3 → t.weights = { s.weights with consigns := s.weights.consigns ++ [(n, c)] }) ∧
        (∀ m, m ≠ n → t.leader m = s.leader m) ∧ t = { s with leaders := t.leaders, weights := t.weights } ∧ BytesKept s t)

/-- R339, R343, R344, R204, R280: a plain copy into scratch writes the bytes its source holds, up to each 128-byte boundary, and nothing else of scratch; a stop request takes
effect at a boundary; a finished copy makes its token DONE, or hands its follow-on to the first free stream of its array, the oldest that an array can take first. -/
def Sys2Proof.Claims.CopyMoves : Prop :=
  (∀ (s : State) (n d len : Nat) (r : CopyRun) (run : CRun), (s.leader n).copyRun = some r → EngineFree s n r.prog → r.cmd.xf = 0 → r.stop = false → r.buf = [] →
    runAtProg r.prog 0 (r.cmd.runs r.cmd.prot) = some (run, r.prog) → run.dsts = [.mem d len 0] →
    let v := s.probedBefore n r.rgns
    let D := r.cmd.ops.getD 1 0
    let src := run.srcs.flatMap fun x => v.csrcBytes n r.ep r.cmd.prot x
    D.toNat / 2 ^ 62 = 1 → (∀ e ∈ v.crunPages n r.ep run, s.staged e.1 e.2 = true) → v.runProbeAll n r.cmd.prot D (run.rowEnds D) = .ok none →
    (∀ e ∈ src, e.1.2 = false) → 0 < len →
    let k := min (128 - r.prog % 128) len
    let to_ := (D.toNat % 2 ^ 52 + d) % 2 ^ 64
    Ends (.copyBoundary n) s fun t => (∃ u, (t.leader n).copyRun = some u ∧ u.cmd = r.cmd ∧ u.prog = r.prog + k ∧ u.stop = false) ∧
      ((t.leader n).tok r.cmd.tok).prog = r.prog + k ∧ OtherTokens r.cmd.tok (s.leader n) (t.leader n) ∧
      (∀ j, j < k → (src[j]?.map fun e => e.1.1) = some (memByte (t.leader n).scratch (to_ + j))) ∧
      (∀ a, a < to_ ∨ to_ + k ≤ a → memByte (t.leader n).scratch a = memByte (s.leader n).scratch a) ∧
      RowsCalm s t ∧ ∀ m, m ≠ n → t.leader m = s.leader m) ∧
  (∀ (s : State) (n at_ : Nat) (r : CopyRun) (run : CRun), (s.leader n).copyRun = some r → EngineFree s n r.prog → r.buf ≠ [] → r.stop = true →
    runAtProg r.prog 0 (r.cmd.runs r.cmd.prot) = some (run, at_) →
    let k := min (r.cmd.piece - r.prog % r.cmd.piece) (run.len - (r.prog - at_))
    (r.prog + k) % 128 = 0 → r.prog + k < r.cmd.total r.cmd.prot → Ends (.copyBoundary n) s (CopyFaulted n r.cmd 6 0 0 0)) ∧
  (∀ (s : State) (n : Nat) (r : CopyRun), (s.leader n).copyRun = some r → s.copyLive n = true → r.cmd.total r.cmd.prot ≤ r.prog →
    (r.cmd.follow = none → Ends (.copyDone n) s fun t => (t.leader n).copyRun = none ∧
      (t.leader n).tok r.cmd.tok = { (s.leader n).tok r.cmd.tok with st := .done, code := 0, cause := 0, idx := 0, aux := 0 } ∧
      OtherTokens r.cmd.tok (s.leader n) (t.leader n) ∧ (t.leader n).engDone = (s.leader n).engDone + 1 ∧ (t.leader n).wfeEv = true ∧
      (∀ p ∈ t.pend, p.agent = leaderAgent n → p.task = (s.leader n).taskOf → p.kind = .shadow → p.cmd = r.cmd.num → p.done = true) ∧
      t.pend.length = s.pend.length ∧ (∀ m, m ≠ n → t.leader m = s.leader m) ∧ BytesKept s t) ∧
    (r.cmd.follow ≠ none → Ends (.copyDone n) s fun t =>
      t.leader n = { s.leader n with copyRun := none, follow := (s.leader n).follow ++ [r.cmd] } ∧ OnlyLeader n s t ∧ BytesKept s t)) ∧
  (∀ (s : State) (n : Nat) (c : CopyCmd) (f : MatCmd) (before after : List CopyCmd), s.copyLive n = true → (s.leader n).follow = before ++ c :: after →
    (∀ d ∈ before, Blocked s n d) → s.handedOver n c = false → c.follow = some f → (s.task f.task).stop = 0 →
    let i := 4 * n + f.arr
    let a := s.array i
    (a.stream1 = none ∨ a.stream2 = none ∨ a.stream3 = none) →
    Ends (.followOnHandover n) s fun t =>
      (a.stream1 = none → t.array i = { a with stream1 := some f }) ∧
      (a.stream1 ≠ none → a.stream2 = none → t.array i = { a with stream2 := some f }) ∧
      (a.stream1 ≠ none → a.stream2 ≠ none → t.array i = { a with stream3 := some f }) ∧
      (∀ j, j ≠ i → t.array j = s.array j) ∧ t = { s with arrays := t.arrays }) ∧
  (∀ (s : State) (n : Nat), (∀ d ∈ (s.leader n).follow, Blocked s n d) → Ends (.followOnHandover n) s fun t => t = s)

/-- The copy engine probes, moves, stops and hands on its follow-ons: `CopyStarts`, `CopyMoves` together. -/
def Obligations.CopyEngine : Prop := CopyStarts ∧ CopyMoves

/-- R319 to R322: a wanted page that is read from flash comes to the rows of a frame of its own and is counted once for each waiting task, unless every
waiting task is over its budget; a page still uncorrectable after two re-reads reads poisoned. A STAGE whose pages are present pins or unpins them for
its task and ends; one whose pages are absent waits behind the others; a dead tag's is dropped and counted. -/
def Sys2Proof.Claims.StagingFrames : Prop :=
  (∀ (s : State) (ph page : Nat), s.staged ph page = false → (∃ tk, (ph, page, tk) ∈ s.weights.want ∧ s.taskLive tk = true) →
    let waiting := fun (tk : Nat) => (s.weights.want.filter fun w => w == (ph, page, tk) && s.taskLive tk).length
    let fits := fun (tk : Nat) => (s.task tk).ended = true ∨ (s.task tk).over (s.task tk).bsm ((s.task tk).misses + 1) = false
    let counted := fun (t : State) => (∀ w, w ∈ t.weights.want ↔ w ∈ s.weights.want ∧ ¬(w.1 = ph ∧ w.2.1 = page)) ∧
      ∀ tk, (s.task tk).rcd ≠ [] → (t.task tk).misses = (s.task tk).misses + waiting tk
    let inFrame := fun (t : State) (f : SFrame) => f ∈ t.weights.frames ∧ f.phys = ph ∧ f.page = page ∧ f.pins = [] ∧
      ∀ g ∈ t.weights.frames, g ≠ f → stackOfPhys g.phys = stackOfPhys ph → g.place ≠ f.place
    ((∃ tk, (ph, page, tk) ∈ s.weights.want ∧ s.taskLive tk = true ∧ fits tk) →
      (Ends (.stagingFill ph page true) s fun t => counted t ∧
        tget 0 t.weights.fills (stackOfPhys ph) = tget 0 s.weights.fills (stackOfPhys ph) + 1 ∧ t.weights.uepages = s.weights.uepages ∧
        t.weights.bytes = s.weights.bytes ∧ t.weights.exts = s.weights.exts ∧ t.leaders = s.leaders ∧
        (∃ f, inFrame t f ∧ let at_ := frameRow (stackOfPhys ph) f.place
          (∀ j, j < pageLen page → t.rowByte (at_ + j) = memByte s.weights.bytes (ph * 2 ^ 26 + page * 24576 + j)) ∧
          (∀ j, j < 24576 → t.rowPoison (at_ + j) = false) ∧ ∀ a, a < at_ ∨ at_ + 24576 ≤ a → t.rowByte a = s.rowByte a)) ∧
      (Ends (.stagingFill ph page false) s fun t => counted t ∧
        tget 0 t.weights.uepages (stackOfPhys ph) = tget 0 s.weights.uepages (stackOfPhys ph) + 1 ∧
        tget 0 t.weights.rereads (stackOfPhys ph) = tget 0 s.weights.rereads (stackOfPhys ph) + 2 ∧ t.ring.head = s.ring.head + 1 ∧
        (∃ f, inFrame t f ∧ ∀ j, j < 24576 → OffRing s (frameRow (stackOfPhys ph) f.place + j) → t.rowPoison (frameRow (stackOfPhys ph) f.place + j) = true))) ∧
    ((∀ tk, (ph, page, tk) ∈ s.weights.want → s.taskLive tk = true → ¬fits tk) → ∀ ok, Ends (.stagingFill ph page ok) s fun t => counted t ∧
      t.weights = { s.weights with want := t.weights.want } ∧ t = { s with tasks := t.tasks, weights := t.weights } ∧ BytesKept s t)) ∧
  (∀ (s : State) (n w w2 : Nat) (c : CopyCmd) (q : List (Nat × CopyCmd)), s.weights.stages = (n, c) :: q → OnRope s c.task n → Holds s n c →
    let x := (s.task c.task).ctx
    let W := c.ops.getD 1 0
    let va := (c.ops.getD 0 0).toNat
    let last := va + W.toNat % 2 ^ 36 - 1
    let ps := s.pagesOf (s.leader n).wever w (w2 + 1 - w)
    let ended := fun (code : Nat) (t : State) => ((t.leader n).tok c.tok).st = (if code = 0 then .done else .fault) ∧ ((t.leader n).tok c.tok).code = code ∧
      OtherTokens c.tok (s.leader n) (t.leader n) ∧ HubAside n s t
    (s.liveAt 4 x (s.task c.task).inn = false → Ends .stageRun s fun t =>
      t = { s with weights := { s.weights with stages := q, fcStale := s.weights.fcStale + 1 } }) ∧
    (s.liveAt 4 x (s.task c.task).inn = true →
    (∀ e, s.hubProbe x n va 1 = .error e → Ends .stageRun s fun t => ended 8 t ∧ ((t.leader n).tok c.tok).cause = e.code ∧
      t.weights = { s.weights with stages := q }) ∧
    (s.hubProbe x n va 1 = .ok (.weight w) → s.hubProbe x n last 1 = .ok (.weight w2) → s.walk x va = s.walk x last →
    (∃ e, s.walk x va = some e ∧ e.cls = 4) →
    (W.getLsbD 63 = true → Ends .stageRun s fun t => ended 0 t ∧ t.weights.stages = q ∧
      t.weights.frames.length = s.weights.frames.length ∧
      (∀ (k : Nat) (f g : SFrame), s.weights.frames[k]? = some f → t.weights.frames[k]? = some g →
        g = { f with pins := g.pins } ∧ ∀ u, u ∈ g.pins ↔ u ∈ f.pins ∧ ¬(u = c.task ∧ (f.phys, f.page) ∈ ps))) ∧
    (W.getLsbD 63 = false → (∀ st, st < 8 → let f := (ps.filter fun p => !s.isPinned p && stackOfPhys p.1 == st).length
        f = 0 ∨ s.pinned st + f ≤ s.frameCount / 2) →
      ((∀ p ∈ ps, s.staged p.1 p.2 = true) → Ends .stageRun s fun t => ended 0 t ∧
        t.weights.stages = q ∧ t.weights.frames.length = s.weights.frames.length ∧
        (∀ (k : Nat) (f g : SFrame), s.weights.frames[k]? = some f → t.weights.frames[k]? = some g →
          g = { f with pins := g.pins } ∧ ∀ u, u ∈ g.pins ↔ u ∈ f.pins ∨ (u = c.task ∧ (f.phys, f.page) ∈ ps))) ∧
      ((∃ p ∈ ps, s.staged p.1 p.2 = false) → Ends .stageRun s fun t => t.weights.stages = q ++ [(n, c)] ∧ t.weights.frames = s.weights.frames ∧
        (∀ p ∈ ps, s.staged p.1 p.2 = false → (p.1, p.2, c.task) ∈ t.weights.want) ∧ t = { s with weights := t.weights } ∧ BytesKept s t)) ∧
    (W.getLsbD 63 = false → (∃ st, st < 8 ∧ let f := (ps.filter fun p => !s.isPinned p && stackOfPhys p.1 == st).length
        0 < f ∧ s.frameCount / 2 < s.pinned st + f) →
      Ends .stageRun s fun t => ended 4 t ∧ t.weights = { s.weights with stages := q }))))

/-- R324 to R328, R330, R331: an accepted consignment takes its shadow extents; each page programmed holds its source bytes and is paid from the purse; publication switches
every extent at once, and a reader of an earlier epoch keeps what it read; a dead tag's consignment is dropped at every stage; an unused extent that
no pin holds is erased. -/
def Sys2Proof.Claims.Consignments : Prop :=
  (∀ (s : State) (n : Nat) (c : CopyCmd) (q : List (Nat × CopyCmd)) (sh : List Nat), s.weights.consigns = (n, c) :: q → OnRope s c.task n → Holds s n c →
    let k := s.task c.task
    let src := (c.ops.getD 0 0).toNat
    let dst := (c.ops.getD 1 0).toNat
    let cnt := (c.ops.getD 2 0).toNat
    let s0 := { s with weights := { s.weights with consigns := q } }
    let s1 := s0.hubWalk k.ctx c.task (((List.range (cnt * 2 ^ 26 / 4096)).map fun j => src + 4096 * j) ++ [src + cnt * 2 ^ 26 - 1, dst])
    let stopped := fun (code cause : Nat) (t : State) => ((t.leader n).tok c.tok).st = .fault ∧ ((t.leader n).tok c.tok).code = code ∧
      ((t.leader n).tok c.tok).cause = cause ∧ t.weights = s0.weights ∧ t.ring.head = s1.ring.head + 1 ∧ HubAside n s t
    (s.liveAt 4 k.ctx k.inn = false → Ends .consignmentAccept s fun t => t.weights = { s0.weights with fcStale := s.weights.fcStale + 1 } ∧
      t.leaders = s.leaders ∧ t.ring.head = s.ring.head + 1 ∧ BytesCalm s t) ∧
    (s.liveAt 4 k.ctx k.inn = true →
      (∀ e, s1.sourceFault k.ctx n src (cnt * 2 ^ 26) = some e → Ends .consignmentAccept s (stopped 5 e.code)) ∧
      (∀ e, s1.sourceFault k.ctx n src (cnt * 2 ^ 26) = none → s1.destExtent k.ctx dst cnt = .error e → Ends .consignmentAccept s (stopped 5 e.code)) ∧
      ∀ x0, s1.sourceFault k.ctx n src (cnt * 2 ^ 26) = none → s1.destExtent k.ctx dst cnt = .ok x0 →
        let xs := (List.range cnt).map fun i => x0 + i
        (s.weights.purse < cnt * 2 ^ 26 → Ends .consignmentAccept s (stopped 1 0)) ∧
        (cnt * 2 ^ 26 ≤ s.weights.purse → s1.allocShadows true xs [] = none → (∃ y, s1.allocShadows false xs [] = some y) →
          Ends .consignmentAccept s (stopped 1 0)) ∧
        (cnt * 2 ^ 26 ≤ s.weights.purse → s1.allocShadows true xs [] = none → s1.allocShadows false xs [] = none → Ends .consignmentAccept s (stopped 4 0)) ∧
        (cnt * 2 ^ 26 ≤ s.weights.purse → s1.allocShadows true xs [] = some sh → 64 ≤ s.weights.queue.length → Ends .consignmentAccept s (stopped 4 0)) ∧
        (cnt * 2 ^ 26 ≤ s.weights.purse → s1.allocShadows true xs [] = some sh → s.weights.queue.length < 64 →
          Ends .consignmentAccept s fun t => (∃ e, t.weights.queue = s.weights.queue ++ [e] ∧ e.src = src ∧ e.ext0 = x0 ∧ e.n = cnt ∧ e.shadows = sh ∧
              e.ctx = k.ctx ∧ e.inn = k.inn ∧ e.task = c.task ∧ e.leader = n ∧ e.tok = c.tok ∧ e.verified = false ∧ e.ended = false) ∧
            (∀ p, p ∈ sh → (tget Phys.reset t.weights.phys p).used = true) ∧
            (∀ p, p ∉ sh → tget Phys.reset t.weights.phys p = tget Phys.reset s.weights.phys p) ∧
            t.weights.purse = s.weights.purse ∧ t.weights.consigns = q ∧ t.leaders = s.leaders ∧ HubAside n s t))) ∧
  (∀ (s : State) (st i k : Nat) (c : Consign), s.nextPage st = some (c, i, k) → s.savedFrame c.task c.leader = none →
    let ph := c.shadows.getD i 0
    let va := c.src + i * 2 ^ 26 + k * 24576
    let bs := (List.range (pageLen k)).map fun j => s.consignByte c (va + j)
    let gone := s.hubAbsent c.ctx c.leader (s.thread c.task c.leader).wever va (pageLen k)
    let out := fun (t : State) => (∀ x ∈ t.weights.queue, x.id ≠ c.id) ∧ t.weights.exts = s.weights.exts ∧ ∀ a, Calm s a → t.rowByte a = s.rowByte a
    (s.liveAt 4 c.ctx c.inn = false → ∀ ok, Ends (.consignProgramPage st ok) s fun t => out t ∧
      t.weights.purse = s.weights.purse ∧ t.weights.fcStale = s.weights.fcStale + 1 ∧ t.leaders = s.leaders) ∧
    (s.liveAt 4 c.ctx c.inn = true →
    (gone ≠ [] → ∀ ok, Ends (.consignProgramPage st ok) s fun t => (∀ p ∈ gone, (p.1, p.2, c.task) ∈ t.weights.want) ∧
      t = { s with weights := { s.weights with want := t.weights.want } }) ∧
    (gone = [] → (∃ b ∈ bs, b.2 = true) → ∀ ok, Ends (.consignProgramPage st ok) s fun t => out t ∧ t.weights.purse = s.weights.purse ∧
      t.weights.bytes = s.weights.bytes) ∧
    (gone = [] → (∀ b ∈ bs, b.2 = false) →
    (Ends (.consignProgramPage st true) s fun t => (∀ j, j < pageLen k → memByte t.weights.bytes (ph * 2 ^ 26 + k * 24576 + j) = (s.consignByte c (va + j)).1) ∧
      (∀ a, a < ph * 2 ^ 26 + k * 24576 ∨ ph * 2 ^ 26 + k * 24576 + pageLen k ≤ a → memByte t.weights.bytes a = memByte s.weights.bytes a) ∧
      t.weights.purse = s.weights.purse - pageLen k ∧ (∀ x ∈ t.weights.queue, x.id = c.id → tget 0 x.pages i = k + 1) ∧
      (∀ a, Calm s a → t.rowByte a = s.rowByte a) ∧ t.weights.exts = s.weights.exts) ∧
    (Ends (.consignProgramPage st false) s fun t => (tget Phys.reset t.weights.phys ph).retired = true ∧ out t)))) ∧
  (∀ (s : State) (id : Nat) (c : Consign), (s.weights.queue.find? fun c => c.id == id) = some c → c.ended = false → c.verified = false → c.programmed = true →
    s.savedFrame c.task c.leader = none →
    let out := fun (t : State) => (∀ x ∈ t.weights.queue, x.id ≠ id) ∧ t.weights.exts = s.weights.exts ∧ BytesCalm s t
    (s.liveAt 4 c.ctx c.inn = true →
      (Ends (.consignVerify id true) s fun t => (∀ x ∈ t.weights.queue, x.id = id → x = { c with verified := true }) ∧ t = { s with weights := t.weights } ∧ BytesKept s t) ∧
      (Ends (.consignVerify id false) s out)) ∧
    (s.liveAt 4 c.ctx c.inn = false → ∀ ok, Ends (.consignVerify id ok) s fun t => out t ∧ t.weights.fcStale = s.weights.fcStale + 1 ∧ t.leaders = s.leaders)) ∧
  (∀ (s : State) (id : Nat) (c : Consign), (s.weights.queue.find? fun c => c.id == id) = some c → c.ended = false → s.savedFrame c.task c.leader = none →
    (s.live c.ctx c.inn = false → Ends (.consignPublish id) s fun t => (∀ x ∈ t.weights.queue, x.id ≠ id) ∧ t.weights.exts = s.weights.exts ∧
      t.weights.epoch = s.weights.epoch ∧ t.leaders = s.leaders ∧ BytesCalm s t) ∧
    (s.live c.ctx c.inn = true → c.verified = true →
    (∀ x ∈ s.weights.queue.takeWhile (fun x => x.id != id), ¬(x.ext0 < c.ext0 + c.n ∧ c.ext0 < x.ext0 + x.n)) →
    (∀ k, k < c.n → (tget Extent.reset s.weights.exts (c.ext0 + k)).prev = none ∧ s.prevInUse (tget Extent.reset s.weights.exts (c.ext0 + k)) = false) →
    Ends (.consignPublish id) s fun t => t.weights.epoch = s.weights.epoch + 1 ∧
      (∀ k, k < c.n → t.physOf (c.ext0 + k) t.weights.epoch = some (c.shadows.getD k 0) ∧
        ∀ ep, (tget Extent.reset s.weights.exts (c.ext0 + k)).since ≤ ep → ep ≤ s.weights.epoch → t.physOf (c.ext0 + k) ep = s.physOf (c.ext0 + k) ep) ∧
      (∀ e ep, e < c.ext0 ∨ c.ext0 + c.n ≤ e → t.physOf e ep = s.physOf e ep) ∧ (∀ x ∈ t.weights.queue, x.id ≠ id) ∧ t.weights.purse = s.weights.purse ∧
      BytesCalm s t)) ∧
  (∀ (s : State) (ph : Nat), (tget Phys.reset s.weights.phys ph).used = true → (∀ e ∈ s.weights.exts, e.2.cur ≠ some ph) →
    (∀ c ∈ s.weights.queue, ph ∉ c.shadows) →
    let free := (∀ e ∈ s.weights.exts, e.2.prev = some ph → s.prevInUse e.2 = false) ∧
      ((∃ e ∈ s.weights.exts, e.2.prev = some ph) → ∀ f ∈ s.weights.frames, f.phys = ph → f.pins = [])
    let p := tget Phys.reset s.weights.phys ph
    (free → Ends (.extentErase ph) s fun t =>
      tget Phys.reset t.weights.phys ph = { erases := p.erases + 1, retired := p.retired || decide (3000 ≤ p.erases + 1), used := false } ∧
      (∀ a, ph * 2 ^ 26 ≤ a → a < (ph + 1) * 2 ^ 26 → memByte t.weights.bytes a = 0) ∧
      (∀ a, a < ph * 2 ^ 26 ∨ (ph + 1) * 2 ^ 26 ≤ a → memByte t.weights.bytes a = memByte s.weights.bytes a) ∧ (∀ f ∈ t.weights.frames, f.phys ≠ ph) ∧
      (∀ e ∈ t.weights.exts, e.2.prev ≠ some ph) ∧
      t = { s with weights := t.weights }) ∧
    ((∃ e ∈ s.weights.exts, e.2.prev = some ph) → (∃ f ∈ s.weights.frames, f.phys = ph ∧ f.pins ≠ []) → Ends (.extentErase ph) s fun t => t = s)) ∧
  (∀ (s : State), (s.time / (86400 * 10 ^ 9) ≠ s.weights.day → Ends .installPurseRefill s fun t =>
      t = { s with weights := { s.weights with day := s.time / (86400 * 10 ^ 9), purse := s.weights.purseSet } }) ∧
    (s.time / (86400 * 10 ^ 9) = s.weights.day → Ends .installPurseRefill s fun t => t = s))

/-- Staging frames, pins, and consignments from acceptance to publication and erasure: `StagingFrames`, `Consignments` together. -/
def Obligations.FlashStore : Prop := StagingFrames ∧ Consignments

/-- R378 to R382, R384: at an interval's end each task's exact totals take the charges of its events, which the state has counted, and its registers the totals' nanojoules; STEP rises by one when the draw
passed the cap, unless it stands at 15 or at HSTEP with a deadline bound, and falls after eight low intervals; the permit is judged the same way. -/
def Obligations.PurserIntervals : Prop :=
  ∀ (s : State) (cs : List (Nat × Nat × Nat)), s.hub.lastUs < s.time / 1000 →
    let es := intervalOf s cs
    let draw := chargedTo es (fun _ => true) + ropesDue s
    let rows := chargedTo es fun e => decide (e.1 < 2)
    Ends (.purserIntervalEnd cs) s fun t => t = { s with counts := [], tasks := t.tasks, hub := t.hub } ∧ t.hub.thermal = false ∧ BytesKept s t ∧ t.hub.lastUs = s.hub.lastUs + 1 ∧ t.hub.cap = s.hub.cap ∧
      (s.hub.cap * 1000000 < draw → t.hub.low = 0 ∧ (15 ≤ s.hub.step ∨ (deadlineRuns s ∧ s.hub.hstep ≤ s.hub.step) → t.hub.step = s.hub.step) ∧
        (s.hub.step < 15 → ¬(deadlineRuns s ∧ s.hub.hstep ≤ s.hub.step) → t.hub.step = s.hub.step + 1)) ∧
      (draw ≤ s.hub.cap * 1000000 → 15 * (s.hub.cap * 1000000) ≤ draw * 16 → t.hub.low = 0 ∧ t.hub.step = s.hub.step) ∧
      (draw ≤ s.hub.cap * 1000000 → draw * 16 < 15 * (s.hub.cap * 1000000) → (s.hub.low = 7 → t.hub.low = 0 ∧ t.hub.step = s.hub.step - 1) ∧
        (s.hub.low ≠ 7 → t.hub.low = s.hub.low + 1 ∧ t.hub.step = s.hub.step)) ∧
      (s.hub.wrow * 1000000 < rows → t.hub.permit = max 4 (s.hub.permit - 4)) ∧
      (rows ≤ s.hub.wrow * 1000000 → 7 * (s.hub.wrow * 1000000) ≤ rows * 8 → t.hub.permit = s.hub.permit) ∧
      (rows * 8 < 7 * (s.hub.wrow * 1000000) → t.hub.permit = if s.hub.rowLow = 7 then max s.hub.permit (min s.hub.pmax (s.hub.permit + 4)) else s.hub.permit) ∧
      ∀ k, k ≠ 0 → (s.task k).rcd ≠ [] → (t.task k).total = (s.task k).total + chargedTo es (fun e => e.2.1 == k) +
          ((s.task k).ropeCyc - (s.task k).ropeCharged) * Config.weight 12 ∧ (t.task k).enTask = (t.task k).total / 1000 ∧
        (t.task k).enRow = ((s.task k).row + chargedTo es fun e => e.2.1 == k && decide (e.1 < 2)) / 1000 ∧
        (t.task k).enMat = ((s.task k).mat + chargedTo es fun e => e.2.1 == k && (decide (2 ≤ e.1 ∧ e.1 < 8) || e.1 == 13)) / 1000 ∧
        (t.task k).ropeCharged = (s.task k).ropeCyc

/-- R383, R385, R386, R427: an array takes the purser's STEP when it arrives; at its ramp interval's end a filler array falls by one, and a lone due array rises by one if its
added draw keeps the slew limit; past 100 °C STEP rises once an interval, past 110 °C the package powers down and no step follows. -/
def Obligations.RampsAndHeat : Prop :=
  (∀ (s : State) (a : Nat), a < 768 → Ends (.stepArrival a) s fun t => t.array a = { s.array a with step := s.hub.step } ∧ OnlyArray a s t) ∧
  (∀ (s : State), twf Array_.reset s.arrays = true → Ends .rampIntervalEnd s fun t => t = { s with arrays := t.arrays, counts := t.counts, tasks := t.tasks } ∧
      ((∀ i, (s.array i).filler = true → 0 < (s.array i).ramp → s.cycle < (s.array i).rampAt + 250 * (s.array i).rampI) → t = { s with arrays := t.arrays }) ∧
      (∀ i, s.cycle < (s.array i).rampAt + 250 * (s.array i).rampI → t.array i = s.array i) ∧
      (∀ i, (s.array i).rampAt + 250 * (s.array i).rampI ≤ s.cycle → (s.array i).filler = true → (s.array i).owner = none → 0 < (s.array i).ramp →
        (t.array i).ramp = (s.array i).ramp - 1 ∧ ((t.array i).filler = true ↔ 1 < (s.array i).ramp)) ∧
      (∀ i, (s.array i).filler = false → (s.array i).ramp ≤ (t.array i).ramp ∧ (t.array i).ramp ≤ (s.array i).ramp + 1 ∧
        (16 ≤ (s.array i).ramp ∨ (s.array i).owner = none → t.array i = s.array i)) ∧
      (∀ i, (s.array i).filler = false → (s.array i).owner ≠ none → (s.array i).ramp < 16 → (s.array i).rampAt + 250 * (s.array i).rampI ≤ s.cycle →
        (∀ j, j ≠ i → (s.array j).owner = none) →
        let len := 250 * (s.array i).rampI
        (t.array i).rampAt = (s.array i).rampAt + (s.cycle - (s.array i).rampAt) / len * len ∧
        (t.array i).ramp = if (s.array i).rampSlew * (s.array i).rampI * 640 < s.rampAdds i then (s.array i).ramp else (s.array i).ramp + 1) ∧
      (∀ i, (s.array i).rampAt + 250 * (s.array i).rampI ≤ s.cycle → (s.array i).filler = true → (s.array i).owner ≠ none → 0 < (s.array i).ramp →
        (t.array i).ramp = max 1 ((s.array i).ramp - 1) ∧ ((t.array i).filler = true ↔ 1 < (s.array i).ramp))) ∧
  (∀ (s : State), (s.hub.thermal = true → Ends .thermalThrottle s fun t => t = s) ∧
    (s.hub.thermal = false → Ends .thermalThrottle s fun t => t.hub.step = min 15 (s.hub.step + 1) ∧ t.hub.thermal = true ∧ BytesCalm s t ∧ t.leaders = s.leaders)) ∧
  (∀ (s : State), Ends .thermalShutdown s fun t => t.down = true ∧ t.ring.head = s.ring.head + 1 ∧ BytesCalm s t ∧
    t = { s with down := true, ring := t.ring, rows := t.rows, ecc := t.ecc, cacheOld := t.cacheOld } ∧ step t = .fault .poweredDown)

/-- R412, R413, R416, R411: a READ through a window returns the bytes of a SYNC or PHASED region; a WRITE of a SYNC region changes exactly its bytes, one of a PHASED region
waits unpublished; a request that no window claims, that misses its region or whose header is malformed completes with its status and no effect. -/
def Sys2Proof.Claims.HostAccesses : Prop :=
  (∀ (s : State) (h0 h1 : Word) (c n hb vb pa cls scope home : Nat), Arrives s h0 1 → wellMade h0 → Outside s h1.toNat →
    s.windowAt h1.toNat (lengthOf h0) = some (c, n, hb, vb) → (c = 0 ∨ (s.ctx c).st = 1) →
    s.hostProbe c (vb + (h1.toNat - hb)) (lengthOf h0) false = .ok (.row pa cls scope home) →
    let bs := (List.range (lengthOf h0)).map fun k => s.hubByte (nobody c) 0 s.weights.epoch (.row (pa + k) cls scope home)
    Ends (.hostRead h0 h1) s fun t => HostAside s t ∧ t.pend = s.pend ∧ BytesCalm s t ∧
      ((∀ b ∈ bs, b.2 = false) → Completed 0x81 (tagOf h0) 0 (bs.map fun b => b.1) s t) ∧
      ((∃ b ∈ bs, b.2 = true) → Completed 0x81 (tagOf h0) 5 [] s t)) ∧
  (∀ (s : State) (h0 h1 : Word) (d : List (BitVec 8)) (c n hb vb pa cls scope home : Nat), Arrives s h0 2 → wellMade h0 → d.length = lengthOf h0 → Outside s h1.toNat →
    s.windowAt h1.toNat (lengthOf h0) = some (c, n, hb, vb) → (c = 0 ∨ (s.ctx c).st = 1) →
    s.hostProbe c (vb + (h1.toNat - hb)) (lengthOf h0) true = .ok (.row pa cls scope home) →
    Ends (.hostWrite h0 h1 d) s fun t => Completed 0x82 (tagOf h0) 0 [] s t ∧ HostAside s t ∧
      (cls = 3 → (∀ k, (h : k < d.length) → t.rowByte (pa + k) = d[k]) ∧
        (∀ a, a < pa ∨ pa + d.length ≤ a → Calm s a → t.rowByte a = s.rowByte a) ∧ t.pend = s.pend) ∧
      (cls ≠ 3 → BytesCalm s t ∧ ∃ p, t.pend = s.pend ++ [p] ∧ p.agent = hostAgent ∧ p.pa = pa ∧ p.data = d ∧ p.ctx = c ∧ p.cls = cls)) ∧
  (∀ (s : State) (h0 h1 : Word) (d : List (BitVec 8)) (op : Nat), op = 1 ∨ op = 2 → Arrives s h0 op → d.length = lengthOf h0 →
    let i : Instr := if op = 1 then .hostRead h0 h1 else .hostWrite h0 h1 d
    (∀ k, 3 ≤ k → (∀ g0, Arrives s g0 k → Ends (.hostWrite g0 h1 d) s fun t => Completed 0x82 (tagOf g0) 7 [] s t ∧ t = { s with host := t.host })) ∧
    (∀ g0 k, s.hub.link = true → g0.toNat / 2 ^ 56 = k → 1 ≤ k → g0.toNat / 2 ^ 32 % 2 ^ 10 ∈ s.host.tags →
      Ends (if k = 1 then .hostRead g0 h1 else .hostWrite g0 h1 d) s fun t => t.host = s.host ∧ t.ring.head = s.ring.head + 1 ∧ BytesCalm s t) ∧
    (¬ wellMade h0 → Ends i s fun t => Completed (0x80 + op) (tagOf h0) 7 [] s t ∧ t = { s with host := t.host }) ∧
    (wellMade h0 → Outside s h1.toNat → s.windowAt h1.toNat (lengthOf h0) = none → Ends i s fun t => Completed (0x80 + op) (tagOf h0) 1 [] s t ∧
      t.host.stale = s.host.stale + 1 ∧ t = { s with host := t.host }) ∧
    (∀ c n hb vb, wellMade h0 → Outside s h1.toNat → s.windowAt h1.toNat (lengthOf h0) = some (c, n, hb, vb) → c ≠ 0 → (s.ctx c).st ≠ 1 →
      Ends i s fun t => Completed (0x80 + op) (tagOf h0) 1 [] s t ∧ t.host.stale = s.host.stale + 1 ∧ t = { s with host := t.host }) ∧
    (∀ c n hb vb e, wellMade h0 → Outside s h1.toNat → s.windowAt h1.toNat (lengthOf h0) = some (c, n, hb, vb) → (c = 0 ∨ (s.ctx c).st = 1) →
      s.hostProbe c (vb + (h1.toNat - hb)) (lengthOf h0) (op == 2) = .error e → Ends i s fun t =>
        Completed (0x80 + op) (tagOf h0) (match e with | .misaligned => 2 | .regionMiss => 3 | _ => 4) [] s t ∧ HostAside s t ∧ t.pend = s.pend ∧
        BytesCalm s t)) ∧
  (∀ (s : State) (tag off : Nat) (v : Word), tag < 1024 → tag ∉ s.host.tags → s.hub.link = true →
    (off = 0x2000 → Ends (.registerWrite tag off v) s fun t => Completed 0x82 tag 0 [] s t ∧ t.host.even = v &&& 0xFFFF#64 ∧ t = { s with host := t.host }) ∧
    (off = 0 ∨ off = 8 → Ends (.registerWrite tag off v) s fun t => Completed 0x82 tag 0 [] s t ∧ t.host.slots = s.host.slots ∧ t = { s with host := t.host }) ∧
    (∀ j, j < 16 → off = 0x1000 + 16 * j → (s.mail j).busy = false → v.toNat / 2 ^ 60 ≠ 0 → Ends (.registerWrite tag off v) s fun t =>
      Completed 0x82 tag 0 [] s t ∧ (t.mail j).busy = true ∧ (t.mail j).rsp.getLsbD 63 = false ∧ (t.mail j).req = v &&& ~~~0x0C00000000000000#64 ∧
      (t.mail j).cmd = v &&& ~~~0x0C00000000000000#64 ∧ (t.mail j).order = s.host.order + 1 ∧ (∀ k, k ≠ j → t.mail k = s.mail k) ∧
      t = { s with host := t.host }) ∧
    (∀ j, j < 16 → off = 0x1000 + 16 * j → (s.mail j).busy = true → Ends (.registerWrite tag off v) s fun t =>
      Completed 0x82 tag 0 [] s t ∧ t.mail j = { s.mail j with req := v &&& ~~~0x0C00000000000000#64, rsp := (s.mail j).rsp ||| 0x4000000000000000#64 } ∧
      (∀ k, k ≠ j → t.mail k = s.mail k) ∧ t = { s with host := t.host }) ∧
    (∀ j, j < 16 → off = 0x1008 + 16 * j → Ends (.registerWrite tag off v) s fun t => Completed 0x82 tag 0 [] s t ∧
      t.mail j = { s.mail j with rsp := if v.getLsbD 62 then (s.mail j).rsp &&& ~~~0x4000000000000000#64 else (s.mail j).rsp } ∧
      (∀ k, k ≠ j → t.mail k = s.mail k) ∧ t = { s with host := t.host }) ∧
    (off = 0x10 ∨ 0x2008 ≤ off → Ends (.registerWrite tag off v) s fun t => Completed 0x82 tag 6 [] s t ∧ t = { s with host := t.host }))

/-- R417, R418, R421, R424, R426: the hub serves mailbox slots in arrival order: LAUNCH queues its request, KILL begins the death of a live tag, ATTEST writes its report,
REPLAY names what to re-run, any other OP is answered 0x20; in recovery all but ATTEST are refused. -/
def Sys2Proof.Claims.MailboxRequests : Prop :=
  (∀ (s : State) (i c : Nat), s.hub.recovery = false → Asked s i 1 →
    let arg := (s.mail i).cmd.toNat % 2 ^ 52
    let w := (s.mail i).cmd.toNat / 2 ^ 52 % 2 ^ 6
    (s.mailWindow w arg 256 = some c → Ends (.mailboxLaunch i) s fun t => t.hub.arriving = s.hub.arriving ++
        [{ leader := none, slot := some i, ctx := c, inn := (s.ctx c).inn, task := 0, level := 2, va := arg }] ∧ (t.mail i).busy = true ∧ (t.mail i).order = 0 ∧
        BytesKept s t ∧ t = { s with hub := t.hub, host := t.host }) ∧
    (s.mailWindow w arg 256 = none → Ends (.mailboxLaunch i) s fun t => Answered i 0x21 4 0 s t ∧ t = { s with host := t.host })) ∧
  (∀ (s : State) (i : Nat), s.hub.recovery = false → Asked s i 2 →
    let arg := (s.mail i).cmd.toNat % 2 ^ 52
    let c := arg / 2 ^ 14 % 2 ^ 10
    (arg / 2 ^ 24 % 2 ^ 27 ≠ 0 ∨ c = 0 → Ends (.mailboxKill i) s fun t => Answered i 0x21 1 0 s t ∧ t = { s with host := t.host }) ∧
    (arg / 2 ^ 24 % 2 ^ 27 = 0 → c ≠ 0 → (s.ctx c).st = 1 → (s.ctx c).inn = arg % 2 ^ 14 → Ends (.mailboxKill i) s fun t =>
        KillStarted c (arg % 2 ^ 14) s t ∧ Answered i 0 0 (c * 2 ^ 14 + nextIn (s.ctx c).q (arg % 2 ^ 14)) s t) ∧
    (arg / 2 ^ 24 % 2 ^ 27 = 0 → c ≠ 0 → ¬((s.ctx c).st = 1 ∧ (s.ctx c).inn = arg % 2 ^ 14) → Ends (.mailboxKill i) s fun t =>
        Answered i 0 0 0 s t ∧ t = { s with host := t.host })) ∧
  (∀ (s : State) (i c : Nat), Asked s i 3 →
    let arg := (s.mail i).cmd.toNat % 2 ^ 52
    let w := (s.mail i).cmd.toNat / 2 ^ 52 % 2 ^ 6
    (s.mailWindow w arg 352 = none → Ends (.mailboxAttest i) s fun t => Answered i 0x21 4 0 s t ∧ t = { s with host := t.host }) ∧
    (s.mailWindow w arg 352 = some c → (c = 0 ∨ (s.ctx c).st = 1) →
      (∀ p ∈ hostPieces arg 32, ∃ t, s.hostProbe c p.1 p.2 false = .ok t ∧ ∀ k, k < p.2 → (s.hubByte (nobody c) 0 s.weights.epoch (t.plus k)).2 = false) →
      (∀ p ∈ hostPieces (arg + 32) 320, ∃ t, s.hostProbe c p.1 p.2 true = .ok t) →
      Ends (.mailboxAttest i) s fun t => Answered i 0 0 0 s t ∧ t.leaders = s.leaders ∧ t.weights = s.weights ∧ t.hub = s.hub)) ∧
  (∀ (nonce : List (BitVec 8)) (s : State), (s.report nonce).length = 256 ∧ (nonce.length = 32 → (s.report nonce).take 32 = nonce)) ∧
  (∀ (s : State) (i : Nat), s.hub.recovery = false → Asked s i 4 → Ends (.mailboxReplay i) s fun t => Answered i 0 0 0 s t ∧
      t.hub = { s.hub with replay := some ((s.mail i).cmd.toNat / 2 ^ 32 % 2 ^ 10, (s.mail i).cmd.toNat % 2 ^ 32) } ∧ t = { s with hub := t.hub, host := t.host }) ∧
  (∀ (s : State) (i op : Nat), s.hub.recovery = false → Asked s i op → 5 ≤ op → Ends (.mailboxBadOp i) s fun t => Answered i 0x20 0 0 s t ∧ t = { s with host := t.host }) ∧
  (∀ (s : State) (i op : Nat), s.hub.recovery = true → Asked s i op → op = 1 ∨ op = 2 ∨ op = 4 ∨ 5 ≤ op →
    let e : Instr := if op = 1 then .mailboxLaunch i else if op = 2 then .mailboxKill i else if op = 4 then .mailboxReplay i else .mailboxBadOp i
    Ends e s fun t => Answered i 0x21 0xB0 0 s t ∧ t = { s with host := t.host })

/-- Host reads, writes and register page, and the mailbox operations: `HostAccesses`, `MailboxRequests` together. -/
def Obligations.HostPort : Prop := HostAccesses ∧ MailboxRequests

/-- R356, R368, R370, R412, R40, R411, R419, R6, R421: the firmware's and operator's writes set the entry, record, window or setting they name and nothing else; an invalid bind
record is recorded; a package reset keeps flash and settings, and enters recovery unless all three images load. -/
def Obligations.TablesAndSettings : Prop :=
  (∀ (s : State) (c : Nat) (ws : List Word), c < 1024 →
    let d := fun k => ws.getD k 0
    let tabled := fun (e : Ctx) => e.prot = (d 0).getLsbD 61 ∧ e.rtb = (d 1).toNat / 2 ^ 7 % 2 ^ 33 * 128 ∧ e.biv = (d 3).toNat / 2 ^ 12 % 2 ^ 28 * 4096 ∧
      e.gtb = (d 2 &&& 0x000FFFFFFFFFF000#64) ∧ e.entry = (d 4 &&& 0x3FFFC#64)
    (c ≠ 0 → (s.ctx c).st = 0 → Ends (.contextCreate c ws) s fun t => (t.ctx c).st = 1 ∧ (t.ctx c).inn = (d 0).toNat % 2 ^ 14 ∧ tabled (t.ctx c) ∧
      (t.ctx c).rplT = 0 ∧ (t.ctx c).rplX = false ∧ (t.ctx c).engaged = [] ∧ (t.ctx c).badRgn = [] ∧ (t.ctx c).fenced = (s.ctx c).fenced ∧
      (∀ k, k ≠ c → t.ctx k = s.ctx k) ∧ t = { s with ctxs := t.ctxs }) ∧
    (c = 0 ∨ (s.ctx c).st ≠ 0 → (∀ e ∈ s.leaders, ∀ b, e.2.bind = some b → b.ctx ≠ c) → Ends (.contextCreate c ws) s fun t =>
      tabled (t.ctx c) ∧ t.ctx c = { s.ctx c with prot := (t.ctx c).prot, rtb := (t.ctx c).rtb, gtb := (t.ctx c).gtb, biv := (t.ctx c).biv, entry := (t.ctx c).entry, badRgn := [] } ∧
      (∀ k, k ≠ c → t.ctx k = s.ctx k) ∧ t = { s with ctxs := t.ctxs }) ∧
    (c = 0 ∨ (s.ctx c).st ≠ 0 → (∃ e ∈ s.leaders, ∃ b, e.2.bind = some b ∧ b.ctx = c) → Ends (.contextCreate c ws) s fun t => t = s)) ∧
  (∀ (s : State) (i : Nat) (ws : List Word), i < 512 → ¬ nearStart s (tget [] s.hub.binds i) ∨ bindEnd (tget [] s.hub.binds i) ≤ s.time → ¬ nearStart s ((List.range 8).map fun k => ws.getD k 0) →
    Ends (.bindRecordWrite i ws) s fun t => (∀ k, k < 8 → (tget [] t.hub.binds i).getD k 0 = ws.getD k 0) ∧
      (∀ k, k ≠ i → tget [] t.hub.binds k = tget [] s.hub.binds k) ∧ t = { s with hub := { s.hub with binds := t.hub.binds, clash := t.hub.clash }, ring := t.ring, rows := t.rows, ecc := t.ecc, cacheOld := t.cacheOld } ∧
      BytesCalm s t ∧ i ∉ t.hub.clash ∧
      t.ring.head = s.ring.head + (if (ws.getD 0 0).getLsbD 63 && !s.bindOk ((List.range 8).map fun k => ws.getD k 0) then 1 else 0)) ∧
  (∀ (s : State) (i : Nat) (ws : List Word), i < 64 → Ends (.windowEntryWrite i ws) s fun t => t = { s with host := { s.host with windows := t.host.windows } } ∧
      (tget [] t.host.windows i).getD 0 0 = (ws.getD 0 0 &&& 0x80FFFFFFFFFFFFFF#64) ∧
      (∀ k, k = 1 ∨ k = 2 → (tget [] t.host.windows i).getD k 0 = (ws.getD k 0 &&& 0x000FFFFFFFFFFF80#64)) ∧
      ∀ k, k ≠ i → tget [] t.host.windows k = tget [] s.host.windows k) ∧
  (∀ (s : State) (which v : Nat) (ok : Bool) (get : State → Nat), settingOp which v = some (ok, get) → Ends (.operatorSettingChange which v) s fun t =>
      (ok = true → get t = v) ∧ (ok = false → t = s) ∧ (∀ w u ok' get', w ≠ which → settingOp w u = some (ok', get') → get' t = get' s) ∧
      t.weights.purse = (if which = 9 ∧ ok = true then v else s.weights.purse) ∧
      (which = 3 → ok = true → deadlineRuns s → t.hub.step = min s.hub.step v) ∧ (which ≠ 3 ∨ ¬ deadlineRuns s → t.hub.step = s.hub.step) ∧
      t = { s with hub := t.hub, weights := { s.weights with purseSet := t.weights.purseSet, purse := t.weights.purse } }) ∧
  (∀ (s : State) (ok : Bool) (p : Nat), (Ends (.ucieLinkTraining ok) s fun t => t = { s with hub := { s.hub with link := ok } }) ∧
    Ends (.flitRetry p) s fun t => t = s) ∧
  (∀ (s : State) (imgs : List (List (BitVec 8))), Ends (.packageReset imgs) s fun t =>
      t.leaders = [] ∧ t.banks = [] ∧ t.arrays = [] ∧ t.tasks = [] ∧ t.rows = [] ∧ t.pend = [] ∧ t.reqs = [] ∧ t.cycle = 0 ∧ t.down = false ∧
      (t.ctx 0).st = 1 ∧ (∀ c, c ≠ 0 → (t.ctx c).st = 0) ∧ t.hub.step = 0 ∧ t.hub.permit = min 16 s.hub.pmax ∧ (∀ k, k < 128 → (t.tier k).value = min 16 s.hub.pmax) ∧
      t.hub.slew = 400 ∧ t.hub.interval = 20 ∧ t.hub.service = false ∧ t.ring.entries = [] ∧ t.ring.size = s.hub.bootRing * 16384 ∧ t.hub.cap = s.hub.cap ∧ t.hub.staging = s.hub.bootStaging ∧
      t.host.ebase = s.hub.bootEbase ∧ t.weights.bytes = s.weights.bytes ∧ t.weights.exts = s.weights.exts ∧ t.weights.purse = s.weights.purse ∧ t.weights.frames = [] ∧
      (t.hub.recovery = true ↔ ¬(3 ≤ imgs.length ∧ ∀ k, k < 3 → imageOk (k + 1) (imgs.getD k []) = true)))

/-- R49, R50, R54, R392: at its boundary a leader runs exactly the instruction that the words at its PC decode to, and words that decode to none are an illegal instruction;
a bank runs its block's next word; an event of the agenda is carried out. -/
def Obligations.StepRuns : Prop :=
  (∀ (s : State) (n : Nat) (q : List Activity), s.down = false → s.agenda = .issue (.leader n) :: q →
    let u := { s with agenda := q }
    AtBoundary u n →
    (0x40000 ≤ (s.leader n).pc.toNat → step s = .next (u.trap n .illegal (s.leader n).pc 0)) ∧
    ((s.leader n).pc.toNat < 0x40000 →
      (∀ i rest, decode (wordsAt (s.leader n)) = .ok (i, rest) → step s = exec i { u with cur := .leader n }) ∧
      (∀ e, decode (wordsAt (s.leader n)) = .error e → step s = exec (.illegalInstructionWord ((s.leader n).fetchWord 0)
        (if (s.leader n).pc.toNat = 0x3FFFC then 0 else (s.leader n).fetchWord 1)) { u with cur := .leader n }))) ∧
  (∀ (s : State) (g : Nat) (q : List Activity) (r : BlockRun), s.down = false → s.agenda = .issue (.bank g) :: q →
    BankAtBoundary { s with agenda := q } g r →
    let w0 := s.blockWord g r.wpos
    let w1 := s.blockWord g (r.wpos + 1)
    let last := blockLen r.desc ≤ r.wpos + 1
    s.blockCount g r.wpos < 32 → ¬(w0.toNat / 2 ^ 26 = 0x3F ∧ last) →
    0x20 ≤ (if w0.toNat / 2 ^ 26 = 0x3F then w1 else w0).toNat / 2 ^ 26 → (if w0.toNat / 2 ^ 26 = 0x3F then w1 else w0).toNat / 2 ^ 26 < 0x30 →
    ∀ i rest, decode (if last then [w0] else [w0, w1]) = .ok (i, rest) → step s = exec i { s with agenda := q, cur := .bank g }) ∧
  (∀ (s : State) (i : Instr) (q : List Activity), s.down = false → s.agenda = .event i :: q → isEvent i = true → step s = exec i { s with agenda := q }) ∧
  (∀ (s : State) (k : Nat) (q : List Activity), s.down = false → s.agenda = .elapse k :: q → Goes s ∧ ∀ t, step s = .next t → t.cycle = s.cycle + k ∧ t.rows = s.rows) ∧
  (∀ (s : State) (g el : Nat) (q : List Activity), s.down = false → s.agenda = .upset g el :: q →
    step s = .next ({ s with agenda := q }.setBank g { s.bank g with upset := some el })) ∧
  (∀ (s : State), s.down = true → step s = .fault .poweredDown)

/-- Table 2.8 and the worked encodings of Chapters 4 to 18: these words decode to the instructions they stand for. -/
def Obligations.DecodeWords : Prop :=
  decode [0x04A63800#32] = .ok (.add 5 6 7, []) ∧ decode [0x0863FFFF#32] = .ok (.addi 3 3 0xFFFF, []) ∧
  decode [0xFC001234#32, 0x08605678#32] = .ok (.addiExt 3 0 0x12345678, []) ∧ decode [0x30824002#32] = .ok (.ld 4 2 2 0 2, []) ∧
  decode [0x85024800#32] = .ok (.vadd 2 0 1 1 1, []) ∧ decode [0x850004C0#32] = .ok (.vaddScalar 2 0 0 0 3, []) ∧
  decode [0x60004005#32] = .ok (.callg 5, []) ∧ decode [0x74A63A01#32] = .ok (.setvlC 5 6 7 1, []) ∧ decode [0x81100318#32] = .ok (.rowcpy 2 1 3, []) ∧
  decode [0xA844_3FFF#32] = .ok (.yaddi 1 1 0x3FFF, []) ∧ decode [0xC252D801#32] = .ok (.mstr 2 10 11 12 0 0, []) ∧ decode [0x6C0A3003#32] = .ok (.diagst 0 10 3, []) ∧
  (∃ e, decode [0xFC001234#32] = .error e) ∧ ∃ e, decode [0x00000000#32] = .error e

/-- R47 to R54, Tables 2.3 to 2.7: decoding the words that encode an instruction, with every operand at every value its encoding admits, gives that instruction back and
leaves no word over. -/
def Obligations.EncodeRoundTrip : Prop :=
  ∀ (i : Instr), i.wf = true → i.encoded = true → decode (encode i) = .ok (i, [])

/-- R6, R22, R85, R117, R334, R355, R371, R384: the machine after reset: nothing bound, registers closed, tokens IDLE, context 0 LIVE and every other FREE, the purser's settings
at their defaults; the canonical form holds. Registers whose reset value the spec does not give are zero (the model's choice, log entry 1). -/
def Obligations.ResetState : Prop :=
  let s := State.reset
  Canonical s ∧ s.cycle = 0 ∧ s.down = false ∧ s.pend = [] ∧ s.reqs = [] ∧
  (∀ n r, (s.leader n).bind = none ∧ s.xr n r = 0 ∧ (s.leader n).pc = 0 ∧ (s.leader n).level = 0 ∧ (s.leader n).mm = false ∧ (s.leader n).loops = [] ∧
    (s.leader n).csr.vt = 0x400 ∧ (s.leader n).csr.vl = 0 ∧ (s.leader n).csr.abr0 = 0x0000FFFFFFFFFFFF ∧ (s.leader n).csr.acan = 16) ∧
  (∀ n k, ((s.leader n).tok k).st = .idle) ∧ (∀ g k, (s.slot g k).st = .closed ∧ (s.slot g k).wp = false) ∧ (∀ g r, (s.bank g).yr r = 0) ∧
  (∀ a p, ((s.array a).plane p).st = 0) ∧ (∀ a L, ((s.array a).line L).vlen = 0) ∧ (∀ k, (s.tier k).value = 16) ∧
  (s.ctx 0).st = 1 ∧ (∀ c, c ≠ 0 → (s.ctx c).st = 0) ∧ (∀ a, memByte s.rows a = 0) ∧
  s.hub.cap = 4800 ∧ s.hub.slew = 400 ∧ s.hub.interval = 20 ∧ s.hub.hstep = 4 ∧ s.hub.wrow = 600 ∧ s.hub.pmax = 16 ∧ s.hub.permit = 16 ∧ s.hub.staging = 16 ∧
  s.hub.step = 0 ∧ s.weights.epoch = 0

/-- R240, R316: from any state whose memories and tables are in canonical form, a step that answers a next state leaves them so: equal machine states stay equal data, and an
address that no write touched reads as it did after reset. -/
def Obligations.StepKeepsCanonical : Prop :=
  ∀ (s t : State), Canonical s → step s = .next t → Canonical t
end

