-- ==== Sys2Proof/Laws/Tables.lean ====
section
/-! SUPPORT. What the sparse tables do: a read after a write, the canonical form that every operation keeps, and the bytes of a memory. -/
namespace Sys2Proof.Machine

section Tables
variable {α : Type}

theorem tget_filter_ne (d : α) (t : Tbl α) {k j : Nat} (h : j ≠ k) :
    tget d (t.filter fun e => e.1 != k) j = tget d t j := by
  induction t with
  | nil => rfl
  | cons e r ih =>
    obtain ⟨a, v⟩ := e
    by_cases ha : a = k
    · subst ha; simp [tget, ih, Ne.symm h]
    · simp [ha, tget, ih]

theorem tget_tdel_other (d : α) (t : Tbl α) {k j : Nat} (h : j ≠ k) : tget d (tdel t k) j = tget d t j :=
  tget_filter_ne d t h

@[simp] theorem tget_tdel_self (d : α) (t : Tbl α) (k : Nat) : tget d (tdel t k) k = d := by
  induction t with
  | nil => rfl
  | cons e r ih =>
    obtain ⟨a, v⟩ := e
    by_cases ha : a = k
    · subst ha; simpa [tdel] using ih
    · simpa [tdel, List.filter_cons, ha, tget] using ih

@[simp] theorem tget_tins_self (d v : α) (t : Tbl α) (k : Nat) : tget d (tins k v (tdel t k)) k = v := by
  have key : ∀ r : Tbl α, (∀ e ∈ r, e.1 ≠ k) → tget d (tins k v r) k = v := by
    intro r
    induction r with
    | nil => simp [tins, tget]
    | cons e r ih =>
      intro h
      obtain ⟨a, w⟩ := e
      have ha : a ≠ k := h (a, w) (by simp)
      by_cases hk : k < a
      · simp [tins, hk, tget]
      · simp [tins, hk, tget, ha, ih fun e he => h e (by simp [he])]
  exact key _ fun e he => by simpa [tdel] using (List.mem_filter.mp he).2

theorem tget_tins_other (d v : α) (t : Tbl α) {k j : Nat} (h : j ≠ k) : tget d (tins k v t) j = tget d t j := by
  induction t with
  | nil => simp [tins, tget, Ne.symm h]
  | cons e r ih =>
    obtain ⟨a, w⟩ := e
    by_cases hk : k < a
    · simp [tins, hk, tget, Ne.symm h]
    · simp [tins, hk, tget, ih]

variable [DecidableEq α]

/-- A read after a write to the same key gives the value written. -/
@[simp] theorem tget_tput_self (d : α) (t : Tbl α) (k : Nat) (v : α) : tget d (tput d t k v) k = v := by
  unfold tput; split
  · next h => simp [h]
  · simp

/-- A write leaves every other key alone. -/
theorem tget_tput_other (d : α) (t : Tbl α) {k j : Nat} (v : α) (h : j ≠ k) : tget d (tput d t k v) j = tget d t j := by
  unfold tput; split
  · exact tget_tdel_other d t h
  · rw [tget_tins_other d v _ h, tget_tdel_other d t h]

theorem tget_tput (d : α) (t : Tbl α) (k j : Nat) (v : α) : tget d (tput d t k v) j = if j = k then v else tget d t j := by
  split
  · next h => subst h; simp
  · next h => exact tget_tput_other d t v h

/-! ### Canonical form -/

theorem twfFrom_mono {d : α} {t : Tbl α} {lo hi : Nat} (h : lo ≤ hi) (w : twfFrom d hi t = true) : twfFrom d lo t = true := by
  cases t with
  | nil => rfl
  | cons e r =>
    obtain ⟨a, v⟩ := e
    simp only [twfFrom, Bool.and_eq_true, decide_eq_true_eq] at w ⊢
    exact ⟨⟨by omega, w.1.2⟩, w.2⟩

theorem twfFrom_filter {d : α} (p : Nat × α → Bool) {t : Tbl α} : ∀ {lo}, twfFrom d lo t = true → twfFrom d lo (t.filter p) = true := by
  induction t with
  | nil => intro lo _; rfl
  | cons e r ih =>
    intro lo w
    obtain ⟨a, v⟩ := e
    simp only [twfFrom, Bool.and_eq_true, decide_eq_true_eq] at w
    by_cases hp : p (a, v) = true
    · simp only [List.filter_cons, hp, if_true, twfFrom, Bool.and_eq_true, decide_eq_true_eq]
      exact ⟨w.1, ih w.2⟩
    · simp only [List.filter_cons, hp]
      exact ih (twfFrom_mono (by omega) w.2)

theorem twfFrom_tins {d v : α} {k : Nat} (hv : v ≠ d) {t : Tbl α} :
    ∀ {lo}, lo ≤ k → (∀ e ∈ t, e.1 ≠ k) → twfFrom d lo t = true → twfFrom d lo (tins k v t) = true := by
  induction t with
  | nil => intro lo h _ _; simp [tins, twfFrom, hv, h]
  | cons e r ih =>
    intro lo h hn w
    obtain ⟨a, x⟩ := e
    have hak : a ≠ k := hn (a, x) (by simp)
    simp only [twfFrom, Bool.and_eq_true, decide_eq_true_eq] at w
    by_cases hk : k < a
    · have hk' : k + 1 ≤ a := hk
      simp [tins, hk, twfFrom, hv, h, hk', w.1.2, w.2]
    · simp only [tins, hk, if_false, twfFrom, Bool.and_eq_true, decide_eq_true_eq]
      exact ⟨w.1, ih (by omega) (fun e he => hn e (by simp [he])) w.2⟩

theorem twf_tdel {d : α} {t : Tbl α} (k : Nat) (w : twf d t = true) : twf d (tdel t k) = true := twfFrom_filter _ w

theorem twf_filter {d : α} {t : Tbl α} (p : Nat × α → Bool) (w : twf d t = true) : twf d (t.filter p) = true := twfFrom_filter p w

/-- A write keeps the canonical form. -/
theorem twf_tput {d : α} {t : Tbl α} (k : Nat) (v : α) (w : twf d t = true) : twf d (tput d t k v) = true := by
  unfold tput; split
  · exact twf_tdel k w
  · next h =>
    exact twfFrom_tins h (Nat.zero_le k) (fun e he => by simpa [tdel] using (List.mem_filter.mp he).2) (twf_tdel k w)

/-- Changing every value keeps the canonical form, whatever the change. -/
theorem twf_tmap {d : α} (f : Nat → α → α) {t : Tbl α} (w : twf d t = true) : twf d (tmap d f t) = true := by
  have key : ∀ {t : Tbl α} {lo}, twfFrom d lo t = true → twfFrom d lo (tmap d f t) = true := by
    intro t
    induction t with
    | nil => intro lo _; rfl
    | cons e r ih =>
      intro lo w
      obtain ⟨a, v⟩ := e
      simp only [twfFrom, Bool.and_eq_true, decide_eq_true_eq] at w
      by_cases hd : f a v = d
      · simp only [tmap, hd, if_true]
        exact twfFrom_filter _ (ih (twfFrom_mono (by omega) w.2))
      · simp only [tmap, hd, if_false, twfFrom, Bool.and_eq_true, decide_eq_true_eq]
        exact ⟨⟨w.1.1, hd⟩, ih w.2⟩
  exact key w

/-- A read after a change of every value, when the default changes to itself. -/
theorem tget_tmap {d : α} (f : Nat → α → α) (t : Tbl α) (k : Nat) (h : f k d = d) : tget d (tmap d f t) k = f k (tget d t k) := by
  induction t with
  | nil => exact h.symm
  | cons e r ih =>
    obtain ⟨a, v⟩ := e
    by_cases ha : a = k
    · subst ha
      by_cases hd : f a v = d
      · simp [tmap, tget, hd]
      · simp [tmap, tget, hd]
    · by_cases hd : f a v = d
      · simp [tmap, tget, hd, ha, tget_tdel_other d _ (Ne.symm ha), ih]
      · simp [tmap, tget, hd, ha, ih]

end Tables

/-! ### Bytes of a memory -/

theorem memByte_tput (m : Mem) (a j : Nat) (b : BitVec 8) : memByte (tput 0 m a b) j = if j = a then b else memByte m j :=
  tget_tput 0 m a j b

/-- Writing bytes leaves every byte outside them alone. -/
theorem memByte_memPut_out (bs : List (BitVec 8)) : ∀ (m : Mem) (a j : Nat), j < a ∨ a + bs.length ≤ j → memByte (memPut m a bs) j = memByte m j := by
  induction bs with
  | nil => intro m a j _; rfl
  | cons b r ih =>
    intro m a j h
    simp only [List.length_cons] at h
    rw [memPut, ih _ _ _ (by omega), memByte_tput, if_neg (by omega)]

/-- A byte inside the written bytes reads as written. -/
theorem memByte_memPut_in (bs : List (BitVec 8)) :
    ∀ (m : Mem) (a k : Nat) (h : k < bs.length), memByte (memPut m a bs) (a + k) = bs[k] := by
  induction bs with
  | nil => intro m a k h; simp at h
  | cons b r ih =>
    intro m a k h
    cases k with
    | zero => rw [memPut, memByte_memPut_out _ _ _ _ (by omega), memByte_tput]; simp
    | succ k =>
      have := ih (tput 0 m a b) (a + 1) k (by simpa using h)
      simpa [memPut, Nat.add_assoc, Nat.add_comm 1 k] using this

/-- Writing bytes keeps the canonical form. -/
theorem wf_memPut (bs : List (BitVec 8)) : ∀ {m : Mem} {a : Nat}, Mem.wf m = true → Mem.wf (memPut m a bs) = true := by
  induction bs with
  | nil => intro m a h; exact h
  | cons b r ih => intro m a h; exact ih (twf_tput a b h)

theorem wf_filter {m : Mem} (p : Nat × BitVec 8 → Bool) (h : Mem.wf m = true) : Mem.wf (m.filter p) = true := twf_filter p h

end Sys2Proof.Machine
end

