-- ==== Sys2Proof/Laws/State.lean ====
section
/-! SUPPORT. One lemma for each field of the state and each update of it, so that no proof unfolds a record update; the accessors after
the writes; the parts of a leader after its completion. -/
namespace Sys2Proof.Machine

/-! ### setLeader -/

@[simp] theorem State.setLeader_agenda (s : State) (n : Nat) (l : Leader) : (s.setLeader n l).agenda = s.agenda := rfl
@[simp] theorem State.setLeader_turn (s : State) (n : Nat) (l : Leader) : (s.setLeader n l).turn = s.turn := rfl
@[simp] theorem State.setLeader_cur (s : State) (n : Nat) (l : Leader) : (s.setLeader n l).cur = s.cur := rfl
@[simp] theorem State.setLeader_free (s : State) (n : Nat) (l : Leader) : (s.setLeader n l).free = s.free := rfl
@[simp] theorem State.setLeader_down (s : State) (n : Nat) (l : Leader) : (s.setLeader n l).down = s.down := rfl
@[simp] theorem State.setLeader_cycle (s : State) (n : Nat) (l : Leader) : (s.setLeader n l).cycle = s.cycle := rfl
@[simp] theorem State.setLeader_banks (s : State) (n : Nat) (l : Leader) : (s.setLeader n l).banks = s.banks := rfl
@[simp] theorem State.setLeader_arrays (s : State) (n : Nat) (l : Leader) : (s.setLeader n l).arrays = s.arrays := rfl
@[simp] theorem State.setLeader_tiers (s : State) (n : Nat) (l : Leader) : (s.setLeader n l).tiers = s.tiers := rfl
@[simp] theorem State.setLeader_ctxs (s : State) (n : Nat) (l : Leader) : (s.setLeader n l).ctxs = s.ctxs := rfl
@[simp] theorem State.setLeader_tasks (s : State) (n : Nat) (l : Leader) : (s.setLeader n l).tasks = s.tasks := rfl
@[simp] theorem State.setLeader_hub (s : State) (n : Nat) (l : Leader) : (s.setLeader n l).hub = s.hub := rfl
@[simp] theorem State.setLeader_host (s : State) (n : Nat) (l : Leader) : (s.setLeader n l).host = s.host := rfl
@[simp] theorem State.setLeader_ring (s : State) (n : Nat) (l : Leader) : (s.setLeader n l).ring = s.ring := rfl
@[simp] theorem State.setLeader_weights (s : State) (n : Nat) (l : Leader) : (s.setLeader n l).weights = s.weights := rfl
@[simp] theorem State.setLeader_rows (s : State) (n : Nat) (l : Leader) : (s.setLeader n l).rows = s.rows := rfl
@[simp] theorem State.setLeader_ecc (s : State) (n : Nat) (l : Leader) : (s.setLeader n l).ecc = s.ecc := rfl
@[simp] theorem State.setLeader_actCnt (s : State) (n : Nat) (l : Leader) : (s.setLeader n l).actCnt = s.actCnt := rfl
@[simp] theorem State.setLeader_l2 (s : State) (n : Nat) (l : Leader) : (s.setLeader n l).l2 = s.l2 := rfl
@[simp] theorem State.setLeader_cacheOld (s : State) (n : Nat) (l : Leader) : (s.setLeader n l).cacheOld = s.cacheOld := rfl
@[simp] theorem State.setLeader_counts (s : State) (n : Nat) (l : Leader) : (s.setLeader n l).counts = s.counts := rfl
@[simp] theorem State.setLeader_pend (s : State) (n : Nat) (l : Leader) : (s.setLeader n l).pend = s.pend := rfl
@[simp] theorem State.setLeader_amos (s : State) (n : Nat) (l : Leader) : (s.setLeader n l).amos = s.amos := rfl
@[simp] theorem State.setLeader_promised (s : State) (n : Nat) (l : Leader) : (s.setLeader n l).promised = s.promised := rfl
@[simp] theorem State.setLeader_snaps (s : State) (n : Nat) (l : Leader) : (s.setLeader n l).snaps = s.snaps := rfl
@[simp] theorem State.setLeader_reqs (s : State) (n : Nat) (l : Leader) : (s.setLeader n l).reqs = s.reqs := rfl
@[simp] theorem State.setLeader_reqNum (s : State) (n : Nat) (l : Leader) : (s.setLeader n l).reqNum = s.reqNum := rfl
@[simp] theorem State.setLeader_frames (s : State) (n : Nat) (l : Leader) : (s.setLeader n l).frames = s.frames := rfl
@[simp] theorem State.setLeader_images (s : State) (n : Nat) (l : Leader) : (s.setLeader n l).images = s.images := rfl
@[simp] theorem State.setLeader_bank (s : State) (n : Nat) (l : Leader) : (s.setLeader n l).bank = s.bank := rfl
@[simp] theorem State.setLeader_array (s : State) (n : Nat) (l : Leader) : (s.setLeader n l).array = s.array := rfl
@[simp] theorem State.setLeader_ctx (s : State) (n : Nat) (l : Leader) : (s.setLeader n l).ctx = s.ctx := rfl
@[simp] theorem State.setLeader_task (s : State) (n : Nat) (l : Leader) : (s.setLeader n l).task = s.task := rfl
@[simp] theorem State.setLeader_tier (s : State) (n : Nat) (l : Leader) : (s.setLeader n l).tier = s.tier := rfl
@[simp] theorem State.setLeader_self (s : State) (n : Nat) (l : Leader) : (s.setLeader n l).leader n = l := tget_tput_self _ _ _ _
theorem State.setLeader_other (s : State) (n : Nat) (l : Leader) {m : Nat} (h : m ≠ n) : (s.setLeader n l).leader m = s.leader m := tget_tput_other _ _ _ h
theorem State.setLeader_at (s : State) (n : Nat) (l : Leader) (m : Nat) : (s.setLeader n l).leader m = if m = n then l else s.leader m := tget_tput _ _ _ _ _

/-! ### setBank -/

@[simp] theorem State.setBank_agenda (s : State) (g : Nat) (b : Bank) : (s.setBank g b).agenda = s.agenda := rfl
@[simp] theorem State.setBank_turn (s : State) (g : Nat) (b : Bank) : (s.setBank g b).turn = s.turn := rfl
@[simp] theorem State.setBank_cur (s : State) (g : Nat) (b : Bank) : (s.setBank g b).cur = s.cur := rfl
@[simp] theorem State.setBank_free (s : State) (g : Nat) (b : Bank) : (s.setBank g b).free = s.free := rfl
@[simp] theorem State.setBank_down (s : State) (g : Nat) (b : Bank) : (s.setBank g b).down = s.down := rfl
@[simp] theorem State.setBank_cycle (s : State) (g : Nat) (b : Bank) : (s.setBank g b).cycle = s.cycle := rfl
@[simp] theorem State.setBank_leaders (s : State) (g : Nat) (b : Bank) : (s.setBank g b).leaders = s.leaders := rfl
@[simp] theorem State.setBank_arrays (s : State) (g : Nat) (b : Bank) : (s.setBank g b).arrays = s.arrays := rfl
@[simp] theorem State.setBank_tiers (s : State) (g : Nat) (b : Bank) : (s.setBank g b).tiers = s.tiers := rfl
@[simp] theorem State.setBank_ctxs (s : State) (g : Nat) (b : Bank) : (s.setBank g b).ctxs = s.ctxs := rfl
@[simp] theorem State.setBank_tasks (s : State) (g : Nat) (b : Bank) : (s.setBank g b).tasks = s.tasks := rfl
@[simp] theorem State.setBank_hub (s : State) (g : Nat) (b : Bank) : (s.setBank g b).hub = s.hub := rfl
@[simp] theorem State.setBank_host (s : State) (g : Nat) (b : Bank) : (s.setBank g b).host = s.host := rfl
@[simp] theorem State.setBank_ring (s : State) (g : Nat) (b : Bank) : (s.setBank g b).ring = s.ring := rfl
@[simp] theorem State.setBank_weights (s : State) (g : Nat) (b : Bank) : (s.setBank g b).weights = s.weights := rfl
@[simp] theorem State.setBank_rows (s : State) (g : Nat) (b : Bank) : (s.setBank g b).rows = s.rows := rfl
@[simp] theorem State.setBank_ecc (s : State) (g : Nat) (b : Bank) : (s.setBank g b).ecc = s.ecc := rfl
@[simp] theorem State.setBank_actCnt (s : State) (g : Nat) (b : Bank) : (s.setBank g b).actCnt = s.actCnt := rfl
@[simp] theorem State.setBank_l2 (s : State) (g : Nat) (b : Bank) : (s.setBank g b).l2 = s.l2 := rfl
@[simp] theorem State.setBank_cacheOld (s : State) (g : Nat) (b : Bank) : (s.setBank g b).cacheOld = s.cacheOld := rfl
@[simp] theorem State.setBank_counts (s : State) (g : Nat) (b : Bank) : (s.setBank g b).counts = s.counts := rfl
@[simp] theorem State.setBank_pend (s : State) (g : Nat) (b : Bank) : (s.setBank g b).pend = s.pend := rfl
@[simp] theorem State.setBank_amos (s : State) (g : Nat) (b : Bank) : (s.setBank g b).amos = s.amos := rfl
@[simp] theorem State.setBank_promised (s : State) (g : Nat) (b : Bank) : (s.setBank g b).promised = s.promised := rfl
@[simp] theorem State.setBank_snaps (s : State) (g : Nat) (b : Bank) : (s.setBank g b).snaps = s.snaps := rfl
@[simp] theorem State.setBank_reqs (s : State) (g : Nat) (b : Bank) : (s.setBank g b).reqs = s.reqs := rfl
@[simp] theorem State.setBank_reqNum (s : State) (g : Nat) (b : Bank) : (s.setBank g b).reqNum = s.reqNum := rfl
@[simp] theorem State.setBank_frames (s : State) (g : Nat) (b : Bank) : (s.setBank g b).frames = s.frames := rfl
@[simp] theorem State.setBank_images (s : State) (g : Nat) (b : Bank) : (s.setBank g b).images = s.images := rfl
@[simp] theorem State.setBank_leader (s : State) (g : Nat) (b : Bank) : (s.setBank g b).leader = s.leader := rfl
@[simp] theorem State.setBank_array (s : State) (g : Nat) (b : Bank) : (s.setBank g b).array = s.array := rfl
@[simp] theorem State.setBank_ctx (s : State) (g : Nat) (b : Bank) : (s.setBank g b).ctx = s.ctx := rfl
@[simp] theorem State.setBank_task (s : State) (g : Nat) (b : Bank) : (s.setBank g b).task = s.task := rfl
@[simp] theorem State.setBank_tier (s : State) (g : Nat) (b : Bank) : (s.setBank g b).tier = s.tier := rfl
@[simp] theorem State.setBank_self (s : State) (g : Nat) (b : Bank) : (s.setBank g b).bank g = b := tget_tput_self _ _ _ _
theorem State.setBank_other (s : State) (g : Nat) (b : Bank) {m : Nat} (h : m ≠ g) : (s.setBank g b).bank m = s.bank m := tget_tput_other _ _ _ h
theorem State.setBank_at (s : State) (g : Nat) (b : Bank) (m : Nat) : (s.setBank g b).bank m = if m = g then b else s.bank m := tget_tput _ _ _ _ _

/-! ### setArray -/

@[simp] theorem State.setArray_agenda (s : State) (a : Nat) (v : Array_) : (s.setArray a v).agenda = s.agenda := rfl
@[simp] theorem State.setArray_turn (s : State) (a : Nat) (v : Array_) : (s.setArray a v).turn = s.turn := rfl
@[simp] theorem State.setArray_cur (s : State) (a : Nat) (v : Array_) : (s.setArray a v).cur = s.cur := rfl
@[simp] theorem State.setArray_free (s : State) (a : Nat) (v : Array_) : (s.setArray a v).free = s.free := rfl
@[simp] theorem State.setArray_down (s : State) (a : Nat) (v : Array_) : (s.setArray a v).down = s.down := rfl
@[simp] theorem State.setArray_cycle (s : State) (a : Nat) (v : Array_) : (s.setArray a v).cycle = s.cycle := rfl
@[simp] theorem State.setArray_leaders (s : State) (a : Nat) (v : Array_) : (s.setArray a v).leaders = s.leaders := rfl
@[simp] theorem State.setArray_banks (s : State) (a : Nat) (v : Array_) : (s.setArray a v).banks = s.banks := rfl
@[simp] theorem State.setArray_tiers (s : State) (a : Nat) (v : Array_) : (s.setArray a v).tiers = s.tiers := rfl
@[simp] theorem State.setArray_ctxs (s : State) (a : Nat) (v : Array_) : (s.setArray a v).ctxs = s.ctxs := rfl
@[simp] theorem State.setArray_tasks (s : State) (a : Nat) (v : Array_) : (s.setArray a v).tasks = s.tasks := rfl
@[simp] theorem State.setArray_hub (s : State) (a : Nat) (v : Array_) : (s.setArray a v).hub = s.hub := rfl
@[simp] theorem State.setArray_host (s : State) (a : Nat) (v : Array_) : (s.setArray a v).host = s.host := rfl
@[simp] theorem State.setArray_ring (s : State) (a : Nat) (v : Array_) : (s.setArray a v).ring = s.ring := rfl
@[simp] theorem State.setArray_weights (s : State) (a : Nat) (v : Array_) : (s.setArray a v).weights = s.weights := rfl
@[simp] theorem State.setArray_rows (s : State) (a : Nat) (v : Array_) : (s.setArray a v).rows = s.rows := rfl
@[simp] theorem State.setArray_ecc (s : State) (a : Nat) (v : Array_) : (s.setArray a v).ecc = s.ecc := rfl
@[simp] theorem State.setArray_actCnt (s : State) (a : Nat) (v : Array_) : (s.setArray a v).actCnt = s.actCnt := rfl
@[simp] theorem State.setArray_l2 (s : State) (a : Nat) (v : Array_) : (s.setArray a v).l2 = s.l2 := rfl
@[simp] theorem State.setArray_cacheOld (s : State) (a : Nat) (v : Array_) : (s.setArray a v).cacheOld = s.cacheOld := rfl
@[simp] theorem State.setArray_counts (s : State) (a : Nat) (v : Array_) : (s.setArray a v).counts = s.counts := rfl
@[simp] theorem State.setArray_pend (s : State) (a : Nat) (v : Array_) : (s.setArray a v).pend = s.pend := rfl
@[simp] theorem State.setArray_amos (s : State) (a : Nat) (v : Array_) : (s.setArray a v).amos = s.amos := rfl
@[simp] theorem State.setArray_promised (s : State) (a : Nat) (v : Array_) : (s.setArray a v).promised = s.promised := rfl
@[simp] theorem State.setArray_snaps (s : State) (a : Nat) (v : Array_) : (s.setArray a v).snaps = s.snaps := rfl
@[simp] theorem State.setArray_reqs (s : State) (a : Nat) (v : Array_) : (s.setArray a v).reqs = s.reqs := rfl
@[simp] theorem State.setArray_reqNum (s : State) (a : Nat) (v : Array_) : (s.setArray a v).reqNum = s.reqNum := rfl
@[simp] theorem State.setArray_frames (s : State) (a : Nat) (v : Array_) : (s.setArray a v).frames = s.frames := rfl
@[simp] theorem State.setArray_images (s : State) (a : Nat) (v : Array_) : (s.setArray a v).images = s.images := rfl
@[simp] theorem State.setArray_leader (s : State) (a : Nat) (v : Array_) : (s.setArray a v).leader = s.leader := rfl
@[simp] theorem State.setArray_bank (s : State) (a : Nat) (v : Array_) : (s.setArray a v).bank = s.bank := rfl
@[simp] theorem State.setArray_ctx (s : State) (a : Nat) (v : Array_) : (s.setArray a v).ctx = s.ctx := rfl
@[simp] theorem State.setArray_task (s : State) (a : Nat) (v : Array_) : (s.setArray a v).task = s.task := rfl
@[simp] theorem State.setArray_tier (s : State) (a : Nat) (v : Array_) : (s.setArray a v).tier = s.tier := rfl
@[simp] theorem State.setArray_self (s : State) (a : Nat) (v : Array_) : (s.setArray a v).array a = v := tget_tput_self _ _ _ _
theorem State.setArray_other (s : State) (a : Nat) (v : Array_) {m : Nat} (h : m ≠ a) : (s.setArray a v).array m = s.array m := tget_tput_other _ _ _ h
theorem State.setArray_at (s : State) (a : Nat) (v : Array_) (m : Nat) : (s.setArray a v).array m = if m = a then v else s.array m := tget_tput _ _ _ _ _

/-! ### setCtx -/

@[simp] theorem State.setCtx_agenda (s : State) (c : Nat) (v : Ctx) : (s.setCtx c v).agenda = s.agenda := rfl
@[simp] theorem State.setCtx_turn (s : State) (c : Nat) (v : Ctx) : (s.setCtx c v).turn = s.turn := rfl
@[simp] theorem State.setCtx_cur (s : State) (c : Nat) (v : Ctx) : (s.setCtx c v).cur = s.cur := rfl
@[simp] theorem State.setCtx_free (s : State) (c : Nat) (v : Ctx) : (s.setCtx c v).free = s.free := rfl
@[simp] theorem State.setCtx_down (s : State) (c : Nat) (v : Ctx) : (s.setCtx c v).down = s.down := rfl
@[simp] theorem State.setCtx_cycle (s : State) (c : Nat) (v : Ctx) : (s.setCtx c v).cycle = s.cycle := rfl
@[simp] theorem State.setCtx_leaders (s : State) (c : Nat) (v : Ctx) : (s.setCtx c v).leaders = s.leaders := rfl
@[simp] theorem State.setCtx_banks (s : State) (c : Nat) (v : Ctx) : (s.setCtx c v).banks = s.banks := rfl
@[simp] theorem State.setCtx_arrays (s : State) (c : Nat) (v : Ctx) : (s.setCtx c v).arrays = s.arrays := rfl
@[simp] theorem State.setCtx_tiers (s : State) (c : Nat) (v : Ctx) : (s.setCtx c v).tiers = s.tiers := rfl
@[simp] theorem State.setCtx_tasks (s : State) (c : Nat) (v : Ctx) : (s.setCtx c v).tasks = s.tasks := rfl
@[simp] theorem State.setCtx_hub (s : State) (c : Nat) (v : Ctx) : (s.setCtx c v).hub = s.hub := rfl
@[simp] theorem State.setCtx_host (s : State) (c : Nat) (v : Ctx) : (s.setCtx c v).host = s.host := rfl
@[simp] theorem State.setCtx_ring (s : State) (c : Nat) (v : Ctx) : (s.setCtx c v).ring = s.ring := rfl
@[simp] theorem State.setCtx_weights (s : State) (c : Nat) (v : Ctx) : (s.setCtx c v).weights = s.weights := rfl
@[simp] theorem State.setCtx_rows (s : State) (c : Nat) (v : Ctx) : (s.setCtx c v).rows = s.rows := rfl
@[simp] theorem State.setCtx_ecc (s : State) (c : Nat) (v : Ctx) : (s.setCtx c v).ecc = s.ecc := rfl
@[simp] theorem State.setCtx_actCnt (s : State) (c : Nat) (v : Ctx) : (s.setCtx c v).actCnt = s.actCnt := rfl
@[simp] theorem State.setCtx_l2 (s : State) (c : Nat) (v : Ctx) : (s.setCtx c v).l2 = s.l2 := rfl
@[simp] theorem State.setCtx_cacheOld (s : State) (c : Nat) (v : Ctx) : (s.setCtx c v).cacheOld = s.cacheOld := rfl
@[simp] theorem State.setCtx_counts (s : State) (c : Nat) (v : Ctx) : (s.setCtx c v).counts = s.counts := rfl
@[simp] theorem State.setCtx_pend (s : State) (c : Nat) (v : Ctx) : (s.setCtx c v).pend = s.pend := rfl
@[simp] theorem State.setCtx_amos (s : State) (c : Nat) (v : Ctx) : (s.setCtx c v).amos = s.amos := rfl
@[simp] theorem State.setCtx_promised (s : State) (c : Nat) (v : Ctx) : (s.setCtx c v).promised = s.promised := rfl
@[simp] theorem State.setCtx_snaps (s : State) (c : Nat) (v : Ctx) : (s.setCtx c v).snaps = s.snaps := rfl
@[simp] theorem State.setCtx_reqs (s : State) (c : Nat) (v : Ctx) : (s.setCtx c v).reqs = s.reqs := rfl
@[simp] theorem State.setCtx_reqNum (s : State) (c : Nat) (v : Ctx) : (s.setCtx c v).reqNum = s.reqNum := rfl
@[simp] theorem State.setCtx_frames (s : State) (c : Nat) (v : Ctx) : (s.setCtx c v).frames = s.frames := rfl
@[simp] theorem State.setCtx_images (s : State) (c : Nat) (v : Ctx) : (s.setCtx c v).images = s.images := rfl
@[simp] theorem State.setCtx_leader (s : State) (c : Nat) (v : Ctx) : (s.setCtx c v).leader = s.leader := rfl
@[simp] theorem State.setCtx_bank (s : State) (c : Nat) (v : Ctx) : (s.setCtx c v).bank = s.bank := rfl
@[simp] theorem State.setCtx_array (s : State) (c : Nat) (v : Ctx) : (s.setCtx c v).array = s.array := rfl
@[simp] theorem State.setCtx_task (s : State) (c : Nat) (v : Ctx) : (s.setCtx c v).task = s.task := rfl
@[simp] theorem State.setCtx_tier (s : State) (c : Nat) (v : Ctx) : (s.setCtx c v).tier = s.tier := rfl
@[simp] theorem State.setCtx_self (s : State) (c : Nat) (v : Ctx) : (s.setCtx c v).ctx c = v := tget_tput_self _ _ _ _
theorem State.setCtx_other (s : State) (c : Nat) (v : Ctx) {m : Nat} (h : m ≠ c) : (s.setCtx c v).ctx m = s.ctx m := tget_tput_other _ _ _ h
theorem State.setCtx_at (s : State) (c : Nat) (v : Ctx) (m : Nat) : (s.setCtx c v).ctx m = if m = c then v else s.ctx m := tget_tput _ _ _ _ _

/-! ### setTask -/

@[simp] theorem State.setTask_agenda (s : State) (k : Nat) (v : Task) : (s.setTask k v).agenda = s.agenda := rfl
@[simp] theorem State.setTask_turn (s : State) (k : Nat) (v : Task) : (s.setTask k v).turn = s.turn := rfl
@[simp] theorem State.setTask_cur (s : State) (k : Nat) (v : Task) : (s.setTask k v).cur = s.cur := rfl
@[simp] theorem State.setTask_free (s : State) (k : Nat) (v : Task) : (s.setTask k v).free = s.free := rfl
@[simp] theorem State.setTask_down (s : State) (k : Nat) (v : Task) : (s.setTask k v).down = s.down := rfl
@[simp] theorem State.setTask_cycle (s : State) (k : Nat) (v : Task) : (s.setTask k v).cycle = s.cycle := rfl
@[simp] theorem State.setTask_leaders (s : State) (k : Nat) (v : Task) : (s.setTask k v).leaders = s.leaders := rfl
@[simp] theorem State.setTask_banks (s : State) (k : Nat) (v : Task) : (s.setTask k v).banks = s.banks := rfl
@[simp] theorem State.setTask_arrays (s : State) (k : Nat) (v : Task) : (s.setTask k v).arrays = s.arrays := rfl
@[simp] theorem State.setTask_tiers (s : State) (k : Nat) (v : Task) : (s.setTask k v).tiers = s.tiers := rfl
@[simp] theorem State.setTask_ctxs (s : State) (k : Nat) (v : Task) : (s.setTask k v).ctxs = s.ctxs := rfl
@[simp] theorem State.setTask_hub (s : State) (k : Nat) (v : Task) : (s.setTask k v).hub = s.hub := rfl
@[simp] theorem State.setTask_host (s : State) (k : Nat) (v : Task) : (s.setTask k v).host = s.host := rfl
@[simp] theorem State.setTask_ring (s : State) (k : Nat) (v : Task) : (s.setTask k v).ring = s.ring := rfl
@[simp] theorem State.setTask_weights (s : State) (k : Nat) (v : Task) : (s.setTask k v).weights = s.weights := rfl
@[simp] theorem State.setTask_rows (s : State) (k : Nat) (v : Task) : (s.setTask k v).rows = s.rows := rfl
@[simp] theorem State.setTask_ecc (s : State) (k : Nat) (v : Task) : (s.setTask k v).ecc = s.ecc := rfl
@[simp] theorem State.setTask_actCnt (s : State) (k : Nat) (v : Task) : (s.setTask k v).actCnt = s.actCnt := rfl
@[simp] theorem State.setTask_l2 (s : State) (k : Nat) (v : Task) : (s.setTask k v).l2 = s.l2 := rfl
@[simp] theorem State.setTask_cacheOld (s : State) (k : Nat) (v : Task) : (s.setTask k v).cacheOld = s.cacheOld := rfl
@[simp] theorem State.setTask_counts (s : State) (k : Nat) (v : Task) : (s.setTask k v).counts = s.counts := rfl
@[simp] theorem State.setTask_pend (s : State) (k : Nat) (v : Task) : (s.setTask k v).pend = s.pend := rfl
@[simp] theorem State.setTask_amos (s : State) (k : Nat) (v : Task) : (s.setTask k v).amos = s.amos := rfl
@[simp] theorem State.setTask_promised (s : State) (k : Nat) (v : Task) : (s.setTask k v).promised = s.promised := rfl
@[simp] theorem State.setTask_snaps (s : State) (k : Nat) (v : Task) : (s.setTask k v).snaps = s.snaps := rfl
@[simp] theorem State.setTask_reqs (s : State) (k : Nat) (v : Task) : (s.setTask k v).reqs = s.reqs := rfl
@[simp] theorem State.setTask_reqNum (s : State) (k : Nat) (v : Task) : (s.setTask k v).reqNum = s.reqNum := rfl
@[simp] theorem State.setTask_frames (s : State) (k : Nat) (v : Task) : (s.setTask k v).frames = s.frames := rfl
@[simp] theorem State.setTask_images (s : State) (k : Nat) (v : Task) : (s.setTask k v).images = s.images := rfl
@[simp] theorem State.setTask_leader (s : State) (k : Nat) (v : Task) : (s.setTask k v).leader = s.leader := rfl
@[simp] theorem State.setTask_bank (s : State) (k : Nat) (v : Task) : (s.setTask k v).bank = s.bank := rfl
@[simp] theorem State.setTask_array (s : State) (k : Nat) (v : Task) : (s.setTask k v).array = s.array := rfl
@[simp] theorem State.setTask_ctx (s : State) (k : Nat) (v : Task) : (s.setTask k v).ctx = s.ctx := rfl
@[simp] theorem State.setTask_tier (s : State) (k : Nat) (v : Task) : (s.setTask k v).tier = s.tier := rfl
@[simp] theorem State.setTask_self (s : State) (k : Nat) (v : Task) : (s.setTask k v).task k = v := tget_tput_self _ _ _ _
theorem State.setTask_other (s : State) (k : Nat) (v : Task) {m : Nat} (h : m ≠ k) : (s.setTask k v).task m = s.task m := tget_tput_other _ _ _ h
theorem State.setTask_at (s : State) (k : Nat) (v : Task) (m : Nat) : (s.setTask k v).task m = if m = k then v else s.task m := tget_tput _ _ _ _ _

/-! ### setTier -/

@[simp] theorem State.setTier_agenda (s : State) (k : Nat) (v : Tier) : (s.setTier k v).agenda = s.agenda := rfl
@[simp] theorem State.setTier_turn (s : State) (k : Nat) (v : Tier) : (s.setTier k v).turn = s.turn := rfl
@[simp] theorem State.setTier_cur (s : State) (k : Nat) (v : Tier) : (s.setTier k v).cur = s.cur := rfl
@[simp] theorem State.setTier_free (s : State) (k : Nat) (v : Tier) : (s.setTier k v).free = s.free := rfl
@[simp] theorem State.setTier_down (s : State) (k : Nat) (v : Tier) : (s.setTier k v).down = s.down := rfl
@[simp] theorem State.setTier_cycle (s : State) (k : Nat) (v : Tier) : (s.setTier k v).cycle = s.cycle := rfl
@[simp] theorem State.setTier_leaders (s : State) (k : Nat) (v : Tier) : (s.setTier k v).leaders = s.leaders := rfl
@[simp] theorem State.setTier_banks (s : State) (k : Nat) (v : Tier) : (s.setTier k v).banks = s.banks := rfl
@[simp] theorem State.setTier_arrays (s : State) (k : Nat) (v : Tier) : (s.setTier k v).arrays = s.arrays := rfl
@[simp] theorem State.setTier_ctxs (s : State) (k : Nat) (v : Tier) : (s.setTier k v).ctxs = s.ctxs := rfl
@[simp] theorem State.setTier_tasks (s : State) (k : Nat) (v : Tier) : (s.setTier k v).tasks = s.tasks := rfl
@[simp] theorem State.setTier_hub (s : State) (k : Nat) (v : Tier) : (s.setTier k v).hub = s.hub := rfl
@[simp] theorem State.setTier_host (s : State) (k : Nat) (v : Tier) : (s.setTier k v).host = s.host := rfl
@[simp] theorem State.setTier_ring (s : State) (k : Nat) (v : Tier) : (s.setTier k v).ring = s.ring := rfl
@[simp] theorem State.setTier_weights (s : State) (k : Nat) (v : Tier) : (s.setTier k v).weights = s.weights := rfl
@[simp] theorem State.setTier_rows (s : State) (k : Nat) (v : Tier) : (s.setTier k v).rows = s.rows := rfl
@[simp] theorem State.setTier_ecc (s : State) (k : Nat) (v : Tier) : (s.setTier k v).ecc = s.ecc := rfl
@[simp] theorem State.setTier_actCnt (s : State) (k : Nat) (v : Tier) : (s.setTier k v).actCnt = s.actCnt := rfl
@[simp] theorem State.setTier_l2 (s : State) (k : Nat) (v : Tier) : (s.setTier k v).l2 = s.l2 := rfl
@[simp] theorem State.setTier_cacheOld (s : State) (k : Nat) (v : Tier) : (s.setTier k v).cacheOld = s.cacheOld := rfl
@[simp] theorem State.setTier_counts (s : State) (k : Nat) (v : Tier) : (s.setTier k v).counts = s.counts := rfl
@[simp] theorem State.setTier_pend (s : State) (k : Nat) (v : Tier) : (s.setTier k v).pend = s.pend := rfl
@[simp] theorem State.setTier_amos (s : State) (k : Nat) (v : Tier) : (s.setTier k v).amos = s.amos := rfl
@[simp] theorem State.setTier_promised (s : State) (k : Nat) (v : Tier) : (s.setTier k v).promised = s.promised := rfl
@[simp] theorem State.setTier_snaps (s : State) (k : Nat) (v : Tier) : (s.setTier k v).snaps = s.snaps := rfl
@[simp] theorem State.setTier_reqs (s : State) (k : Nat) (v : Tier) : (s.setTier k v).reqs = s.reqs := rfl
@[simp] theorem State.setTier_reqNum (s : State) (k : Nat) (v : Tier) : (s.setTier k v).reqNum = s.reqNum := rfl
@[simp] theorem State.setTier_frames (s : State) (k : Nat) (v : Tier) : (s.setTier k v).frames = s.frames := rfl
@[simp] theorem State.setTier_images (s : State) (k : Nat) (v : Tier) : (s.setTier k v).images = s.images := rfl
@[simp] theorem State.setTier_leader (s : State) (k : Nat) (v : Tier) : (s.setTier k v).leader = s.leader := rfl
@[simp] theorem State.setTier_bank (s : State) (k : Nat) (v : Tier) : (s.setTier k v).bank = s.bank := rfl
@[simp] theorem State.setTier_array (s : State) (k : Nat) (v : Tier) : (s.setTier k v).array = s.array := rfl
@[simp] theorem State.setTier_ctx (s : State) (k : Nat) (v : Tier) : (s.setTier k v).ctx = s.ctx := rfl
@[simp] theorem State.setTier_task (s : State) (k : Nat) (v : Tier) : (s.setTier k v).task = s.task := rfl
@[simp] theorem State.setTier_self (s : State) (k : Nat) (v : Tier) : (s.setTier k v).tier k = v := tget_tput_self _ _ _ _
theorem State.setTier_other (s : State) (k : Nat) (v : Tier) {m : Nat} (h : m ≠ k) : (s.setTier k v).tier m = s.tier m := tget_tput_other _ _ _ h
theorem State.setTier_at (s : State) (k : Nat) (v : Tier) (m : Nat) : (s.setTier k v).tier m = if m = k then v else s.tier m := tget_tput _ _ _ _ _

/-! ### useFree -/

@[simp] theorem State.useFree_agenda (s : State) : s.useFree.agenda = s.agenda := rfl
@[simp] theorem State.useFree_turn (s : State) : s.useFree.turn = s.turn := rfl
@[simp] theorem State.useFree_cur (s : State) : s.useFree.cur = s.cur := rfl
@[simp] theorem State.useFree_down (s : State) : s.useFree.down = s.down := rfl
@[simp] theorem State.useFree_cycle (s : State) : s.useFree.cycle = s.cycle := rfl
@[simp] theorem State.useFree_leaders (s : State) : s.useFree.leaders = s.leaders := rfl
@[simp] theorem State.useFree_banks (s : State) : s.useFree.banks = s.banks := rfl
@[simp] theorem State.useFree_arrays (s : State) : s.useFree.arrays = s.arrays := rfl
@[simp] theorem State.useFree_tiers (s : State) : s.useFree.tiers = s.tiers := rfl
@[simp] theorem State.useFree_ctxs (s : State) : s.useFree.ctxs = s.ctxs := rfl
@[simp] theorem State.useFree_tasks (s : State) : s.useFree.tasks = s.tasks := rfl
@[simp] theorem State.useFree_hub (s : State) : s.useFree.hub = s.hub := rfl
@[simp] theorem State.useFree_host (s : State) : s.useFree.host = s.host := rfl
@[simp] theorem State.useFree_ring (s : State) : s.useFree.ring = s.ring := rfl
@[simp] theorem State.useFree_weights (s : State) : s.useFree.weights = s.weights := rfl
@[simp] theorem State.useFree_rows (s : State) : s.useFree.rows = s.rows := rfl
@[simp] theorem State.useFree_ecc (s : State) : s.useFree.ecc = s.ecc := rfl
@[simp] theorem State.useFree_actCnt (s : State) : s.useFree.actCnt = s.actCnt := rfl
@[simp] theorem State.useFree_l2 (s : State) : s.useFree.l2 = s.l2 := rfl
@[simp] theorem State.useFree_cacheOld (s : State) : s.useFree.cacheOld = s.cacheOld := rfl
@[simp] theorem State.useFree_counts (s : State) : s.useFree.counts = s.counts := rfl
@[simp] theorem State.useFree_pend (s : State) : s.useFree.pend = s.pend := rfl
@[simp] theorem State.useFree_amos (s : State) : s.useFree.amos = s.amos := rfl
@[simp] theorem State.useFree_promised (s : State) : s.useFree.promised = s.promised := rfl
@[simp] theorem State.useFree_snaps (s : State) : s.useFree.snaps = s.snaps := rfl
@[simp] theorem State.useFree_reqs (s : State) : s.useFree.reqs = s.reqs := rfl
@[simp] theorem State.useFree_reqNum (s : State) : s.useFree.reqNum = s.reqNum := rfl
@[simp] theorem State.useFree_frames (s : State) : s.useFree.frames = s.frames := rfl
@[simp] theorem State.useFree_images (s : State) : s.useFree.images = s.images := rfl
@[simp] theorem State.useFree_leader (s : State) : s.useFree.leader = s.leader := rfl
@[simp] theorem State.useFree_bank (s : State) : s.useFree.bank = s.bank := rfl
@[simp] theorem State.useFree_array (s : State) : s.useFree.array = s.array := rfl
@[simp] theorem State.useFree_ctx (s : State) : s.useFree.ctx = s.ctx := rfl
@[simp] theorem State.useFree_task (s : State) : s.useFree.task = s.task := rfl
@[simp] theorem State.useFree_tier (s : State) : s.useFree.tier = s.tier := rfl

/-! ### A leader's completion -/

@[simp] theorem Leader.retired_bind (l : Leader) (len : Nat) : (l.retired len).bind = l.bind := rfl
@[simp] theorem Leader.retired_run (l : Leader) (len : Nat) : (l.retired len).run = l.run := rfl
@[simp] theorem Leader.retired_imem (l : Leader) (len : Nat) : (l.retired len).imem = l.imem := rfl
@[simp] theorem Leader.retired_x (l : Leader) (len : Nat) : (l.retired len).x = l.x := rfl
@[simp] theorem Leader.retired_xPoison (l : Leader) (len : Nat) : (l.retired len).xPoison = l.xPoison := rfl
@[simp] theorem Leader.retired_xPend (l : Leader) (len : Nat) : (l.retired len).xPend = l.xPend := rfl
@[simp] theorem Leader.retired_gates (l : Leader) (len : Nat) : (l.retired len).gates = l.gates := rfl
@[simp] theorem Leader.retired_level (l : Leader) (len : Nat) : (l.retired len).level = l.level := rfl
@[simp] theorem Leader.retired_mm (l : Leader) (len : Nat) : (l.retired len).mm = l.mm := rfl
@[simp] theorem Leader.retired_bmr (l : Leader) (len : Nat) : (l.retired len).bmr = l.bmr := rfl
@[simp] theorem Leader.retired_aside (l : Leader) (len : Nat) : (l.retired len).aside = l.aside := rfl
@[simp] theorem Leader.retired_gateStore (l : Leader) (len : Nat) : (l.retired len).gateStore = l.gateStore := rfl
@[simp] theorem Leader.retired_strip (l : Leader) (len : Nat) : (l.retired len).strip = l.strip := rfl
@[simp] theorem Leader.retired_nextStrip (l : Leader) (len : Nat) : (l.retired len).nextStrip = l.nextStrip := rfl
@[simp] theorem Leader.retired_commitWait (l : Leader) (len : Nat) : (l.retired len).commitWait = l.commitWait := rfl
@[simp] theorem Leader.retired_rowq (l : Leader) (len : Nat) : (l.retired len).rowq = l.rowq := rfl
@[simp] theorem Leader.retired_rowNum (l : Leader) (len : Nat) : (l.retired len).rowNum = l.rowNum := rfl
@[simp] theorem Leader.retired_matq (l : Leader) (len : Nat) : (l.retired len).matq = l.matq := rfl
@[simp] theorem Leader.retired_matRun (l : Leader) (len : Nat) : (l.retired len).matRun = l.matRun := rfl
@[simp] theorem Leader.retired_copyq (l : Leader) (len : Nat) : (l.retired len).copyq = l.copyq := rfl
@[simp] theorem Leader.retired_copyRun (l : Leader) (len : Nat) : (l.retired len).copyRun = l.copyRun := rfl
@[simp] theorem Leader.retired_follow (l : Leader) (len : Nat) : (l.retired len).follow = l.follow := rfl
@[simp] theorem Leader.retired_cmdNum (l : Leader) (len : Nat) : (l.retired len).cmdNum = l.cmdNum := rfl
@[simp] theorem Leader.retired_engDone (l : Leader) (len : Nat) : (l.retired len).engDone = l.engDone := rfl
@[simp] theorem Leader.retired_toks (l : Leader) (len : Nat) : (l.retired len).toks = l.toks := rfl
@[simp] theorem Leader.retired_seq (l : Leader) (len : Nat) : (l.retired len).seq = l.seq := rfl
@[simp] theorem Leader.retired_scratch (l : Leader) (len : Nat) : (l.retired len).scratch = l.scratch := rfl
@[simp] theorem Leader.retired_tlb (l : Leader) (len : Nat) : (l.retired len).tlb = l.tlb := rfl
@[simp] theorem Leader.retired_async (l : Leader) (len : Nat) : (l.retired len).async = l.async := rfl
@[simp] theorem Leader.retired_pendTrap (l : Leader) (len : Nat) : (l.retired len).pendTrap = l.pendTrap := rfl
@[simp] theorem Leader.retired_preempt (l : Leader) (len : Nat) : (l.retired len).preempt = l.preempt := rfl
@[simp] theorem Leader.retired_rewind (l : Leader) (len : Nat) : (l.retired len).rewind = l.rewind := rfl
@[simp] theorem Leader.retired_cpos (l : Leader) (len : Nat) : (l.retired len).cpos = l.cpos := rfl
@[simp] theorem Leader.retired_cairns (l : Leader) (len : Nat) : (l.retired len).cairns = l.cairns := rfl
@[simp] theorem Leader.retired_arrival (l : Leader) (len : Nat) : (l.retired len).arrival = l.arrival := rfl
@[simp] theorem Leader.retired_lanes (l : Leader) (len : Nat) : (l.retired len).lanes = l.lanes := rfl
@[simp] theorem Leader.retired_l1 (l : Leader) (len : Nat) : (l.retired len).l1 = l.l1 := rfl
@[simp] theorem Leader.retired_xfer (l : Leader) (len : Nat) : (l.retired len).xfer = l.xfer := rfl
@[simp] theorem Leader.retired_stalled (l : Leader) (len : Nat) : (l.retired len).stalled = false := rfl
@[simp] theorem Leader.retired_wfeAt (l : Leader) (len : Nat) : (l.retired len).wfeAt = l.wfeAt := rfl
@[simp] theorem Leader.retired_wfeEv (l : Leader) (len : Nat) : (l.retired len).wfeEv = l.wfeEv := rfl
@[simp] theorem Leader.retired_wever (l : Leader) (len : Nat) : (l.retired len).wever = l.wever := rfl
@[simp] theorem Leader.retired_tileSeq (l : Leader) (len : Nat) : (l.retired len).tileSeq = l.tileSeq := rfl
@[simp] theorem Leader.retired_killed (l : Leader) (len : Nat) : (l.retired len).killed = l.killed := rfl
@[simp] theorem Leader.retired_tag (l : Leader) (len : Nat) : (l.retired len).tag = l.tag := rfl
@[simp] theorem Leader.retired_stalls (l : Leader) (len : Nat) : (l.retired len).stalls = l.stalls := rfl
@[simp] theorem Leader.retired_orphan (l : Leader) (len : Nat) : (l.retired len).orphan = l.orphan := rfl
@[simp] theorem Leader.retired_stale (l : Leader) (len : Nat) : (l.retired len).stale = l.stale := rfl
@[simp] theorem Leader.retired_degraded (l : Leader) (len : Nat) : (l.retired len).degraded = l.degraded := rfl
@[simp] theorem Leader.retired_spineLog (l : Leader) (len : Nat) : (l.retired len).spineLog = l.spineLog := rfl
@[simp] theorem Leader.retired_retry (l : Leader) (len : Nat) : (l.retired len).retry = l.retry := rfl
@[simp] theorem Leader.retired_degradedN (l : Leader) (len : Nat) : (l.retired len).degradedN = l.degradedN := rfl
@[simp] theorem Leader.retired_poisonedN (l : Leader) (len : Nat) : (l.retired len).poisonedN = l.poisonedN := rfl
@[simp] theorem Leader.jumped_bind (l : Leader) (p : Word) : (l.jumped p).bind = l.bind := rfl
@[simp] theorem Leader.jumped_run (l : Leader) (p : Word) : (l.jumped p).run = l.run := rfl
@[simp] theorem Leader.jumped_imem (l : Leader) (p : Word) : (l.jumped p).imem = l.imem := rfl
@[simp] theorem Leader.jumped_x (l : Leader) (p : Word) : (l.jumped p).x = l.x := rfl
@[simp] theorem Leader.jumped_xPoison (l : Leader) (p : Word) : (l.jumped p).xPoison = l.xPoison := rfl
@[simp] theorem Leader.jumped_xPend (l : Leader) (p : Word) : (l.jumped p).xPend = l.xPend := rfl
@[simp] theorem Leader.jumped_loops (l : Leader) (p : Word) : (l.jumped p).loops = l.loops := rfl
@[simp] theorem Leader.jumped_gates (l : Leader) (p : Word) : (l.jumped p).gates = l.gates := rfl
@[simp] theorem Leader.jumped_level (l : Leader) (p : Word) : (l.jumped p).level = l.level := rfl
@[simp] theorem Leader.jumped_mm (l : Leader) (p : Word) : (l.jumped p).mm = l.mm := rfl
@[simp] theorem Leader.jumped_bmr (l : Leader) (p : Word) : (l.jumped p).bmr = l.bmr := rfl
@[simp] theorem Leader.jumped_aside (l : Leader) (p : Word) : (l.jumped p).aside = l.aside := rfl
@[simp] theorem Leader.jumped_gateStore (l : Leader) (p : Word) : (l.jumped p).gateStore = l.gateStore := rfl
@[simp] theorem Leader.jumped_strip (l : Leader) (p : Word) : (l.jumped p).strip = l.strip := rfl
@[simp] theorem Leader.jumped_nextStrip (l : Leader) (p : Word) : (l.jumped p).nextStrip = l.nextStrip := rfl
@[simp] theorem Leader.jumped_commitWait (l : Leader) (p : Word) : (l.jumped p).commitWait = l.commitWait := rfl
@[simp] theorem Leader.jumped_rowq (l : Leader) (p : Word) : (l.jumped p).rowq = l.rowq := rfl
@[simp] theorem Leader.jumped_rowNum (l : Leader) (p : Word) : (l.jumped p).rowNum = l.rowNum := rfl
@[simp] theorem Leader.jumped_matq (l : Leader) (p : Word) : (l.jumped p).matq = l.matq := rfl
@[simp] theorem Leader.jumped_matRun (l : Leader) (p : Word) : (l.jumped p).matRun = l.matRun := rfl
@[simp] theorem Leader.jumped_copyq (l : Leader) (p : Word) : (l.jumped p).copyq = l.copyq := rfl
@[simp] theorem Leader.jumped_copyRun (l : Leader) (p : Word) : (l.jumped p).copyRun = l.copyRun := rfl
@[simp] theorem Leader.jumped_follow (l : Leader) (p : Word) : (l.jumped p).follow = l.follow := rfl
@[simp] theorem Leader.jumped_cmdNum (l : Leader) (p : Word) : (l.jumped p).cmdNum = l.cmdNum := rfl
@[simp] theorem Leader.jumped_engDone (l : Leader) (p : Word) : (l.jumped p).engDone = l.engDone := rfl
@[simp] theorem Leader.jumped_toks (l : Leader) (p : Word) : (l.jumped p).toks = l.toks := rfl
@[simp] theorem Leader.jumped_seq (l : Leader) (p : Word) : (l.jumped p).seq = l.seq := rfl
@[simp] theorem Leader.jumped_scratch (l : Leader) (p : Word) : (l.jumped p).scratch = l.scratch := rfl
@[simp] theorem Leader.jumped_tlb (l : Leader) (p : Word) : (l.jumped p).tlb = l.tlb := rfl
@[simp] theorem Leader.jumped_async (l : Leader) (p : Word) : (l.jumped p).async = l.async := rfl
@[simp] theorem Leader.jumped_pendTrap (l : Leader) (p : Word) : (l.jumped p).pendTrap = l.pendTrap := rfl
@[simp] theorem Leader.jumped_preempt (l : Leader) (p : Word) : (l.jumped p).preempt = l.preempt := rfl
@[simp] theorem Leader.jumped_rewind (l : Leader) (p : Word) : (l.jumped p).rewind = l.rewind := rfl
@[simp] theorem Leader.jumped_cpos (l : Leader) (p : Word) : (l.jumped p).cpos = l.cpos := rfl
@[simp] theorem Leader.jumped_cairns (l : Leader) (p : Word) : (l.jumped p).cairns = l.cairns := rfl
@[simp] theorem Leader.jumped_arrival (l : Leader) (p : Word) : (l.jumped p).arrival = l.arrival := rfl
@[simp] theorem Leader.jumped_lanes (l : Leader) (p : Word) : (l.jumped p).lanes = l.lanes := rfl
@[simp] theorem Leader.jumped_l1 (l : Leader) (p : Word) : (l.jumped p).l1 = l.l1 := rfl
@[simp] theorem Leader.jumped_xfer (l : Leader) (p : Word) : (l.jumped p).xfer = l.xfer := rfl
@[simp] theorem Leader.jumped_stalled (l : Leader) (p : Word) : (l.jumped p).stalled = false := rfl
@[simp] theorem Leader.jumped_wfeAt (l : Leader) (p : Word) : (l.jumped p).wfeAt = l.wfeAt := rfl
@[simp] theorem Leader.jumped_wfeEv (l : Leader) (p : Word) : (l.jumped p).wfeEv = l.wfeEv := rfl
@[simp] theorem Leader.jumped_wever (l : Leader) (p : Word) : (l.jumped p).wever = l.wever := rfl
@[simp] theorem Leader.jumped_tileSeq (l : Leader) (p : Word) : (l.jumped p).tileSeq = l.tileSeq := rfl
@[simp] theorem Leader.jumped_killed (l : Leader) (p : Word) : (l.jumped p).killed = l.killed := rfl
@[simp] theorem Leader.jumped_tag (l : Leader) (p : Word) : (l.jumped p).tag = l.tag := rfl
@[simp] theorem Leader.jumped_stalls (l : Leader) (p : Word) : (l.jumped p).stalls = l.stalls := rfl
@[simp] theorem Leader.jumped_orphan (l : Leader) (p : Word) : (l.jumped p).orphan = l.orphan := rfl
@[simp] theorem Leader.jumped_stale (l : Leader) (p : Word) : (l.jumped p).stale = l.stale := rfl
@[simp] theorem Leader.jumped_degraded (l : Leader) (p : Word) : (l.jumped p).degraded = l.degraded := rfl
@[simp] theorem Leader.jumped_spineLog (l : Leader) (p : Word) : (l.jumped p).spineLog = l.spineLog := rfl
@[simp] theorem Leader.jumped_retry (l : Leader) (p : Word) : (l.jumped p).retry = l.retry := rfl
@[simp] theorem Leader.jumped_degradedN (l : Leader) (p : Word) : (l.jumped p).degradedN = l.degradedN := rfl
@[simp] theorem Leader.jumped_poisonedN (l : Leader) (p : Word) : (l.jumped p).poisonedN = l.poisonedN := rfl
@[simp] theorem Leader.counted_bind (l : Leader) : (l.counted).bind = l.bind := rfl
@[simp] theorem Leader.counted_run (l : Leader) : (l.counted).run = l.run := rfl
@[simp] theorem Leader.counted_imem (l : Leader) : (l.counted).imem = l.imem := rfl
@[simp] theorem Leader.counted_pc (l : Leader) : (l.counted).pc = l.pc := rfl
@[simp] theorem Leader.counted_x (l : Leader) : (l.counted).x = l.x := rfl
@[simp] theorem Leader.counted_xPoison (l : Leader) : (l.counted).xPoison = l.xPoison := rfl
@[simp] theorem Leader.counted_xPend (l : Leader) : (l.counted).xPend = l.xPend := rfl
@[simp] theorem Leader.counted_loops (l : Leader) : (l.counted).loops = l.loops := rfl
@[simp] theorem Leader.counted_gates (l : Leader) : (l.counted).gates = l.gates := rfl
@[simp] theorem Leader.counted_level (l : Leader) : (l.counted).level = l.level := rfl
@[simp] theorem Leader.counted_mm (l : Leader) : (l.counted).mm = l.mm := rfl
@[simp] theorem Leader.counted_bmr (l : Leader) : (l.counted).bmr = l.bmr := rfl
@[simp] theorem Leader.counted_aside (l : Leader) : (l.counted).aside = l.aside := rfl
@[simp] theorem Leader.counted_gateStore (l : Leader) : (l.counted).gateStore = l.gateStore := rfl
@[simp] theorem Leader.counted_strip (l : Leader) : (l.counted).strip = l.strip := rfl
@[simp] theorem Leader.counted_nextStrip (l : Leader) : (l.counted).nextStrip = l.nextStrip := rfl
@[simp] theorem Leader.counted_commitWait (l : Leader) : (l.counted).commitWait = l.commitWait := rfl
@[simp] theorem Leader.counted_rowq (l : Leader) : (l.counted).rowq = l.rowq := rfl
@[simp] theorem Leader.counted_rowNum (l : Leader) : (l.counted).rowNum = l.rowNum := rfl
@[simp] theorem Leader.counted_matq (l : Leader) : (l.counted).matq = l.matq := rfl
@[simp] theorem Leader.counted_matRun (l : Leader) : (l.counted).matRun = l.matRun := rfl
@[simp] theorem Leader.counted_copyq (l : Leader) : (l.counted).copyq = l.copyq := rfl
@[simp] theorem Leader.counted_copyRun (l : Leader) : (l.counted).copyRun = l.copyRun := rfl
@[simp] theorem Leader.counted_follow (l : Leader) : (l.counted).follow = l.follow := rfl
@[simp] theorem Leader.counted_cmdNum (l : Leader) : (l.counted).cmdNum = l.cmdNum := rfl
@[simp] theorem Leader.counted_engDone (l : Leader) : (l.counted).engDone = l.engDone := rfl
@[simp] theorem Leader.counted_toks (l : Leader) : (l.counted).toks = l.toks := rfl
@[simp] theorem Leader.counted_seq (l : Leader) : (l.counted).seq = l.seq := rfl
@[simp] theorem Leader.counted_scratch (l : Leader) : (l.counted).scratch = l.scratch := rfl
@[simp] theorem Leader.counted_tlb (l : Leader) : (l.counted).tlb = l.tlb := rfl
@[simp] theorem Leader.counted_async (l : Leader) : (l.counted).async = l.async := rfl
@[simp] theorem Leader.counted_pendTrap (l : Leader) : (l.counted).pendTrap = l.pendTrap := rfl
@[simp] theorem Leader.counted_preempt (l : Leader) : (l.counted).preempt = l.preempt := rfl
@[simp] theorem Leader.counted_rewind (l : Leader) : (l.counted).rewind = l.rewind := rfl
@[simp] theorem Leader.counted_cpos (l : Leader) : (l.counted).cpos = l.cpos := rfl
@[simp] theorem Leader.counted_cairns (l : Leader) : (l.counted).cairns = l.cairns := rfl
@[simp] theorem Leader.counted_arrival (l : Leader) : (l.counted).arrival = l.arrival := rfl
@[simp] theorem Leader.counted_lanes (l : Leader) : (l.counted).lanes = l.lanes := rfl
@[simp] theorem Leader.counted_l1 (l : Leader) : (l.counted).l1 = l.l1 := rfl
@[simp] theorem Leader.counted_xfer (l : Leader) : (l.counted).xfer = l.xfer := rfl
@[simp] theorem Leader.counted_stalled (l : Leader) : (l.counted).stalled = false := rfl
@[simp] theorem Leader.counted_wfeAt (l : Leader) : (l.counted).wfeAt = l.wfeAt := rfl
@[simp] theorem Leader.counted_wfeEv (l : Leader) : (l.counted).wfeEv = l.wfeEv := rfl
@[simp] theorem Leader.counted_wever (l : Leader) : (l.counted).wever = l.wever := rfl
@[simp] theorem Leader.counted_tileSeq (l : Leader) : (l.counted).tileSeq = l.tileSeq := rfl
@[simp] theorem Leader.counted_killed (l : Leader) : (l.counted).killed = l.killed := rfl
@[simp] theorem Leader.counted_hop (l : Leader) : (l.counted).hop = l.hop := rfl
@[simp] theorem Leader.counted_tag (l : Leader) : (l.counted).tag = l.tag := rfl
@[simp] theorem Leader.counted_stalls (l : Leader) : (l.counted).stalls = l.stalls := rfl
@[simp] theorem Leader.counted_orphan (l : Leader) : (l.counted).orphan = l.orphan := rfl
@[simp] theorem Leader.counted_stale (l : Leader) : (l.counted).stale = l.stale := rfl
@[simp] theorem Leader.counted_degraded (l : Leader) : (l.counted).degraded = l.degraded := rfl
@[simp] theorem Leader.counted_spineLog (l : Leader) : (l.counted).spineLog = l.spineLog := rfl
@[simp] theorem Leader.counted_retry (l : Leader) : (l.counted).retry = l.retry := rfl
@[simp] theorem Leader.counted_degradedN (l : Leader) : (l.counted).degradedN = l.degradedN := rfl
@[simp] theorem Leader.counted_poisonedN (l : Leader) : (l.counted).poisonedN = l.poisonedN := rfl
@[simp] theorem Leader.retired_issue (l : Leader) (len : Nat) : (l.retired len).issue = l.issue + 1 := rfl
@[simp] theorem Leader.retired_instret (l : Leader) (len : Nat) : (l.retired len).csr.instret = l.csr.instret + 1 := rfl
@[simp] theorem Leader.jumped_pc (l : Leader) (p : Word) : (l.jumped p).pc = p := rfl
@[simp] theorem Leader.xw_bind (l : Leader) (d : Nat) (v : Word) : (l.xw d v).bind = l.bind := by unfold Leader.xw; split <;> rfl
@[simp] theorem Leader.xw_run (l : Leader) (d : Nat) (v : Word) : (l.xw d v).run = l.run := by unfold Leader.xw; split <;> rfl
@[simp] theorem Leader.xw_imem (l : Leader) (d : Nat) (v : Word) : (l.xw d v).imem = l.imem := by unfold Leader.xw; split <;> rfl
@[simp] theorem Leader.xw_pc (l : Leader) (d : Nat) (v : Word) : (l.xw d v).pc = l.pc := by unfold Leader.xw; split <;> rfl
@[simp] theorem Leader.xw_loops (l : Leader) (d : Nat) (v : Word) : (l.xw d v).loops = l.loops := by unfold Leader.xw; split <;> rfl
@[simp] theorem Leader.xw_gates (l : Leader) (d : Nat) (v : Word) : (l.xw d v).gates = l.gates := by unfold Leader.xw; split <;> rfl
@[simp] theorem Leader.xw_level (l : Leader) (d : Nat) (v : Word) : (l.xw d v).level = l.level := by unfold Leader.xw; split <;> rfl
@[simp] theorem Leader.xw_mm (l : Leader) (d : Nat) (v : Word) : (l.xw d v).mm = l.mm := by unfold Leader.xw; split <;> rfl
@[simp] theorem Leader.xw_bmr (l : Leader) (d : Nat) (v : Word) : (l.xw d v).bmr = l.bmr := by unfold Leader.xw; split <;> rfl
@[simp] theorem Leader.xw_csr (l : Leader) (d : Nat) (v : Word) : (l.xw d v).csr = l.csr := by unfold Leader.xw; split <;> rfl
@[simp] theorem Leader.xw_aside (l : Leader) (d : Nat) (v : Word) : (l.xw d v).aside = l.aside := by unfold Leader.xw; split <;> rfl
@[simp] theorem Leader.xw_gateStore (l : Leader) (d : Nat) (v : Word) : (l.xw d v).gateStore = l.gateStore := by unfold Leader.xw; split <;> rfl
@[simp] theorem Leader.xw_strip (l : Leader) (d : Nat) (v : Word) : (l.xw d v).strip = l.strip := by unfold Leader.xw; split <;> rfl
@[simp] theorem Leader.xw_nextStrip (l : Leader) (d : Nat) (v : Word) : (l.xw d v).nextStrip = l.nextStrip := by unfold Leader.xw; split <;> rfl
@[simp] theorem Leader.xw_commitWait (l : Leader) (d : Nat) (v : Word) : (l.xw d v).commitWait = l.commitWait := by unfold Leader.xw; split <;> rfl
@[simp] theorem Leader.xw_rowq (l : Leader) (d : Nat) (v : Word) : (l.xw d v).rowq = l.rowq := by unfold Leader.xw; split <;> rfl
@[simp] theorem Leader.xw_rowNum (l : Leader) (d : Nat) (v : Word) : (l.xw d v).rowNum = l.rowNum := by unfold Leader.xw; split <;> rfl
@[simp] theorem Leader.xw_matq (l : Leader) (d : Nat) (v : Word) : (l.xw d v).matq = l.matq := by unfold Leader.xw; split <;> rfl
@[simp] theorem Leader.xw_matRun (l : Leader) (d : Nat) (v : Word) : (l.xw d v).matRun = l.matRun := by unfold Leader.xw; split <;> rfl
@[simp] theorem Leader.xw_copyq (l : Leader) (d : Nat) (v : Word) : (l.xw d v).copyq = l.copyq := by unfold Leader.xw; split <;> rfl
@[simp] theorem Leader.xw_copyRun (l : Leader) (d : Nat) (v : Word) : (l.xw d v).copyRun = l.copyRun := by unfold Leader.xw; split <;> rfl
@[simp] theorem Leader.xw_follow (l : Leader) (d : Nat) (v : Word) : (l.xw d v).follow = l.follow := by unfold Leader.xw; split <;> rfl
@[simp] theorem Leader.xw_cmdNum (l : Leader) (d : Nat) (v : Word) : (l.xw d v).cmdNum = l.cmdNum := by unfold Leader.xw; split <;> rfl
@[simp] theorem Leader.xw_engDone (l : Leader) (d : Nat) (v : Word) : (l.xw d v).engDone = l.engDone := by unfold Leader.xw; split <;> rfl
@[simp] theorem Leader.xw_toks (l : Leader) (d : Nat) (v : Word) : (l.xw d v).toks = l.toks := by unfold Leader.xw; split <;> rfl
@[simp] theorem Leader.xw_seq (l : Leader) (d : Nat) (v : Word) : (l.xw d v).seq = l.seq := by unfold Leader.xw; split <;> rfl
@[simp] theorem Leader.xw_scratch (l : Leader) (d : Nat) (v : Word) : (l.xw d v).scratch = l.scratch := by unfold Leader.xw; split <;> rfl
@[simp] theorem Leader.xw_tlb (l : Leader) (d : Nat) (v : Word) : (l.xw d v).tlb = l.tlb := by unfold Leader.xw; split <;> rfl
@[simp] theorem Leader.xw_async (l : Leader) (d : Nat) (v : Word) : (l.xw d v).async = l.async := by unfold Leader.xw; split <;> rfl
@[simp] theorem Leader.xw_pendTrap (l : Leader) (d : Nat) (v : Word) : (l.xw d v).pendTrap = l.pendTrap := by unfold Leader.xw; split <;> rfl
@[simp] theorem Leader.xw_preempt (l : Leader) (d : Nat) (v : Word) : (l.xw d v).preempt = l.preempt := by unfold Leader.xw; split <;> rfl
@[simp] theorem Leader.xw_rewind (l : Leader) (d : Nat) (v : Word) : (l.xw d v).rewind = l.rewind := by unfold Leader.xw; split <;> rfl
@[simp] theorem Leader.xw_cpos (l : Leader) (d : Nat) (v : Word) : (l.xw d v).cpos = l.cpos := by unfold Leader.xw; split <;> rfl
@[simp] theorem Leader.xw_cairns (l : Leader) (d : Nat) (v : Word) : (l.xw d v).cairns = l.cairns := by unfold Leader.xw; split <;> rfl
@[simp] theorem Leader.xw_arrival (l : Leader) (d : Nat) (v : Word) : (l.xw d v).arrival = l.arrival := by unfold Leader.xw; split <;> rfl
@[simp] theorem Leader.xw_lanes (l : Leader) (d : Nat) (v : Word) : (l.xw d v).lanes = l.lanes := by unfold Leader.xw; split <;> rfl
@[simp] theorem Leader.xw_l1 (l : Leader) (d : Nat) (v : Word) : (l.xw d v).l1 = l.l1 := by unfold Leader.xw; split <;> rfl
@[simp] theorem Leader.xw_stalled (l : Leader) (d : Nat) (v : Word) : (l.xw d v).stalled = l.stalled := by unfold Leader.xw; split <;> rfl
@[simp] theorem Leader.xw_wfeAt (l : Leader) (d : Nat) (v : Word) : (l.xw d v).wfeAt = l.wfeAt := by unfold Leader.xw; split <;> rfl
@[simp] theorem Leader.xw_wfeEv (l : Leader) (d : Nat) (v : Word) : (l.xw d v).wfeEv = l.wfeEv := by unfold Leader.xw; split <;> rfl
@[simp] theorem Leader.xw_wever (l : Leader) (d : Nat) (v : Word) : (l.xw d v).wever = l.wever := by unfold Leader.xw; split <;> rfl
@[simp] theorem Leader.xw_tileSeq (l : Leader) (d : Nat) (v : Word) : (l.xw d v).tileSeq = l.tileSeq := by unfold Leader.xw; split <;> rfl
@[simp] theorem Leader.xw_killed (l : Leader) (d : Nat) (v : Word) : (l.xw d v).killed = l.killed := by unfold Leader.xw; split <;> rfl
@[simp] theorem Leader.xw_hop (l : Leader) (d : Nat) (v : Word) : (l.xw d v).hop = l.hop := by unfold Leader.xw; split <;> rfl
@[simp] theorem Leader.xw_tag (l : Leader) (d : Nat) (v : Word) : (l.xw d v).tag = l.tag := by unfold Leader.xw; split <;> rfl
@[simp] theorem Leader.xw_issue (l : Leader) (d : Nat) (v : Word) : (l.xw d v).issue = l.issue := by unfold Leader.xw; split <;> rfl
@[simp] theorem Leader.xw_stalls (l : Leader) (d : Nat) (v : Word) : (l.xw d v).stalls = l.stalls := by unfold Leader.xw; split <;> rfl
@[simp] theorem Leader.xw_orphan (l : Leader) (d : Nat) (v : Word) : (l.xw d v).orphan = l.orphan := by unfold Leader.xw; split <;> rfl
@[simp] theorem Leader.xw_stale (l : Leader) (d : Nat) (v : Word) : (l.xw d v).stale = l.stale := by unfold Leader.xw; split <;> rfl
@[simp] theorem Leader.xw_degraded (l : Leader) (d : Nat) (v : Word) : (l.xw d v).degraded = l.degraded := by unfold Leader.xw; split <;> rfl
@[simp] theorem Leader.xw_spineLog (l : Leader) (d : Nat) (v : Word) : (l.xw d v).spineLog = l.spineLog := by unfold Leader.xw; split <;> rfl
@[simp] theorem Leader.xw_xfer (l : Leader) (d : Nat) (v : Word) : (l.xw d v).xfer = l.xfer := by unfold Leader.xw; split <;> rfl
@[simp] theorem Leader.xw_retry (l : Leader) (d : Nat) (v : Word) : (l.xw d v).retry = l.retry := by unfold Leader.xw; split <;> rfl
@[simp] theorem Leader.xw_degradedN (l : Leader) (d : Nat) (v : Word) : (l.xw d v).degradedN = l.degradedN := by unfold Leader.xw; split <;> rfl
@[simp] theorem Leader.xw_poisonedN (l : Leader) (d : Nat) (v : Word) : (l.xw d v).poisonedN = l.poisonedN := by unfold Leader.xw; split <;> rfl
@[simp] theorem Leader.xr_zero (l : Leader) : l.xr 0 = 0 := rfl
theorem Leader.xw_xr (l : Leader) (d r : Nat) (v : Word) : (l.xw d v).xr r = if r = d ∧ d ≠ 0 then v else l.xr r := by
  unfold Leader.xw Leader.xr
  by_cases hd : d = 0
  · simp [hd]
  · by_cases hr : r = 0
    · subst hr; simp [Ne.symm hd]
    · simp [hd, hr, tget_tput]

end Sys2Proof.Machine
end

