-- ==== Sys2Proof/Laws/Leader.lean ====
section
/-! SUPPORT. What the shared operations of a leader instruction do: when it takes its effect, what completing it leaves, the loop test,
trap delivery and return. -/
namespace Sys2Proof.Machine

open Host (Outcome)

/-! ### When the effect happens -/

/-- With its sources ready, a leader instruction takes its effect. -/
theorem onLeaderP_ready {ws : List IWord} {srcs : List Nat} {pre : Nat → State → Option State} {f : Nat → State → State} {s : State} {n : Nat}
    (hc : s.cur = .leader n)
    (h : ∀ r ∈ srcs, r ≠ 0 → tget 0 (s.leader n).xPend r = 0 ∧ tget none (s.leader n).xPoison r = none) :
    onLeaderP ws srcs pre f s = .next (f n s) := by
  have h1 : (srcs.any fun r => r != 0 && tget 0 (s.leader n).xPend r != 0) = false := by
    simp only [List.any_eq_false, Bool.and_eq_true, bne_iff_ne, ne_eq, not_and, Decidable.not_not]
    exact fun r hr h0 => (h r hr h0).1
  have h2 : (srcs.findSome? fun r => if r = 0 then none else tget none (s.leader n).xPoison r) = none := by
    rw [List.findSome?_eq_none_iff]
    intro r hr
    by_cases h0 : r = 0
    · simp [h0]
    · simpa [h0] using (h r hr h0).2
  simp [onLeaderP, hc, h1, h2]

theorem onLeaderW_ready {ws : List IWord} {srcs : List Nat} {f : Nat → State → State} {s : State} {n : Nat} (hc : s.cur = .leader n)
    (h : ∀ r ∈ srcs, r ≠ 0 → tget 0 (s.leader n).xPend r = 0 ∧ tget none (s.leader n).xPoison r = none) :
    onLeaderW ws srcs f s = .next (f n s) := onLeaderP_ready hc h

theorem onLeaderC_ready {i : Instr} {srcs : List Nat} {pre : Nat → State → Option State} {f : Nat → State → State} {s : State} {n : Nat}
    (hc : s.cur = .leader n)
    (h : ∀ r ∈ srcs, r ≠ 0 → tget 0 (s.leader n).xPend r = 0 ∧ tget none (s.leader n).xPoison r = none) :
    onLeaderC i srcs pre f s = .next (f n s) := onLeaderP_ready hc h

theorem onLeader_ready {i : Instr} {srcs : List Nat} {f : Nat → State → State} {s : State} {n : Nat} (hc : s.cur = .leader n)
    (h : ∀ r ∈ srcs, r ≠ 0 → tget 0 (s.leader n).xPend r = 0 ∧ tget none (s.leader n).xPoison r = none) :
    onLeader i srcs f s = .next (f n s) := onLeaderW_ready hc h

theorem onLeaderKC_ready {i : Instr} {srcs : List Nat} {pre : Nat → State → Option State} {f : Nat → State → State} {s : State} {n : Nat}
    (hc : s.cur = .leader n) (hk : 2 ≤ (s.leader n).level.toNat)
    (h : ∀ r ∈ srcs, r ≠ 0 → tget 0 (s.leader n).xPend r = 0 ∧ tget none (s.leader n).xPoison r = none) :
    onLeaderKC i srcs pre f s = .next (f n s) := by
  unfold onLeaderKC; rw [hc]; simp only [if_neg (Nat.not_lt.mpr hk)]; exact onLeaderC_ready hc h

theorem onLeaderK_ready {i : Instr} {srcs : List Nat} {f : Nat → State → State} {s : State} {n : Nat} (hc : s.cur = .leader n)
    (hk : 2 ≤ (s.leader n).level.toNat)
    (h : ∀ r ∈ srcs, r ≠ 0 → tget 0 (s.leader n).xPend r = 0 ∧ tget none (s.leader n).xPoison r = none) :
    onLeaderK i srcs f s = .next (f n s) := onLeaderKC_ready hc hk h

/-- A poisoned source: an own check that needs none of the poisoned operands comes first, and without one the source is consumed (R390). -/
theorem onLeaderP_poisoned {ws : List IWord} {srcs : List Nat} {pre : Nat → State → Option State} {f : Nat → State → State} {s : State} {n : Nat}
    {va : Nat} (hc : s.cur = .leader n) (h : ∀ r ∈ srcs, r ≠ 0 → tget 0 (s.leader n).xPend r = 0)
    (hp : (srcs.findSome? fun r => if r = 0 then none else tget none (s.leader n).xPoison r) = some va) :
    onLeaderP ws srcs pre f s = .next ((pre n s).getD (s.consumeX n va)) := by
  have h1 : (srcs.any fun r => r != 0 && tget 0 (s.leader n).xPend r != 0) = false := by
    simp only [List.any_eq_false, Bool.and_eq_true, bne_iff_ne, ne_eq, not_and, Decidable.not_not]
    exact fun r hr h0 => h r hr h0
  simp [onLeaderP, hc, h1, hp]

/-- A source that an earlier load still owes: the instruction waits (R86). -/
theorem onLeaderP_waits {ws : List IWord} {srcs : List Nat} {pre : Nat → State → Option State} {f : Nat → State → State} {s : State} {n r : Nat}
    (hc : s.cur = .leader n) (hr : r ∈ srcs) (h0 : r ≠ 0) (hp : tget 0 (s.leader n).xPend r ≠ 0) :
    onLeaderP ws srcs pre f s = .next (s.stall n (s.pendCause n ws srcs)) := by
  have h1 : (srcs.any fun r => r != 0 && tget 0 (s.leader n).xPend r != 0) = true :=
    List.any_eq_true.mpr ⟨r, hr, by simp [h0, hp]⟩
  simp [onLeaderP, hc, h1]

theorem onBankW_at {ws : List IWord} {f : Nat → State → State} {s : State} {g : Nat} (hc : s.cur = .bank g) :
    onBankW ws f s = .next (f g s) := by simp [onBankW, hc]
theorem onBank_at {i : Instr} {f : Nat → State → State} {s : State} {g : Nat} (hc : s.cur = .bank g) :
    onBank i f s = .next (f g s) := onBankW_at hc

/-! ### The loop test (R102) -/

theorem loopTest_popped {E : Nat} {popped rest : List LoopEntry} (h : ∀ e ∈ popped, e.last = E ∧ e.count ≤ 1) :
    loopTest E (popped ++ rest) = loopTest E rest := by
  induction popped with
  | nil => rfl
  | cons e r ih =>
    have he := h e (by simp)
    have hc : ¬ 1 < e.count := by omega
    simp [loopTest, he.1, hc, ih fun x hx => h x (by simp [hx])]

theorem loopTest_stays {E : Nat} {rest : List LoopEntry} (h : ∀ e ∈ rest.head?, e.last ≠ E) : loopTest E rest = (rest, none) := by
  cases rest with
  | nil => rfl
  | cons e r => simp [loopTest, h e (by simp)]

theorem loopTest_back {E : Nat} {e : LoopEntry} {r : List LoopEntry} (he : e.last = E) (hc : 1 < e.count) :
    loopTest E (e :: r) = ({ e with count := e.count - 1 } :: r, some e.start) := by simp [loopTest, he, hc]

/-- Where a retired instruction leaves PC and the loop stack. -/
theorem Leader.retired_pc_loops (l : Leader) (len : Nat) :
    (l.retired len).loops = (loopTest (l.pc + BitVec.ofNat 64 len - 4).toNat l.loops).1 ∧
    (l.retired len).pc = match (loopTest (l.pc + BitVec.ofNat 64 len - 4).toNat l.loops).2 with
      | some t => BitVec.ofNat 64 t
      | none => l.pc + BitVec.ofNat 64 len := ⟨rfl, rfl⟩

/-! ### Completion -/

theorem State.result_leader (s : State) (n d : Nat) (v : Word) (len : Nat) :
    (s.result n d v len).leader n = ((s.leader n).xw d v).retired len := by simp [State.result, State.retire, State.xw]
theorem State.result_other (s : State) (n d : Nat) (v : Word) (len : Nat) {m : Nat} (h : m ≠ n) :
    (s.result n d v len).leader m = s.leader m := by simp [State.result, State.retire, State.xw, State.setLeader_other, h]
theorem State.result_rest (s : State) (n d : Nat) (v : Word) (len : Nat) :
    s.result n d v len = { s with leaders := (s.result n d v len).leaders } := rfl
theorem State.retire_leader (s : State) (n len : Nat) : (s.retire n len).leader n = (s.leader n).retired len := by simp [State.retire]
theorem State.retire_other (s : State) (n len : Nat) {m : Nat} (h : m ≠ n) : (s.retire n len).leader m = s.leader m := by
  simp [State.retire, State.setLeader_other, h]
theorem State.jump_leader (s : State) (n : Nat) (p : Word) : (s.jump n p).leader n = (s.leader n).jumped p := by simp [State.jump]
theorem State.jump_other (s : State) (n : Nat) (p : Word) {m : Nat} (h : m ≠ n) : (s.jump n p).leader m = s.leader m := by
  simp [State.jump, State.setLeader_other, h]

/-! ### Traps -/

/-- A trap at a leader that is handling none: the thread enters the handler with the record of R235. -/
theorem State.trap_leader (s : State) (n : Nat) (c : Cause) (tval telem : Word) (h : (s.leader n).act = false) :
    (s.trap n c tval telem).leader n =
      (s.leader n).trapped (s.ctx (s.leader n).ctxOf).tvec { cause := c, bank := 0, tpc := (s.leader n).pc, tval := tval, telem := telem } := by
  simp [State.trap, h, State.deliver]
theorem State.trap_other (s : State) (n : Nat) (c : Cause) (tval telem : Word) (h : (s.leader n).act = false) {m : Nat} (hm : m ≠ n) :
    (s.trap n c tval telem).leader m = s.leader m := by simp [State.trap, h, State.deliver, State.setLeader_other, hm]
theorem State.trap_rest (s : State) (n : Nat) (c : Cause) (tval telem : Word) (h : (s.leader n).act = false) :
    s.trap n c tval telem = { s with leaders := (s.trap n c tval telem).leaders } := by
  simp only [State.trap, h]; rfl
/-- While a trap is being handled, another one stops the thread and starts the kill of its incarnation (R235, R364). -/
theorem State.trap_nested (s : State) (n : Nat) (c : Cause) (tval telem : Word) (h : (s.leader n).act = true) :
    s.trap n c tval telem = s.killThread n := by simp [State.trap, h]

/-! ### A leader's record is local -/

theorem State.stall_leader (s : State) (n cause : Nat) :
    (s.stall n cause).leader n =
      { s.leader n with why := cause, stalled := true } := by simp [State.stall]
theorem State.holds_leader (s : State) (n cause : Nat) : (s.holds n cause).leader n = { s.leader n with why := cause } := by
  simp [State.holds]
/-- A cycle in which a bound leader issued nothing counts once, in the stall counter of its cause (R388). -/
theorem Leader.passes_stalled (l : Leader) (hb : l.bind.isSome) (hi : l.issued = false) (hw : l.why ≠ 0) :
    l.passes 1 = { l with stalls := tput 0 l.stalls l.why (tget 0 l.stalls l.why + 1) } := by
  cases h : l.bind with
  | none => simp [h] at hb
  | some b => simp [Leader.passes, h, hi, hw]

end Sys2Proof.Machine
end

