-- ==== Sys2Proof/Laws/Bank.lean ====
section
/-! SUPPORT. What the shared operations at a bank do: a bank trap, the end of a block, the completion of an instruction, a stall; and
what placing an entry in a row queue does. -/
namespace Sys2Proof.Machine

open Host (Outcome)

theorem onEvent_next (f : State → State) (s : State) : onEvent f s = .next (f s) := rfl

/-! ### Bank traps (R394) -/

/-- The stopped bank holds the record and is otherwise as it was. -/
theorem State.bankTrap_bank (s : State) (g : Nat) (c : Cause) (tval telem : Word) :
    (s.bankTrap g c tval telem).bank g =
      { s.bank g with trap := some { cause := c, disp := (s.bank g).disp, tpc := (s.bank g).pcAddr, tval := tval, telem := telem,
                                     kind := .instr, seen := false } } := by simp [State.bankTrap]
theorem State.bankTrap_other (s : State) (g : Nat) (c : Cause) (tval telem : Word) {m : Nat} (h : m ≠ g) :
    (s.bankTrap g c tval telem).bank m = s.bank m := by simp [State.bankTrap, State.setBank_other, h]
@[simp] theorem State.bankTrap_leader (s : State) (g : Nat) (c : Cause) (tval telem : Word) :
    (s.bankTrap g c tval telem).leader = s.leader := rfl
@[simp] theorem State.bankTrap_rows (s : State) (g : Nat) (c : Cause) (tval telem : Word) :
    (s.bankTrap g c tval telem).rows = s.rows := rfl
@[simp] theorem State.bankTrap_pend (s : State) (g : Nat) (c : Cause) (tval telem : Word) :
    (s.bankTrap g c tval telem).pend = s.pend := rfl

/-! ### Waiting (R309) -/

theorem State.bstall_bank (s : State) (g cause : Nat) :
    (s.bstall g cause).bank g = { s.bank g with why := cause } := by
  simp [State.bstall]
theorem State.bstall_other (s : State) (g cause : Nat) {m : Nat} (h : m ≠ g) : (s.bstall g cause).bank m = s.bank m := by
  simp [State.bstall, State.setBank_other, h]
@[simp] theorem State.bstall_leader (s : State) (g cause : Nat) : (s.bstall g cause).leader = s.leader := rfl
@[simp] theorem State.bstall_rows (s : State) (g cause : Nat) : (s.bstall g cause).rows = s.rows := rfl

/-! ### Going on in a block (R44, R173, R174) -/

/-- Inside the block, the bank goes to the word named. -/
theorem State.blockGoto_inside {s : State} {g w : Nat} {r : BlockRun} (hr : (s.bank g).run = some r) (hw : w < blockLen r.desc) :
    s.blockGoto g w = s.setBank g { s.bank g with run := some { r with wpos := w } } := by simp [State.blockGoto, hr, hw]
/-- Past the last word with a loop open, the bank traps. -/
theorem State.blockGoto_open {s : State} {g w : Nat} {r : BlockRun} (hr : (s.bank g).run = some r) (hw : ¬ w < blockLen r.desc)
    (hl : (s.bank g).loops ≠ []) :
    s.blockGoto g w = s.setBank g { s.bank g with
      trap := some { cause := .illegal, disp := (s.bank g).disp, tpc := (s.bank g).pcAddr, tval := BitVec.ofNat 64 (s.bank g).loops.length,
                     telem := 0, kind := .blockEnd, seen := false } } := by simp [State.blockGoto, hr, hw, hl]
/-- Past the last word with no loop open, the block ends. -/
theorem State.blockGoto_end {s : State} {g w : Nat} {r : BlockRun} (hr : (s.bank g).run = some r) (hw : ¬ w < blockLen r.desc)
    (hl : (s.bank g).loops = []) :
    s.blockGoto g w = (s.setBank g { s.bank g with run := some { r with wpos := w % 64 } }).endBlock g := by
  simp [State.blockGoto, hr, hw, hl]

theorem State.endBlock_other (s : State) (g : Nat) {m : Nat} (h : m ≠ g) : (s.endBlock g).bank m = s.bank m := by
  unfold State.endBlock
  dsimp only
  repeat' split
  all_goals simp [State.setBank_other, h]
theorem State.endBlock_run (s : State) (g : Nat) : ((s.endBlock g).bank g).run = none := by
  unfold State.endBlock
  dsimp only
  split
  · next h => simp [h]
  · split <;> simp
@[simp] theorem State.endBlock_rows (s : State) (g : Nat) : (s.endBlock g).rows = s.rows := by
  unfold State.endBlock; dsimp only; repeat' split
  all_goals simp
@[simp] theorem State.endBlock_pend (s : State) (g : Nat) : (s.endBlock g).pend = s.pend := by
  unfold State.endBlock; dsimp only; repeat' split
  all_goals simp

theorem State.blockGoto_other (s : State) (g w : Nat) {m : Nat} (h : m ≠ g) : (s.blockGoto g w).bank m = s.bank m := by
  unfold State.blockGoto
  dsimp only
  repeat' split
  all_goals simp [State.setBank_other, State.endBlock_other, h]
@[simp] theorem State.blockGoto_rows (s : State) (g w : Nat) : (s.blockGoto g w).rows = s.rows := by
  unfold State.blockGoto; dsimp only; repeat' split
  all_goals simp
@[simp] theorem State.blockGoto_pend (s : State) (g w : Nat) : (s.blockGoto g w).pend = s.pend := by
  unfold State.blockGoto; dsimp only; repeat' split
  all_goals simp

/-- The completion of a bank instruction leaves the other banks and row memory alone. -/
theorem State.bretire_other (s : State) (g len : Nat) {m : Nat} (h : m ≠ g) : (s.bretire g len).bank m = s.bank m := by
  unfold State.bretire
  dsimp only
  split <;> simp [State.setBank_other, State.blockGoto_other, h]
@[simp] theorem State.bretire_rows (s : State) (g len : Nat) : (s.bretire g len).rows = s.rows := by
  unfold State.bretire; dsimp only; split <;> simp
@[simp] theorem State.bretire_pend (s : State) (g len : Nat) : (s.bretire g len).pend = s.pend := by
  unfold State.bretire; dsimp only; split <;> simp

/-! ### Lane instructions (R142 to R149) -/

/-- While the lanes are busy, or a register it names is not free for it, the instruction waits. -/
theorem State.laneW_busy {s : State} {ws : List IWord} {g : Nat} {mk : Bank → LaneSpec}
    (h : s.cycle < (s.bank g).laneAt ∨ s.laneHeld g (mk (s.bank g)) = true) : s.laneW ws g mk = s.bstall g 1 := by
  rcases h with h | h <;> simp [State.laneW, h]
/-- A format or size that the instruction does not take is illegal. -/
theorem State.laneW_illegal {s : State} {ws : List IWord} {g : Nat} {mk : Bank → LaneSpec} (ht : (s.bank g).laneAt ≤ s.cycle)
    (hh : s.laneHeld g (mk (s.bank g)) = false) (h : (mk (s.bank g)).okFmt = false ∨ (mk (s.bank g)).okLim = false) :
    s.laneW ws g mk = s.bankTrap g .illegal (wordsVal ws) 0 := by
  have : ¬ s.cycle < (s.bank g).laneAt := by omega
  rcases h with h | h <;> simp [State.laneW, this, h, hh]
/-- A row operand that is opening makes the instruction wait. -/
theorem State.laneW_opening {s : State} {ws : List IWord} {g : Nat} {mk : Bank → LaneSpec} (hf : (mk (s.bank g)).okFmt = true)
    (hl : (mk (s.bank g)).okLim = true) (h : s.rowsChk g (mk (s.bank g)).regs = .wait) : s.laneW ws g mk = s.bstall g 1 := by
  simp [State.laneW, hf, hl, h]
/-- With every check passed, no poisoned word needed, the lane halves equal and room in the length queue, the results are written and the bank
goes on. -/
theorem State.laneW_done {s : State} {ws : List IWord} {g : Nat} {mk : Bank → LaneSpec} (ht : (s.bank g).laneAt ≤ s.cycle)
    (hh : s.laneHeld g (mk (s.bank g)) = false) (hf : (mk (s.bank g)).okFmt = true) (hl : (mk (s.bank g)).okLim = true)
    (h : s.rowsChk g (mk (s.bank g)).regs = .ok) (hp : (s.bank g).firstPoison (mk (s.bank g)).needs = none)
    (hm : (s.bank g).mismatch (mk (s.bank g)) = none) (hq : (mk (s.bank g)).out.push = none ∨ (s.bank g).lq.length < 16) :
    s.laneW ws g mk = s.laneEnd g (mk (s.bank g)) := by
  have ht' : ¬ s.cycle < (s.bank g).laneAt := by omega
  have hq' : ((mk (s.bank g)).out.push.isSome && decide (16 ≤ (s.bank g).lq.length)) = false := by
    rcases hq with hq | hq
    · simp [hq]
    · have : ¬ 16 ≤ (s.bank g).lq.length := by omega
      simp [this]
  simp [State.laneW, ht', hh, hf, hl, h, hp, hm, hq']

/-! ### Placing an entry (R131, R333) -/

/-- An entry that names no bank is not placed. -/
theorem State.place_none (s : State) (n : Nat) (op : RowOp) : s.place n op 0 0 0 = s := by simp [State.place]
/-- Otherwise the queue gains the entry at its end and the counter goes on. -/
theorem State.place_leader {s : State} (n : Nat) (op : RowOp) {banks commit strips : BitVec 32} (h : banks ||| commit ||| strips ≠ 0) :
    (s.place n op banks commit strips).leader n =
      { s.leader n with
        rowNum := (s.leader n).rowNum + 1
        rowq := (s.leader n).rowq ++ [{ num := (s.leader n).rowNum + 1, op := op, banks := banks, todo := banks ||| commit ||| strips,
                                        open_ := banks ||| commit ||| strips, commit := commit, sync := decide (commit = 0),
                                        strips := strips, pc := (s.leader n).pc }] } := by
  simp only [State.place, h]; simp
theorem State.place_other (s : State) (n : Nat) (op : RowOp) (banks commit strips : BitVec 32) {m : Nat} (h : m ≠ n) :
    (s.place n op banks commit strips).leader m = s.leader m := by
  unfold State.place; dsimp only; split
  · rfl
  · simp [State.setLeader_other, h]
@[simp] theorem State.place_rows (s : State) (n : Nat) (op : RowOp) (banks commit strips : BitVec 32) :
    (s.place n op banks commit strips).rows = s.rows := by
  unfold State.place; dsimp only; split <;> rfl
@[simp] theorem State.place_bank (s : State) (n : Nat) (op : RowOp) (banks commit strips : BitVec 32) :
    (s.place n op banks commit strips).bank = s.bank := by
  unfold State.place; dsimp only; split <;> rfl

end Sys2Proof.Machine
end

