-- ==== Sys2Proof/Laws/Encoding.lean ====
section
/-! SUPPORT. Reading a field back out of the words an encoding is joined from. -/
namespace Sys2Proof

/-- A field above the last part of a join lies in the rest of it. -/
theorem fld_append_hi {n m : Nat} (x : BitVec n) (y : BitVec m) (lo len : Nat) (h : m ≤ lo) :
    fld (x ++ y) lo len = fld x (lo - m) len := by
  unfold fld
  ext i hi
  simp only [BitVec.getElem_extractLsb', BitVec.getLsbD_append]
  rw [if_neg (by omega)]; congr 1; omega

/-- A field within the last part of a join is that part's field. -/
theorem fld_append_lo {n m : Nat} (x : BitVec n) (y : BitVec m) (lo len : Nat) (h : lo + len ≤ m) :
    fld (x ++ y) lo len = fld y lo len := by
  unfold fld
  ext i hi
  simp only [BitVec.getElem_extractLsb', BitVec.getLsbD_append]
  rw [if_pos (by omega)]

/-- The field that is the whole part. -/
theorem fld_all {n : Nat} (x : BitVec n) : fld x 0 n = x := by
  unfold fld; ext i hi; simp

/-- Placing a value in a word keeps its fields. -/
theorem fld_word {n : Nat} (x : BitVec n) (lo len : Nat) (h : lo + len ≤ 32) : fld (word x) lo len = fld x lo len := by
  unfold fld word; ext i hi
  simp only [BitVec.getElem_extractLsb', BitVec.getLsbD_setWidth]
  simp; omega

/-- A value is the join of its high and low fields. -/
theorem fld_join {n : Nat} (k : Nat) (x : BitVec (n + k)) : fld x k n ++ fld x 0 k = x := by
  apply BitVec.eq_of_getLsbD_eq
  intro i hi
  simp only [fld, BitVec.getLsbD_append, BitVec.getLsbD_extractLsb']
  split
  · next h => simp [h]
  · next h =>
    have h1 : i - k < n := by omega
    have h2 : k + (i - k) = i := by omega
    simp [h1, h2]

end Sys2Proof
end

