-- ==== Sys2Proof/Laws/Memory.lean ====
section
/-! SUPPORT. What the operations on row memory and on a scratch do: which bytes they write, that every other byte stays, that the
canonical form is kept, and which fields they leave alone. -/
namespace Sys2Proof.Machine

/-- A property that each step of a fold keeps holds at its end. -/
theorem foldl_keeps {α β : Type} {P : α → Prop} {f : α → β → α} (l : List β) (h : ∀ a, ∀ b ∈ l, P a → P (f a b)) :
    ∀ a, P a → P (l.foldl f a) := by
  induction l with
  | nil => exact fun _ h => h
  | cons b r ih => exact fun a ha => ih (fun a c hc => h a c (by simp [hc])) _ (h a b (by simp) ha)

/-! ### writeRows -/

@[simp] theorem State.writeRows_pend (s : State) (pa : Nat) (bs : List (BitVec 8)) : (s.writeRows pa bs).pend = s.pend := rfl
@[simp] theorem State.writeRows_amos (s : State) (pa : Nat) (bs : List (BitVec 8)) : (s.writeRows pa bs).amos = s.amos := rfl
@[simp] theorem State.writeRows_snaps (s : State) (pa : Nat) (bs : List (BitVec 8)) : (s.writeRows pa bs).snaps = s.snaps := rfl
@[simp] theorem State.writeRows_leaders (s : State) (pa : Nat) (bs : List (BitVec 8)) : (s.writeRows pa bs).leaders = s.leaders := rfl
@[simp] theorem State.writeRows_leader (s : State) (pa : Nat) (bs : List (BitVec 8)) : (s.writeRows pa bs).leader = s.leader := rfl
@[simp] theorem State.writeRows_bank (s : State) (pa : Nat) (bs : List (BitVec 8)) : (s.writeRows pa bs).bank = s.bank := rfl
@[simp] theorem State.writeRows_array (s : State) (pa : Nat) (bs : List (BitVec 8)) : (s.writeRows pa bs).array = s.array := rfl
@[simp] theorem State.writeRows_weights (s : State) (pa : Nat) (bs : List (BitVec 8)) : (s.writeRows pa bs).weights = s.weights := rfl
@[simp] theorem State.writeRows_hub (s : State) (pa : Nat) (bs : List (BitVec 8)) : (s.writeRows pa bs).hub = s.hub := rfl
@[simp] theorem State.writeRows_cur (s : State) (pa : Nat) (bs : List (BitVec 8)) : (s.writeRows pa bs).cur = s.cur := rfl

/-- A byte that a write covers is stored as written. -/
theorem State.writeRows_in (s : State) (pa k : Nat) (bs : List (BitVec 8)) (h : k < bs.length) :
    memByte (s.writeRows pa bs).rows (pa + k) = bs[k] := memByte_memPut_in bs _ pa k h
/-- Every byte of another word stays; in a word that is only partly covered an error may be corrected. -/
theorem State.writeRows_out (s : State) (pa a : Nat) (bs : List (BitVec 8)) (h : a / 8 * 8 + 8 ≤ pa ∨ pa + bs.length ≤ a / 8 * 8) :
    memByte (s.writeRows pa bs).rows a = memByte s.rows a := by
  unfold State.writeRows
  dsimp only
  rw [memByte_memPut_out bs _ pa a (by omega)]
  refine foldl_keeps (P := fun m : Mem => memByte m a = memByte s.rows a) _ (fun m e he hm => ?_) _ rfl
  rw [memByte_memPut_out _ _ _ _ ?_, hm]
  have hl : (leBytes 8 (s.rowWord e.1).1.toNat).length = 8 := by simp [leBytes]
  simp only [List.mem_filter, Bool.and_eq_true, decide_eq_true_eq] at he
  rw [hl]; omega
/-- A write keeps the canonical form of row memory. -/
theorem State.writeRows_wf {s : State} (pa : Nat) (bs : List (BitVec 8)) (h : Mem.wf s.rows = true) :
    Mem.wf (s.writeRows pa bs).rows = true := by
  unfold State.writeRows
  exact wf_memPut bs (foldl_keeps (P := fun m : Mem => Mem.wf m = true) _ (fun m e _ hm => wf_memPut _ hm) _ h)

/-! ### Poison marks and one published store -/

@[simp] theorem State.markPoison_rows (s : State) (w0 : Nat) (p : BitVec 1536) : (s.markPoison w0 p).rows = s.rows := by
  unfold State.markPoison
  split
  · rfl
  · refine foldl_keeps (P := fun t : State => t.rows = s.rows) _ (fun a k _ ha => ?_) s rfl
    split <;> exact ha
@[simp] theorem State.putStore_rows (s : State) (p : PStore) : (s.putStore p).rows = (s.writeRows p.pa p.data).rows := by
  simp [State.putStore]
theorem State.putStore_wf {s : State} (p : PStore) (h : Mem.wf s.rows = true) : Mem.wf (s.putStore p).rows = true := by
  rw [State.putStore_rows]; exact State.writeRows_wf _ _ h

/-! ### Publication -/

@[simp] theorem State.keepSnaps_rows (s : State) (t sc ho pa len : Nat) : (s.keepSnaps t sc ho pa len).rows = s.rows := by
  unfold State.keepSnaps
  refine foldl_keeps (P := fun u : State => u.rows = s.rows) _ (fun a e _ ha => ?_) s rfl
  dsimp only; split <;> exact ha

/-- Publication keeps the canonical form of row memory. -/
theorem State.publish_wf {s : State} (t : Nat) (sel : PStore → Bool) (selA : AmoCopy → Bool) (h : Mem.wf s.rows = true) :
    Mem.wf (s.publish t sel selA).rows = true := by
  unfold State.publish
  dsimp only
  refine foldl_keeps (P := fun u : State => Mem.wf u.rows = true) _ (fun a p _ ha => State.putStore_wf p ha) _ ?_
  refine foldl_keeps (P := fun u : State => Mem.wf u.rows = true) _ (fun a p _ ha => State.writeRows_wf _ _ ha) _ ?_
  refine foldl_keeps (P := fun u : State => Mem.wf u.rows = true) _ (fun a p _ ha => ?_) _ ?_
  · split
    · simpa using ha
    · exact ha
  · exact foldl_keeps (P := fun u : State => Mem.wf u.rows = true) _ (fun a p _ ha => by simpa using ha) _ h

/-- A publication that selects nothing writes no byte. -/
theorem State.publish_nothing (s : State) (t : Nat) : (s.publish t (fun _ => false) (fun _ => false)).rows = s.rows := by
  have h1 : s.pend.filter (fun _ => false) = [] := List.filter_eq_nil_iff.mpr (by simp)
  have h2 : s.amos.filter (fun _ => false) = [] := List.filter_eq_nil_iff.mpr (by simp)
  simp [State.publish, publishOrder, h1, h2]

@[simp] theorem State.endPhase_rows (s : State) (t : Nat) (cov : Nat → Nat → Bool) : (s.endPhase t cov).rows = s.rows := rfl
@[simp] theorem State.endPhase_pend (s : State) (t : Nat) (cov : Nat → Nat → Bool) : (s.endPhase t cov).pend = s.pend := rfl

/-! ### Stores -/

/-- A store keeps the canonical form, whether it is performed or held. -/
theorem State.storeRow_wf {s : State} (n : Nat) (q : Seq) (pa cls scope home : Nat) (bs : List (BitVec 8)) (h : Mem.wf s.rows = true) :
    Mem.wf (s.storeRow n q pa cls scope home bs).rows = true := by
  unfold State.storeRow
  dsimp only
  repeat' split
  all_goals first
    | exact State.writeRows_wf _ _ (by simpa using h)
    | simpa using h

@[simp] theorem State.storeScratch_rows (s : State) (n off : Nat) (bs : List (BitVec 8)) : (s.storeScratch n off bs).rows = s.rows := rfl
@[simp] theorem State.storeScratch_scratch (s : State) (n off : Nat) (bs : List (BitVec 8)) :
    ((s.storeScratch n off bs).leader n).scratch = memPut (s.leader n).scratch off bs := by simp [State.storeScratch]
theorem State.storeScratch_other (s : State) (n off : Nat) (bs : List (BitVec 8)) {m : Nat} (h : m ≠ n) :
    (s.storeScratch n off bs).leader m = s.leader m := by simp [State.storeScratch, State.setLeader_other, h]

/-- Releasing a strip store buffer keeps the canonical form. -/
theorem State.releaseStrip_wf {s : State} (n : Nat) (h : Mem.wf s.rows = true) : Mem.wf (s.releaseStrip n).rows = true := by
  unfold State.releaseStrip
  dsimp only
  exact foldl_keeps (P := fun u : State => Mem.wf u.rows = true) _ (fun a e _ ha => by simpa using ha) _
    (foldl_keeps (P := fun u : State => Mem.wf u.rows = true) _ (fun a p _ ha => State.writeRows_wf _ _ (by simpa using ha)) _ h)

/-! ### The tables of the machine -/

theorem State.setLeader_twf {s : State} (n : Nat) (l : Leader) (h : twf Leader.reset s.leaders = true) :
    twf Leader.reset (s.setLeader n l).leaders = true := twf_tput n l h

end Sys2Proof.Machine
end

