-- ==== Sys2Proof/Tests/Slice0.lean ====
section
/-! SUPPORT. Tests: ill-formed terms that `wf` refuses, words written out from the spec's encodings with the instructions they stand for,
single steps on small states with results worked out by hand from the spec, and, for every statement with hypotheses, states and operands
that meet them, at the ends of their ranges. -/
namespace Sys2Proof.Tests

set_option Elab.async false

open Sys2Proof Sys2Proof.Machine Sys2Proof.Claims

/-! ### Small states -/

/-- A thread of context 0 with no task, at PC 0. -/
def thr : Leader := { Leader.reset with bind := some bareBinding, run := true }
/-- Rope 0 runs that leader and issues next. -/
def at0 (l : Leader) : State := { State.reset with leaders := [(0, l)] }
/-- Bank 0 of that rope issues next. -/
def atB (b : Bank) : State := { at0 thr with cur := .bank 0, banks := [(0, b)] }
/-- A region entry over the first rows of slot 0 of bank 0, at virtual address 0, of this class, with R, W and A. -/
def reg (cls a : Nat) : Region where
  idx := 0
  dw0 := BitVec.ofNat 64 (2 ^ 63 + cls * 2 ^ 60 + (if cls = 0 then 0 else 5) * 2 ^ 57 + 3 * 2 ^ 53 + a * 2 ^ 52)
  dw1 := 98304
  dw2 := BitVec.ofNat 64 (1024 * 2 ^ 27)
  dw3 := 0
/-- A thread with x6 and x7, and a region in its TLB. -/
def thx (u v : Word) : Leader := { thr with x := [(6, u), (7, v)] }
def thm (cls : Nat) (u v : Word) : Leader := { thx u v with tlb := [reg cls 1] }
/-- In context 1, which is LIVE under incarnation 1. -/
def inC1 (l : Leader) : State :=
  { at0 { l with bind := some { bareBinding with ctx := 1, inn := 1 } } with ctxs := [(0, { Ctx.reset with st := 1 }), (1, { Ctx.reset with st := 1, inn := 1 })] }


/-! ### Decoding: words written out in the spec, and the instructions they stand for -/

noncomputable def dto (ws : List IWord) (i : Instr) : Bool := match decode ws with
  | .ok (j, []) => decide (j = i)
  | _ => false
noncomputable def dto1 (l : List (IWord × Instr)) : Bool := l.all fun e => dto [e.1] e.2
theorem test_decode_integer : dto1 [(0x04A63800, .add 5 6 7), (0x0863FFFF, .addi 3 3 0xFFFF), (0x2D06C107, .bfxu 8 6 4 7), (0x26000010, .movhi 16 0x10),
    (0x12940100, .ori 20 20 0x100), (0x214A0024, .slli 10 10 36)] = true := by decide +kernel
theorem test_decode_ext : dto [0xFC001234, 0x08605678] (.addiExt 3 0 0x12345678) = true := by decide +kernel
theorem test_decode_control : dto1 [(0x64050003, .loop 5 3), (0x60004005, .callg 5), (0x60008000, .retg), (0x60010000, .jalr 0 1 0), (0x68A00005, .csrr 5 5),
    (0x6800802A, .syscall 0x2A), (0x68009000, .tret), (0x6800A000, .wfe), (0x6800B000, .halt), (0x6800C001, .bkpt 1)] = true := by decide +kernel
theorem test_decode_memory : dto1 [(0x30824002, .ld 4 2 2 0 2), (0x34C26002, .st 6 2 3 0 2), (0x38A70080, .lda 5 7 0), (0x380731C0, .sta 7 6 1), (0x38A732C0, .amo 5 7 6 1 0),
    (0x38A733C0, .cas 5 7 6 1), (0x3C090802, .pfl 9 1 2), (0x3C290000, .cflush 9 0), (0x3C490000, .cdiscard 9 0)] = true := by decide +kernel
theorem test_decode_rope : dto1 [(0x70000040, .belay 2), (0x70A60180, .belayRed 5 6 4 0), (0x70000260, .publish 3), (0x70063B00, .cairn 6 7), (0x70A60D00, .launch 5 6 1),
    (0x74080000, .vf 8), (0x74A63900, .setvl 5 6 7 0), (0x74A63A01, .setvlC 5 6 7 1), (0x74063B00, .setvlQ 6 7 0), (0x752A0403, .vrd 9 10 3), (0x740A5D02, .vwr 10 11 2),
    (0x740C0600, .bmask 0 12)] = true := by decide +kernel
theorem test_decode_rows : dto1 [(0x81800008, .act 3 1), (0x80000090, .actw 0 2), (0x81800100, .wb 3), (0x82000180, .pre 4), (0x81800200, .pred 3), (0x82800280, .ref 5),
    (0x81100318, .rowcpy 2 1 3), (0x830003A0, .rowfill 6 4)] = true := by decide +kernel
theorem test_decode_lanes : dto1 [(0x85024800, .vadd 2 0 1 1 1), (0x850004C0, .vaddScalar 2 0 0 0 3), (0x84A61005, .vmac 1 2 3 0 2), (0x8D02F003, .vfma 2 0 1 3 6),
    (0x8A800C86, .vwmacuScalar 5 0 0 1 2), (0x8B500CC8, .vnclipuScalar 6 5 0 1 3), (0x91940007, .pandn 3 1 2 0), (0x91101D18, .vcmpScalar 2 1 0 3 4 3),
    (0x99109803, .vcompress 2 1 2 3), (0x94201D45, .vpopcQ 2 0 3 5), (0x98803480, .vslideup 1 0 0 6 1 2), (0x99203104, .vshuf 2 2 0 6 4), (0x9D901A80, .vcvt 3 1 0 3 10)] = true := by
  decide +kernel
theorem test_decode_vmem : dto1 [(0xA1001860, .vld 2 0 3 0 0 3 0), (0xA1000061, .vst 2 0 0 0 0 3 0), (0xA2029CA2, .vldx 4 1 2 3 1 0 5 0), (0xA0040044, .vldseg 0 2 0 0 0 0 2 0),
    (0xA1D25886, .vldxPeer 3 5 1 1 3 0 0 4)] = true := by decide +kernel
theorem test_decode_bank : dto1 [(0xA4D14008, .ymul 3 4 5), (0xA4841810, .vext 2 1 3), (0xA4145811, .vins 5 1 3), (0xA8443FFF, .yaddi 1 1 0x3FFF), (0xA8804005, .ymovi 2 5),
    (0xAC4487FD, .yb 1 1 2 0x7FD), (0xAC080803, .yloop 2 3), (0xAC101000, .tfetch 4), (0xAC001800, .stop)] = true := by decide +kernel
theorem test_decode_engines : dto1 [(0xC052C008, .mlds 0 10 11 1), (0xC252D801, .mstr 2 10 11 12 0 0), (0xC1280002, .mzero 1 5), (0xC1A56C1B, .mdrain 1 20 21 22 0 0 1 1),
    (0xC331C004, .macld 3 6 7), (0xC331C005, .macst 3 6 7), (0xC4800000, .mtile 0 16), (0xC4800001, .mtileAs 0 16), (0xC8280000, .copy 0 10 0),
    (0xC8AA1031, .copym 1 10 16 2 0 0 0 6), (0xC9000002, .cancel 2), (0xCC07FFC0, .wait 1 15 15 15 0), (0xD1296000, .stage 2 10 11), (0xD1D00001, .consign 3 20)] = true := by decide +kernel
theorem test_decode_system : dto1 [(0x6CE60000, .reclaim 7 6), (0x6CA61000, .kill 5 6), (0x6CA92000, .rgninv 5 9), (0x6C0A3003, .diagst 0 10 3), (0x6CE64000, .diagld 7 6 0),
    (0x6CE64001, .diagld 7 6 1), (0x6CAA5000, .savectx 5 10), (0x6C0A6000, .loadctx 10)] = true := by decide +kernel
/-- EXT before a word that takes none, EXT alone, a reserved major and a CSRR whose xa is not zero are refused (R50, R54, R118, R229). -/
theorem test_decode_refuses : [[0xFC000001, 0x04A63800], [0xFC001234], [0x00000000], [0x68A10005], [0xFC000001, 0x81800100]].all (fun ws => match decode ws with | .ok _ => false | .error _ => true) = true := by
  decide +kernel

/-! ### Well-formedness: each check refuses an ill-formed term -/

theorem test_wf_refuses_leader : ([.sext 1 1 3, .zext 1 1 3, .bfx 1 1 63 1, .bfxu 1 1 1 63, .bfi 1 1 32 32, .ld 1 1 7 0 0, .ldExt 1 1 7 0 0, .st 1 1 4 0 0, .stExt 1 1 4 0 0,
    .amo 1 1 1 0 10, .amo 1 1 1 1 9, .pfl 1 2 0, .pflExt 1 2 0, .loop 1 0, .csrr 1 8, .csrw 1 1 8, .csrs 1 1 0x111, .csrc 1 1 0xFFF, .belay 6, .belayRed 1 1 6 0, .belayRed 1 1 0 9,
    .publish 6, .launch 1 1 8, .vrd 1 1 16, .vrd 1 1 0x89, .vwr 1 1 0, .vwr 1 1 16] : List Instr).all (fun i => !i.wf) = true := by decide
theorem test_wf_refuses_bank : ([.rowfill 0 15, .vadd 0 0 0 0 4, .vaddScalar 0 0 0 7 0, .viota 0 0 5, .vnclip 0 0 0 0 6, .vfadd 0 0 0 0 1, .vfmaScalar 0 0 0 3 0, .vfexp2 0 0 0 7,
    .vfrece 0 0 0 1, .vcmp 1 0 0 0 0 6, .vcmp 0 0 0 0 0 0, .vcmpScalar 1 0 0 4 0 0, .vfcmp 1 0 0 0 0 7, .vfcmpScalar 0 0 0 0 0 0, .pand 0 1 1 0, .por 0 1 1 0, .pxor 0 1 1 0, .pandn 0 1 1 0,
    .vredsum 0 0 4 0, .vfredsum 0 0 2 0, .vslideup 1 0 0 0 1 15, .vslidedn 1 0 0 0 1 15, .vcvt 0 0 0 0 12, .vpackmx 1 0 2 0 0 11, .vpackmx 1 0 2 0 0 18, .vpackmx 1 0 1 0 0 12,
    .vpackmx 1 0 2 0 7 12, .vunpackmx 0 0 1 0 7, .vbpisplit 1 0 2 0 0 18, .vbpisplit 1 0 1 0 0 19, .vbpijoin 0 0 1 0 12, .vldseg 0 0 0 0 0 0 0 0, .vstseg 0 0 0 0 0 0 0 0,
    .vldxPeer 0 0 0 0 0 0 0 0, .vstxPeer 0 0 0 0 0 0 0 0, .yb 6 0 0 0, .yloop 0 0, .ycsr 0 9] : List Instr).all (fun i => !i.wf) = true := by decide
theorem test_wf_refuses_engines : ([.mtile 0 0, .mtile 0 27, .mtileAs 0 27, .copy 0 0 0, .copy 0 27 0, .copy 0 1 7, .copym 0 27 1 0 0 0 0 0, .copym 0 1 30 0 0 0 0 0, .copym 0 1 27 0 1 0 0 0,
    .copym 0 1 1 0 1 0 1 0, .copym 0 1 1 0 0 0 0 7, .consign 0 0, .consign 0 30] : List Instr).all (fun i => !i.wf) = true := by decide
/-! ### Witnesses: leader instructions -/

theorem witness_IntegerResults : (∃ P, Instr.wf (.add 5 6 7) = true ∧ leaderOp ((at0 (thx 0xFFFFFFFFFFFFFFFF 1)).leader 0).xr (.add 5 6 7) = some (5, [6, 7], 4, P) ∧
      Ready (at0 (thx 0xFFFFFFFFFFFFFFFF 1)) 0 [6, 7]) ∧
    ∃ P, Instr.wf (.bfi 0 6 63 0) = true ∧ leaderOp ((at0 (thx 0 1)).leader 0).xr (.bfi 0 6 63 0) = some (0, [6, 0], 4, P) ∧ Ready (at0 (thx 0 1)) 0 [6, 0] :=
  ⟨⟨_, rfl, rfl, by simp only [Ready]; decide +kernel⟩, _, rfl, rfl, by simp only [Ready]; decide +kernel⟩
theorem witness_Transfers_branch :
    (∃ C, branchOp (.bltu 6 7 0x7FFF) = some (6, 7, 32767, 4, C) ∧ Ready (at0 (thx 0 1)) 0 [6, 7] ∧ C ((at0 (thx 0 1)).xr 0 6) ((at0 (thx 0 1)).xr 0 7)) ∧
    ∃ C, branchOp (.bge 6 7 0x8000) = some (6, 7, -32768, 4, C) ∧ Ready (at0 (thx 0xFFFFFFFFFFFFFFFF 0)) 0 [6, 7] ∧
      ¬ C ((at0 (thx 0xFFFFFFFFFFFFFFFF 0)).xr 0 6) ((at0 (thx 0xFFFFFFFFFFFFFFFF 0)).xr 0 7) :=
  ⟨⟨_, rfl, by simp only [Ready]; decide +kernel, by decide +kernel⟩, _, rfl, by simp only [Ready]; decide +kernel, by decide +kernel⟩
theorem witness_Transfers_jump :
    jumpOp ((at0 (thx 0xFFFFFFFFFFFFFFF8 0)).leader 0) (.jalr 1 6 2) = some (0, some (1, 4), [6]) ∧ Ready (at0 (thx 0xFFFFFFFFFFFFFFF8 0)) 0 [6] ∧
    jumpOp ((at0 thr).leader 0) (.j 0x3FFFFFF) = some (0xFFFFFFFFFFFFFFFC, none, []) ∧ Ready (at0 thr) 0 [] :=
  ⟨rfl, by simp only [Ready]; decide +kernel, rfl, by simp only [Ready]; decide +kernel⟩
theorem witness_LoopsAndGates_loop :
    (let s := at0 { thx 1 0 with pc := 0x3FFF8, loops := List.replicate 5 { start := 0, last := 64, count := 2 } }
     Instr.wf (.loop 6 1) = true ∧ Ready s 0 [6] ∧ (s.leader 0).pc.toNat + 4 * (1#16).toNat < 0x40000 ∧
       ¬ endsNoLoop (tget 0 (s.leader 0).imem (((s.leader 0).pc.toNat + 4 * (1#16).toNat) / 4)) ∧ (s.leader 0).loops.length < 6) ∧
    (let s := at0 { thr with loops := [{ start := 4, last := 8, count := 1 }] }
     s.cur = .leader 0 ∧ (s.leader 0).loops = [{ start := 4, last := 8, count := 1 }]) := by
  simp only [Ready, endsNoLoop]; decide +kernel
theorem witness_LoopsAndGates_gate :
    (let s := at0 { thr with level := 1, gateStore := [(255, BitVec.ofNat 64 (2 ^ 63 + 2 ^ 19 + 0x40000))], gates := List.replicate 7 { pc := 0, level := 0, mm := false } }
     let g := (tget 0 (s.leader 0).gateStore 255).toNat
     s.cur = .leader 0 ∧ g / 2 ^ 63 = 1 ∧ (s.leader 0).level.toNat ≤ g / 2 ^ 19 % 4 ∧ (s.leader 0).gates.length < 8 ∧ g % 4 = 0) ∧
    (let s := at0 { thr with gates := [{ pc := 0, level := 0, mm := false }] }
     s.cur = .leader 0 ∧ (s.leader 0).gates = [{ pc := 0, level := 0, mm := false }]) := by decide +kernel
theorem witness_LeaderRefusals_jump_loop :
    (jumpOp ((at0 (thx 2 0)).leader 0) (.jalr 1 6 0) = some (2, some (1, 4), [6]) ∧ (∀ o, Instr.jalr 1 6 0 ≠ .jal o) ∧ (∀ o, Instr.jalr 1 6 0 ≠ .jalExt o) ∧
      Ready (at0 (thx 2 0)) 0 [6] ∧ Free (at0 (thx 2 0)) 0 ∧ (2#64).toNat % 4 ≠ 0) ∧
    (let s := at0 { thr with pc := 0x3FFFC }
     Instr.wf (.loop 6 1) = true ∧ Ready s 0 [6] ∧ Free s 0 ∧ 0x40000 ≤ (s.leader 0).pc.toNat + 4 * (1#16).toNat) ∧
    (let s := at0 { thr with imem := [(1, 0x64200000)] }
     Ready s 0 [6] ∧ Free s 0 ∧ endsNoLoop (tget 0 (s.leader 0).imem (((s.leader 0).pc.toNat + 4 * (1#16).toNat) / 4))) ∧
    (let s := at0 { thr with loops := List.replicate 6 { start := 0, last := 64, count := 2 } }
     Ready s 0 [6] ∧ Free s 0 ∧ 6 ≤ (s.leader 0).loops.length) ∧
    (at0 thr).cur = .leader 0 ∧ Free (at0 thr) 0 ∧ ((at0 thr).leader 0).loops = [] :=
  ⟨⟨rfl, by simp, by simp, by simp only [Ready]; decide +kernel, by simp only [Free]; decide +kernel, by decide⟩, by
    simp only [Ready, Free, endsNoLoop]; decide +kernel⟩
theorem witness_LeaderRefusals_gate :
    (Free (at0 thr) 0 ∧ (tget 0 ((at0 thr).leader 0).gateStore 5).toNat / 2 ^ 63 = 0) ∧
    (let s := at0 { thr with level := 2, gateStore := [(5, BitVec.ofNat 64 (2 ^ 63 + 2 ^ 19))] }
     let g := (tget 0 (s.leader 0).gateStore 5).toNat
     Free s 0 ∧ g / 2 ^ 63 = 1 ∧ g / 2 ^ 19 % 4 < (s.leader 0).level.toNat) ∧
    (let s := at0 { thr with gateStore := [(5, BitVec.ofNat 64 (2 ^ 63))], gates := List.replicate 8 { pc := 0, level := 0, mm := false } }
     let g := (tget 0 (s.leader 0).gateStore 5).toNat
     Free s 0 ∧ g / 2 ^ 63 = 1 ∧ (s.leader 0).level.toNat ≤ g / 2 ^ 19 % 4 ∧ 8 ≤ (s.leader 0).gates.length) ∧
    (let s := at0 { thr with gateStore := [(5, BitVec.ofNat 64 (2 ^ 63 + 2))], gates := List.replicate 7 { pc := 0, level := 0, mm := false } }
     let g := (tget 0 (s.leader 0).gateStore 5).toNat
     Free s 0 ∧ g / 2 ^ 63 = 1 ∧ (s.leader 0).level.toNat ≤ g / 2 ^ 19 % 4 ∧ (s.leader 0).gates.length < 8 ∧ g % 4 ≠ 0) ∧
    (at0 thr).cur = .leader 0 ∧ ((at0 thr).leader 0).gates = [] := by simp only [Free]; decide +kernel
/-- A CSR instruction's hypotheses, for CSR `c` whose row is `row`. -/
def CsrCase (i : Instr) (s : State) (c d a : Nat) (row : Nat × Nat × Nat) (P : Prop → Word → Prop) : Prop :=
  ∃ w v, i.wf = true ∧ csrOp (s.leader 0).xr (s.csrRead 0) i = some (c, d, a, w, v) ∧ csrRow c = some row ∧ Ready s 0 [a] ∧ Free s 0 ∧ P w v
theorem witness_LeaderRefusals_csr :
    CsrCase (.csrr 5 0x100) (at0 thr) 0x100 5 0 (2, 2, 2 ^ 13 - 1) (fun _ _ => ((at0 thr).leader 0).level.toNat < 2) ∧
    CsrCase (.csrw 0 6 0x020) (at0 { thx 1 0 with level := 1 }) 0x020 0 6 (0, 2, 2 ^ 64 - 1) (fun w _ => w ∧ ((at0 { thx 1 0 with level := 1 }).leader 0).level.toNat < 2) ∧
    CsrCase (.csrs 0 6 0x004) (at0 (thx 5 0)) 0x004 0 6 (0, 0, 2 ^ 3 - 1) (fun w v => w ∧ csrRefused 0x004 v) ∧
    CsrCase (.csrw 0 6 0x104) (at0 { thx 3 0 with level := 2 }) 0x104 0 6 (2, 2, 2 ^ 8 + 7) (fun w v => w ∧ csrRefused 0x104 v) := by
  refine ⟨⟨_, _, rfl, rfl, rfl, ?_, ?_, ?_⟩, ⟨_, _, rfl, rfl, rfl, ?_, ?_, ?_⟩, ⟨_, _, rfl, rfl, rfl, ?_, ?_, ?_⟩, ⟨_, _, rfl, rfl, rfl, ?_, ?_, ?_⟩⟩ <;>
    simp only [Ready, Free, csrRefused] <;> decide +kernel
theorem witness_CsrAccess :
    CsrCase (.csrr 5 0x000) (at0 thr) 0x000 5 0 (0, 3, 0) (fun w _ => w → False) ∧
    CsrCase (.csrw 5 6 0x052) (at0 { thx 9 0 with level := 2 }) 0x052 5 6 (0, 2, 2 ^ 64 - 1) (fun w v => w ∧ ¬ csrRefused 0x052 v) ∧
    CsrCase (.csrc 5 6 0x025) (at0 { thx 1 0 with level := 2 }) 0x025 5 6 (0, 2, 0) (fun w v => w ∧ ¬ csrRefused 0x025 v) ∧
    CsrCase (.csrs 5 6 0x004) (at0 (thx 4 0)) 0x004 5 6 (0, 0, 2 ^ 3 - 1) (fun w v => w ∧ ¬ csrRefused 0x004 v) := by
  refine ⟨⟨_, _, rfl, rfl, rfl, ?_, ?_, ?_⟩, ⟨_, _, rfl, rfl, rfl, ?_, ?_, ?_⟩, ⟨_, _, rfl, rfl, rfl, ?_, ?_, ?_⟩, ⟨_, _, rfl, rfl, rfl, ?_, ?_, ?_⟩⟩ <;>
    simp only [Ready, Free, csrRefused] <;> decide +kernel
theorem witness_TrapsAndReturns :
    ((at0 thr).cur = .leader 0 ∧ Free (at0 thr) 0) ∧
    (let s := inC1 { thr with csr := { Csrs.reset with tstate := 256 } }
     s.cur = .leader 0 ∧ (s.leader 0).csr.tstate.getLsbD 8 = true ∧ (s.leader 0).ctxOf ≠ 0 ∧ (s.ctx (s.leader 0).ctxOf).st = 1 ∧
       (s.ctx (s.leader 0).ctxOf).inn = (s.leader 0).innOf) ∧
    (let s := at0 { thr with level := 2, csr := { Csrs.reset with tstate := 256 } }
     s.cur = .leader 0 ∧ (s.leader 0).level = 2 ∧ (s.leader 0).csr.tstate.getLsbD 8 = true ∧ (s.leader 0).csr.tcause.toNat % 256 ≠ 0x14) ∧
    (let s := at0 { thr with level := 1 }
     s.cur = .leader 0 ∧ (s.leader 0).level.toNat < 2 ∧ Free s 0) ∧
    (let s := at0 { thr with level := 2 }
     s.cur = .leader 0 ∧ (s.leader 0).level = 2 ∧ Free s 0) ∧
    (at0 thr).cur = .leader 0 ∧ ((at0 thr).leader 0).level = 0 ∧ Free (at0 thr) 0 := by simp only [Free]; decide +kernel

/-! ### Witnesses: accesses -/

/-- An answer that succeeds, as a decidable question. -/
def goesTo {α β : Type} [DecidableEq β] (r : Except α β) (t : β) : Bool := match r with | .ok u => decide (u = t) | .error _ => false
theorem goesTo_eq {α β : Type} [DecidableEq β] {r : Except α β} {t : β} (h : goesTo r t = true) : r = .ok t := by
  cases r with
  | error e => simp [goesTo] at h
  | ok u => simpa [goesTo] using h
/-- The region's bounds in the witnesses: the last doubleword of the region and of scratch. -/
def lastDw : Word := 12582904
def lastScratch : Word := 0xFFFFFFFFFFFF8
def row0 (cls pa : Nat) : Target := .row pa cls 5 0
theorem witness_LoadsAndStores_load :
    (∃ sg, Instr.wf (.ld 5 6 3 0 0) = true ∧ loadOp ((at0 (thx lastScratch 0)).leader 0).xr (.ld 5 6 3 0 0) = some (5, 6, 8, sg, lastScratch.toNat, 4) ∧
      Ready (at0 (thx lastScratch 0)) 0 [6] ∧ (at0 (thx lastScratch 0)).heldByBanks 0 = false ∧
      (at0 (thx lastScratch 0)).translate 0 (.leader 0) lastScratch.toNat 8 (loadKind 8) = .ok (.scratch 0x7FFF8)) ∧
    ∃ sg, Instr.wf (.ld 5 6 3 0 0) = true ∧ loadOp ((at0 (thm 1 lastDw 0)).leader 0).xr (.ld 5 6 3 0 0) = some (5, 6, 8, sg, lastDw.toNat, 4) ∧
      Ready (at0 (thm 1 lastDw 0)) 0 [6] ∧ (at0 (thm 1 lastDw 0)).heldByBanks 0 = false ∧
      (at0 (thm 1 lastDw 0)).translate 0 (.leader 0) lastDw.toNat 8 (loadKind 8) = .ok (row0 1 12582904) ∧ Near (row0 1 12582904) ∧
      (at0 (thm 1 lastDw 0)).outstanding 0 ReqOp.isLoad < 15 :=
  ⟨⟨_, rfl, rfl, by simp only [Ready]; decide +kernel, by decide +kernel, goesTo_eq (by decide +kernel)⟩,
   _, rfl, rfl, by simp only [Ready]; decide +kernel, by decide +kernel, goesTo_eq (by decide +kernel), trivial, by decide +kernel⟩
theorem witness_LoadsAndStores_store :
    let i := Instr.st 7 6 3 0 0
    (let s := at0 (thx 0xFFFFFFFFFFAF8 1)
     i.wf = true ∧ storeOp (s.leader 0).xr i = some (7, 6, 8, 0xFFFFFFFFFFAF8, 4) ∧ Ready s 0 [6, 7] ∧ s.heldByBanks 0 = false ∧
       s.translate 0 (.leader 0) 0xFFFFFFFFFFAF8 8 (storeKind 8) = .ok (.scratch 0x7FAF8) ∧ 0x7FAF8 + 8 ≤ 0x7FB00) ∧
    (let s := at0 (thm 2 lastDw 1)
     storeOp (s.leader 0).xr i = some (7, 6, 8, lastDw.toNat, 4) ∧ Ready s 0 [6, 7] ∧ s.heldByBanks 0 = false ∧
       s.translate 0 (.leader 0) lastDw.toNat 8 (storeKind 8) = .ok (row0 2 12582904)) ∧
    (let s := at0 (thm 3 lastDw 1)
     storeOp (s.leader 0).xr i = some (7, 6, 8, lastDw.toNat, 4) ∧ Ready s 0 [6, 7] ∧ s.heldByBanks 0 = false ∧
       s.translate 0 (.leader 0) lastDw.toNat 8 (storeKind 8) = .ok (row0 3 12582904) ∧ s.outstanding 0 ReqOp.isStore < 15) := by
  refine ⟨⟨rfl, rfl, ?_, ?_, goesTo_eq ?_, ?_⟩, ⟨rfl, ?_, ?_, goesTo_eq ?_⟩, rfl, ?_, ?_, goesTo_eq ?_, ?_⟩ <;>
    first | decide +kernel | (simp only [Ready]; decide +kernel)
theorem witness_AtomicIssues :
    (∃ ak op, Instr.wf (.amo 5 6 7 1 0) = true ∧ atomOp ((at0 (thx 0xFFFFFFFFFFAF8 1)).leader 0).xr (.amo 5 6 7 1 0) = some (5, [6, 7], 0xFFFFFFFFFFAF8, 8, ak, op) ∧
      Ready (at0 (thx 0xFFFFFFFFFFAF8 1)) 0 [6, 7] ∧ (at0 (thx 0xFFFFFFFFFFAF8 1)).heldByBanks 0 = false ∧
      (at0 (thx 0xFFFFFFFFFFAF8 1)).translate 0 (.leader 0) 0xFFFFFFFFFFAF8 8 (atomKind ak 8) = .ok (.scratch 0x7FAF8) ∧ noAtomic (at0 (thx 0xFFFFFFFFFFAF8 1)) 0) ∧
    (∃ ak op, atomOp ((at0 (thm 1 lastDw 1)).leader 0).xr (.sta 6 7 1) = some (0, [6, 7], lastDw.toNat, 8, ak, op) ∧ Ready (at0 (thm 1 lastDw 1)) 0 [6, 7] ∧
      (at0 (thm 1 lastDw 1)).heldByBanks 0 = false ∧
      (at0 (thm 1 lastDw 1)).translate 0 (.leader 0) lastDw.toNat 8 (atomKind ak 8) = .ok (row0 1 12582904) ∧ noAtomic (at0 (thm 1 lastDw 1)) 0) ∧
    ∃ ak op, atomOp ((at0 (thm 3 lastDw 1)).leader 0).xr (.cas 5 6 7 1) = some (5, [6, 7, 5], lastDw.toNat, 8, ak, op) ∧ Ready (at0 (thm 3 lastDw 1)) 0 [6, 7, 5] ∧
      (at0 (thm 3 lastDw 1)).heldByBanks 0 = false ∧
      (at0 (thm 3 lastDw 1)).translate 0 (.leader 0) lastDw.toNat 8 (atomKind ak 8) = .ok (row0 3 12582904) ∧ noAtomic (at0 (thm 3 lastDw 1)) 0 := by
  refine ⟨⟨_, _, rfl, rfl, ?_, ?_, goesTo_eq ?_, ?_⟩, ⟨_, _, rfl, ?_, ?_, goesTo_eq ?_, ?_⟩, _, _, rfl, ?_, ?_, goesTo_eq ?_, ?_⟩ <;>
    first | decide +kernel | (simp only [Ready]; decide +kernel) | exact fun r hr => absurd (show r ∈ ([] : List Req) from hr) (by simp)
/-- A request of leader 0 for x5. -/
def rq (op : ReqOp) (t : Target) (done : Bool) : Req :=
  { id := 1, leader := 0, ctx := 0, inn := 0, task := 0, d := 5, op := op, va := 0, len := 8, tgt := t, done := done, val := 7, poison := false, hint := 0, born := 0 }
def withReq (s : State) (r : Req) : State := { s with reqs := [r], reqNum := 2 }
theorem witness_RequestsPerformed :
    (let r := rq (.amo 0 1) (row0 3 0) false
     let s := withReq (at0 { thr with xPend := [(5, 1)] }) r
     s.req? r.id = some r ∧ r.tgt = .row 0 3 5 0 ∧ s.live r.ctx r.inn = true ∧ r.miss = false ∧ r.done = false ∧ s.olderSameWord r = false ∧ r.len ≤ 8) ∧
    (let r := rq (.load true) (row0 3 0) true
     let s := withReq (at0 { thr with xPend := [(5, 1)] }) r
     s.req? r.id = some r ∧ r.tgt = .row 0 3 5 0 ∧ r.done = true ∧ r.miss = false ∧ r.op ≠ .fill ∧ r.op ≠ .diag ∧ r.len ≤ 8 ∧ r.d ≠ 0 ∧ tget 0 (s.leader r.leader).xPend r.d = r.id) := by
  decide +kernel
theorem witness_TrappedAccesses :
    (∃ sg, Instr.wf (.ld 5 6 3 0 0) = true ∧ loadOp ((at0 (thx 4 0)).leader 0).xr (.ld 5 6 3 0 0) = some (5, 6, 8, sg, 4, 4) ∧ Ready (at0 (thx 4 0)) 0 [6] ∧
      (at0 (thx 4 0)).translate 0 (.leader 0) 4 8 (loadKind 8) = .error .misaligned ∧ (at0 (thx 4 0)).heldByBanks 0 = false ∧ Free (at0 (thx 4 0)) 0) ∧
    (storeOp ((at0 (thx 0 0)).leader 0).xr (.st 7 6 3 0 0) = some (7, 6, 8, 0, 4) ∧ Ready (at0 (thx 0 0)) 0 [6, 7] ∧
      (at0 (thx 0 0)).translate 0 (.leader 0) 0 8 (storeKind 8) = .error .regionMiss) ∧
    (∃ ak op, atomOp ((at0 (thx 0x10000000000000 0)).leader 0).xr (.lda 5 6 0) = some (5, [6], 0x10000000000000, 4, ak, op) ∧ Ready (at0 (thx 0x10000000000000 0)) 0 [6] ∧
      (at0 (thx 0x10000000000000 0)).translate 0 (.leader 0) 0x10000000000000 4 (atomKind ak 4) = .error .regionMiss) ∧
    (2 ^ 52 % (loadKind 8).align = 0 ∧ 2 ^ 52 ≤ 2 ^ 52) :=
  ⟨⟨_, rfl, rfl, by simp only [Ready]; decide +kernel, rfl, by decide +kernel, by simp only [Free]; decide +kernel⟩,
   ⟨rfl, by simp only [Ready]; decide +kernel, rfl⟩, ⟨_, _, rfl, by simp only [Ready]; decide +kernel, rfl⟩, by decide⟩
/-- Row memory that holds, at this row address, a region-table entry for the whole of slot 0 of bank 0. -/
def tableAt (a : Nat) : Mem := memPut [] a ((leBytes 8 (reg 3 1).dw0.toNat) ++ leBytes 8 (reg 3 1).dw1.toNat ++ leBytes 8 (reg 3 1).dw2.toNat)
def tabled : State := { at0 thr with rows := tableAt 0 }
theorem witness_RegionWalkFindsItsRegion : tabled.walk 0 12582911 = some (reg 3 1) := by decide +kernel
theorem witness_CacheControl :
    Ready (at0 (thm 2 0 0)) 0 [(6#5).toNat] ∧
    (Instr.cflush 6 0x7FF = .cflush 6 0x7FF ∧ eaOf ((at0 (thm 2 128 0)).xr 0 6) (-1) 128 = 0) ∧
    (at0 (thm 2 0 0)).translate 0 (.leader 0) 0 1 { rd := true, wr := false, align := 1 } = .ok (row0 2 0) ∧
    (at0 (thm 2 0 0)).translate 0 (.leader 0) 0 1 { rd := false, wr := true, discard := true, align := 1 } = .ok (row0 2 0) :=
  ⟨by simp only [Ready]; decide +kernel, by decide +kernel, goesTo_eq (by decide +kernel), goesTo_eq (by decide +kernel)⟩
/-- A lookup past the TLB, one that the TLB answers, and the walk that meets a malformed entry: bit 3 of DW0 is reserved. -/
theorem witness_LookupsLeave :
    scratchBase ≤ 2 ^ 52 - 1 ∧
    ((scratchBase - 1 < scratchBase) ∧ tabled.lookup 0 12582911 = some (reg 3 1) ∧ (tabled.leader 0).tlbHit 12582911 = false) ∧
    ((at0 (thm 3 0 0)).leader 0).tlbHit 12582911 = true ∧
    (let s := { at0 thr with rows := memPut [] 0 (leBytes 8 ((reg 3 1).dw0.toNat + 8) ++ leBytes 8 (reg 3 1).dw1.toNat ++ leBytes 8 (reg 3 1).dw2.toNat) }
     (s.leader 0).tlbHit 0 = false ∧ 0 ∈ s.walkBad (s.leader 0).ctxOf 0) := by decide +kernel

/-- A region of part `p`'s memory, SYNC, at virtual address 0. -/
def remReg (p : Nat) : Region where
  idx := 0
  dw0 := BitVec.ofNat 64 (2 ^ 63 + 3 * 2 ^ 60 + 5 * 2 ^ 57 + 3 * 2 ^ 55 + 7 * 2 ^ 52)
  dw1 := 98304
  dw2 := BitVec.ofNat 64 p
  dw3 := 0
def thr5 (p : Nat) : State := at0 { thx 8 1 with tlb := [remReg p] }
theorem remote_translates (p : Nat) (hp : p = 5 ∨ p = 6) (h : p ≠ Config.partNumber) :
    (thr5 p).translate 0 (.leader 0) 8 8 (loadKind 8) = .ok (.remote p 8 3) := by
  have h1 : (thr5 p).lookup 0 8 = some (remReg p) := by rcases hp with rfl | rfl <;> decide +kernel
  have h2 : goesTo ((thr5 p).probeRegion 0 (.leader 0) (remReg p) 8 8 (loadKind 8)) (.remote p 8 3) = true := by rcases hp with rfl | rfl <;> decide +kernel
  have h3 : (8 % (loadKind 8).align ≠ 0) = False := by decide
  have h4 : ((thr5 p).leader 0).ctxOf = 0 := by rcases hp with rfl | rfl <;> rfl
  have h5 : ¬ (scratchBase ≤ 8) := by decide
  have h6 : ¬ (2 ^ 52 ≤ 8) := by decide
  simp only [State.translate, State.translateBy, h3, h5, h6, h1, h4, if_false, State.probe, goesTo_eq h2, if_neg h]
theorem witness_RemoteAndForeign_access : ∃ p,
    (∃ op, Instr.wf (.ld 5 6 3 0 0) = true ∧ accessOp ((thr5 p).leader 0).xr (.ld 5 6 3 0 0) = some (5, [6], 8, 8, loadKind 8, op, 4) ∧ Ready (thr5 p) 0 [6] ∧
      (thr5 p).heldByBanks 0 = false ∧ (thr5 p).translate 0 (.leader 0) 8 8 (loadKind 8) = .ok (.remote p 8 3) ∧ noAtomic (thr5 p) 0 ∧
      (∀ r ∈ (thr5 p).reqs, ¬ remoteMatch 0 8 op r) ∧ (thr5 p).outstanding 0 (fun o => op.isLoad && o.isLoad || op.isStore && o.isStore) < 15) := by
  have key : ∀ p, (p = 5 ∨ p = 6) → p ≠ Config.partNumber → _ := fun p hp h => remote_translates p hp h
  have none_ : ∀ p, ∀ r ∈ (thr5 p).reqs, False := fun p r hr => absurd (show r ∈ ([] : List Req) from hr) (by simp)
  by_cases h : (5 : Nat) = Config.partNumber
  · exact ⟨6, _, rfl, rfl, by simp only [Ready]; decide +kernel, by decide +kernel, key 6 (.inr rfl) (by omega), fun r hr => (none_ 6 r hr).elim, fun r hr => (none_ 6 r hr).elim, by decide +kernel⟩
  · exact ⟨5, _, rfl, rfl, by simp only [Ready]; decide +kernel, by decide +kernel, key 5 (.inl rfl) h, fun r hr => (none_ 5 r hr).elim, fun r hr => (none_ 5 r hr).elim, by decide +kernel⟩
/-- The answered request of that access. -/
theorem witness_RemoteAndForeign_answer :
    let r := { rq (.load true) (.remote 5 8 3) true with va := 8 }
    remoteMatch 0 8 (.load true) r ∧ r.done = true ∧ r.hint = 0 ∧ (withReq (thr5 5) r).reqs = [] ++ r :: [] := ⟨⟨rfl, rfl, rfl, 5, 8, 3, rfl⟩, rfl, rfl, rfl⟩
theorem witness_RemoteAndForeign_events :
    (let r := rq (.load true) (.remote 5 8 3) false
     let s := { withReq (at0 thr) r with cycle := 500000, hub := { Hub.reset with routes := [(5, 15)] } }
     s.req? r.id = some r ∧ r.tgt = .remote 5 8 3 ∧ r.done = false ∧ s.portOf 5 = 15 ∧ r.born + 500000 ≤ s.cycle) ∧
    (let s := { at0 thr with hub := { Hub.reset with routes := [(5, 16)] } }
     16 ≤ s.portOf 5) ∧
    (∀ r ∈ [{ rq (.load true) (row0 3 0) true with ctx := 1 }, { rq (.load true) (.remote 5 8 3) false with ctx := 1 }],
      (withReq (at0 thr) r).req? r.id = some r ∧ (withReq (at0 thr) r).portLive r = false ∧ r.miss = false) ∧
    (let s := { at0 thr with hub := { Hub.reset with remoteTags := [(5, 1, 2)] } }
     (5, 1, 2) ∈ s.hub.remoteTags) ∧
    ((5, 0, 0) ∉ tabled.hub.remoteTags ∧ 8 ∈ [1, 2, 4, 8] ∧ 12582904 % 8 = 0 ∧ tabled.walk 0 12582904 = some (reg 3 1)) ∧
    (tabled.walked 192 0 0 (tabled.taskOfTag 0 0) 12582904).probeRegion 0 (.leader 192) (reg 3 1) 12582904 8 { rd := true, wr := true, atomic := true, align := 8 } =
      .ok (row0 3 12582904) :=
  ⟨by decide +kernel, by decide +kernel, by decide +kernel, by decide +kernel, by decide +kernel, goesTo_eq (by decide +kernel)⟩
theorem witness_RemoteAndForeign_foreign :
    (let r := { rq (.load true) (row0 3 12288) false with miss := true }
     let s := { withReq (at0 thr) r with banks := [(0, { Bank.reset with slots := [(0, { Slot.reset with st := .openDirty, row := 0 })] })] }
     s.req? r.id = some r ∧ r.tgt = .row 12288 3 5 0 ∧ s.live r.ctx r.inn = true ∧ (s.slot (bankOfPa 12288) (slotOfPa 12288)).st = .openDirty ∧
       r.miss = true ∧ (s.slot (bankOfPa 12288) (slotOfPa 12288)).row ≠ rowOfPa 12288 ∧ ∀ f ∈ (s.bank (bankOfPa 12288)).foreign, f.1 ≠ r.id) ∧
    (let r := { rq (.load true) (row0 3 0) false with miss := true }
     let s := { withReq (at0 thr) r with banks := [(0, { Bank.reset with slots := [(0, { Slot.reset with st := .commitPending, row := 0 })] })] }
     s.req? r.id = some r ∧ s.live r.ctx r.inn = true ∧ (s.slot (bankOfPa 0) (slotOfPa 0)).st = .commitPending ∧ r.miss = true ∧
       (s.slot (bankOfPa 0) (slotOfPa 0)).row = rowOfPa 0 ∧ s.olderSameWord r = false ∧ r.op.isLoad = true) := by decide +kernel

/-! ### Witnesses: the row queue, belays, cairns -/

/-- A row-queue entry for bank 0. -/
def ent (op : RowOp) : RowEntry := { num := 1, op := op, banks := 1, todo := 1, open_ := 1, commit := 0, sync := true, strips := 0, pc := 0 }
def thq (k : Nat) (u v : Word) : State := at0 { thx u v with rowq := List.replicate k (ent .commit), rowNum := 64 }
theorem witness_RopeInstructions :
    (Ready (thq 63 0x3FFFC0 0) 0 [6] ∧ blockDesc ((thq 63 0x3FFFC0 0).xr 0 6).toNat ∧ ((thq 63 0x3FFFC0 0).leader 0).rowq.length < 64) ∧
    (Ready (thq 63 23 0) 0 [6, 7] ∧ ((thq 63 23 0).xr 0 6).toNat < 32 ∧ (thq 63 23 0).granted ((thq 63 23 0).xr 0 6).toNat = true ∧ ((thq 63 23 0).leader 0).rowq.length < 64) ∧
    (Ready (thq 0 0xFFFFFFFF 0) 0 [6] ∧ ((thq 0 0xFFFFFFFF 0).xr 0 6).toNat < 2 ^ 32) := by simp only [Ready, blockDesc]; decide +kernel
theorem witness_RopeChecks :
    (Ready (thq 0 0x3FFFC1 0) 0 [6] ∧ Free (thq 0 0x3FFFC1 0) 0 ∧ ¬ blockDesc ((thq 0 0x3FFFC1 0).xr 0 6).toNat) ∧
    (Ready (thq 64 0x3FFFC0 0) 0 [6] ∧ blockDesc ((thq 64 0x3FFFC0 0).xr 0 6).toNat ∧ 64 ≤ ((thq 64 0x3FFFC0 0).leader 0).rowq.length) ∧
    2 ^ 32 ≤ ((thq 0 0x100000000 0).xr 0 6).toNat ∧
    bankIndexOp (.vrd 5 6 3) = some (6, [6]) ∧ bankIndexOp (.vwr 6 7 1) = some (6, [6, 7]) ∧
    (Free (thq 0 32 0) 0 ∧ Ready (thq 0 32 0) 0 [6, 7] ∧ 32 ≤ ((thq 0 32 0).xr 0 6).toNat) ∧
    (((thq 0 24 0).xr 0 6).toNat < 32 ∧ (thq 0 24 0).granted ((thq 0 24 0).xr 0 6).toNat = false ∧
     ((thq 0 31 0).xr 0 6).toNat < 32 ∧ (thq 0 31 0).granted ((thq 0 31 0).xr 0 6).toNat = false) ∧
    ((thq 64 23 0).xr 0 6).toNat < 32 ∧ (thq 64 23 0).granted ((thq 64 23 0).xr 0 6).toNat = true ∧ 64 ≤ ((thq 64 23 0).leader 0).rowq.length := by
  simp only [Ready, Free, blockDesc]; decide +kernel
/-- The task of rope 0 depends, by entry 7, on cairn 63 of task 0 itself, whose H is `h`. -/
def withCairn (s : State) (h : Nat) : State :=
  { s with tasks := [(0, { Task.reset with rcd := List.replicate 31 0 ++ [BitVec.ofNat 64 (2 ^ 63 + 63)], cairns := tput Cairn.reset [] 63 { h := h, sealed := false } })] }
/-- Register 7's type word: an element format with LMUL code 5; with dependency entry 7 for the .C form. -/
theorem witness_RopeChecks_setvl :
    setvlOp (.setvl 5 6 7 0) = some (.plain, 5, 6, 7, 0) ∧ setvlOp (.setvlC 5 6 7 0) = some (.c, 5, 6, 7, 0) ∧ setvlOp (.setvlQ 6 7 0) = some (.q, 0, 6, 7, 0) ∧
    (let s := at0 (thx 1 0x600)
     Ready s 0 [6, 7] ∧ Free s 0 ∧ ¬ typeWord .plain (s.xr 0 7).toNat) ∧
    (let s := at0 (thx 1 0x70500)
     Ready s 0 [6, 7] ∧ Free s 0 ∧ typeWord .c (s.xr 0 7).toNat ∧ s.cairnDep 0 ((s.xr 0 7).toNat / 2 ^ 16 % 64) = none) ∧
    (let s := withCairn (at0 (thx 1 0x70500)) 0
     typeWord .c (s.xr 0 7).toNat ∧ s.cairnDep 0 ((s.xr 0 7).toNat / 2 ^ 16 % 64) ≠ none ∧ s.cairnView 0 ((s.xr 0 7).toNat / 2 ^ 16 % 64) = (0, false)) := by
  refine ⟨rfl, rfl, rfl, ?_⟩; simp only [Ready, Free, typeWord]; decide +kernel
theorem witness_SetvlIssues :
    (let s := thq 63 0xFFFFFFFFFFFFFFFF 0x500
     Ready s 0 [6, 7] ∧ (s.leader 0).commitWait = none ∧ (s.leader 0).strip = none ∧ (∀ k, k < 8 → (0xFF#8).getLsbD k = true → tget 0 (s.leader 0).xPend (8 + k) = 0) ∧ (s.leader 0).rowq.length < 64 ∧
       typeWord .plain (s.xr 0 7).toNat) ∧
    (let s := withCairn (thq 0 9 0x70500) 1
     Ready s 0 [6, 7] ∧ typeWord .c (s.xr 0 7).toNat ∧ s.cairnDep 0 7 ≠ none ∧ 0 < (s.cairnView 0 7).1) := by simp only [Ready, typeWord]; decide +kernel
/-- Bank 0's rope holds this entry, and bank 0 is ready for it. -/
def atE (b : Bank) (e : RowEntry) : State := { at0 { thr with rowq := [e], rowNum := 1, xPend := [(5, 1)] } with banks := tput Bank.reset [] 0 b }
theorem witness_EntriesAndStrips_entries :
    (atE Bank.reset (ent (.vf 65536 0 0))).headEntry 0 = some (ent (.vf 65536 0 0)) ∧
    (atE Bank.reset (ent (.vwr 15 7))).headEntry 0 = some (ent (.vwr 15 7)) ∧
    ((atE Bank.reset (ent (.vrd 128 5 1))).headEntry 0 = some (ent (.vrd 128 5 1)) ∧ tget 0 ((atE Bank.reset (ent (.vrd 128 5 1))).leader (ropeOf 0)).xPend 5 = 1) ∧
    (let e := ent (.setvl 0x400 16 true)
     let s := atE { Bank.reset with lq := [4] } e
     s.headEntry 0 = some e ∧ e.commit.getLsbD (rbiOf 0) = false ∧ e.sync = true ∧ e.strips.getLsbD (rbiOf 0) = false ∧ e.banks.getLsbD (rbiOf 0) = true ∧
       (s.bank 0).lq = 4 :: []) ∧
    (atE Bank.reset (ent (.setvl 0x400 16 false))).headEntry 0 = some (ent (.setvl 0x400 16 false)) ∧
    (let s := atE Bank.reset (ent (.setvl 0x400 16 true))
     s.headEntry 0 = some (ent (.setvl 0x400 16 true)) ∧ (s.bank 0).lq = []) := by decide +kernel
theorem witness_EntriesAndStrips_commit :
    (let e := { ent .commit with commit := 1, sync := false }
     (atE Bank.reset e).headEntry 0 = some e ∧ e.commit.getLsbD (rbiOf 0) = true) ∧
    (let e := { ent .commit with sync := false }
     ((atE Bank.reset e).leader 0).rowq.find? (fun e => !e.sync && e.commit == 0) = some e ∧ (atE Bank.reset e).boundLive 0 = true) := by decide +kernel
def strip1 : LStrip :=
  { xs := [(15, 5, none)], loops := [], gates := [], level := 0, mm := false, bmr := 0, addr := 64, entry := 1, bytes := 8, scr := [], spoiled := false, rewound := false, dest := [] }
theorem witness_WaitForEventAndHalt :
    ((at0 { thr with wfeEv := true }).cur = .leader 0 ∧ (at0 { thr with wfeEv := true }).wfeReady 0 = true) ∧ (at0 thr).wfeReady 0 = false ∧
    (let s := { at0 { thr with wfeAt := some 0 } with cycle := 65536 }
     (s.leader 0).wfeAt = some 0 ∧ 0 + 65536 ≤ s.cycle) ∧
    ((at0 thr).cur = .leader 0 ∧ ((at0 thr).leader 0).strip = none ∧ (at0 thr).haltReady 0 = true ∧
      ∀ e ∈ ((at0 thr).task ((at0 thr).leader 0).taskOf).frames, e.1 = 0) ∧
    (let s := { at0 thr with tasks := [(0, { Task.reset with frames := [(0, 0), (1, 1)] })] }
     s.haltReady 0 = true ∧ ¬ ∀ e ∈ (s.task (s.leader 0).taskOf).frames, e.1 = 0 ∨ e.1 ∈ (s.task (s.leader 0).taskOf).halts) ∧
    (thq 1 0 0).haltReady 0 = false ∧ ((thq 1 0 0).leader 0).strip = none ∧
    (let s := at0 { thr with strip := some strip1 }
     s.cur = .leader 0 ∧ (s.leader 0).strip ≠ none ∧ (s.leader 0).commitWait = none ∧ (s.leader 0).rowq.length < 64) := by decide +kernel
/-- The bound task's hierarchy has one level, the package's. -/
def wide (s : State) : State := { s with tasks := [(0, { Task.reset with rcd := List.replicate 8 0 ++ [4] })] }
def arr (level : Nat) (d bad : Bool) : Arrival := { level := level, red := none, done := d, bad := bad, engines := 0, insts := [] }
theorem witness_BelayInstructions :
    belayOp ((wide (thq 63 0 0)).leader 0).xr (.belay 4) = some (4, 128, [], none) ∧
    (belayOp ((wide (thq 63 0 0)).leader 0).xr (.belayRed 5 6 4 0) = some (4, 384, [6], some (0, 5, 0)) ∧ Ready (wide (thq 63 0 0)) 0 [6] ∧
      ((wide (thq 63 0 0)).leader 0).arrival = none ∧ 4 ≤ ((wide (thq 63 0 0)).task ((wide (thq 63 0 0)).leader 0).taskOf).widest ∧
      ((wide (thq 63 0 0)).leader 0).rowq.length < 64 ∧ ((wide (thq 63 0 0)).leader 0).commitWait = none) ∧
    (((at0 thr).leader 0).arrival = none ∧ ((at0 thr).task ((at0 thr).leader 0).taskOf).widest < 1 ∧ Free (at0 thr) 0 ∧ Ready (at0 thr) 0 []) ∧
    (let s := at0 { thr with arrival := some (arr 4 true false) }
     Ready s 0 [] ∧ (s.leader 0).arrival = some (arr 4 true false)) ∧
    (let s := at0 { thr with arrival := some (arr 4 true true) }
     Ready s 0 [] ∧ Free s 0 ∧ (s.leader 0).arrival = some (arr 4 true true)) ∧ (at0 thr).cur = .leader 0 := by
  refine ⟨rfl, ⟨rfl, ?_, ?_⟩, ?_⟩ <;> first | decide +kernel | (simp only [Ready, Free]; decide +kernel)
/-- Slot 0 waits to be written back, held for a belay or a cairn. -/
def held (pub cw : Nat) : Bank := { Bank.reset with slots := [(0, { Slot.reset with st := .commitPending, cw := cw, pub := pub, scope := 5 })] }
theorem witness_BelaysComplete_markers :
    (let e := ent (.belay 5)
     let s := atE Bank.reset e
     s.headEntry 0 = some e ∧ e.commit.getLsbD (rbiOf 0) = false ∧ e.sync = true ∧ ∀ k, k < 8 → ¬ mustWriteBack s 0 1 5 k) ∧
    (let s := atE (held 1 2) (ent (.belay 5))
     s.headEntry 0 = some (ent (.belay 5)) ∧ ∃ k, k < 8 ∧ mustWriteBack s 0 1 5 k) ∧
    (let s := atE (held 1 2) (ent (.cairn 1))
     s.headEntry 0 = some (ent (.cairn 1)) ∧ ∀ k, k < 8 → ¬ mustWriteBack s 0 2 5 k) ∧
    (let s := atE (held 2 2) (ent (.cairn 1))
     s.headEntry 0 = some (ent (.cairn 1)) ∧ ∃ k, k < 8 ∧ mustWriteBack s 0 2 5 k) := by
  simp only [mustWriteBack]; decide +kernel
theorem witness_BelaysComplete_publishes :
    (let a := arr 4 false false
     let s := wide (at0 { thr with arrival := some a })
     (s.leader 0).arrival = some a ∧ s.belayReady 0 a = some 0 ∧ a.bad = false ∧ a.red = none ∧ 0 ∈ s.partiesOf (s.leader 0).taskOf 0 4 ∧
      s.savedFrame (s.leader 0).taskOf 0 = none ∧ ((s.belayInsts 0 4).all fun i => i == 0 || a.insts.contains i) = true) ∧
    (let a := { arr 0 false false with insts := [0] }
     let s := wide (at0 { thr with arrival := some a, rowq := [{ ent (.belay 0) with open_ := 4 }] })
     s.belayReady 0 a = some 1 ∧ 0 ∈ s.partiesOf (s.leader 0).taskOf 0 0 ∧ ((s.belayInsts 0 0).all fun i => i == 1 || a.insts.contains i) = false) ∧
    (let a := arr 0 true false
     let s := wide (at0 { thr with arrival := some a })
     (s.leader 0).arrival = some a ∧ s.belayReady 0 a = none) := by
  decide +kernel
def pt (trig : Bool) : CairnPend := { num := 1, trigger := trig, h := 281474976710655, cairn := 63, seals := true, engines := 0, strip := none }
theorem witness_CairnsAndTriggers :
    (let s := thq 63 0xFFFFFFFFFFFF 0x800000000000003F
     cairnOp (s.leader 0).xr (.cairn 6 7) = some ([6, 7], false, 0xFFFFFFFFFFFF, 63, true) ∧ Ready s 0 [6, 7] ∧ 0xFFFFFFFFFFFF < 2 ^ 48 ∧
       (s.xr 0 7).toNat / 64 % 2 ^ 57 = 0 ∧ (s.leader 0).rowq.length < 64) ∧
    cairnOp ((thq 63 0 0).leader 0).xr .trigger = some ([], true, 0, 0, false) ∧
    (let s := at0 (thx 0x1000000000000 0)
     Ready s 0 [6, 7] ∧ Free s 0 ∧ 2 ^ 48 ≤ (s.xr 0 6).toNat) ∧
    (let s := at0 (thx 0 64)
     Ready s 0 [6, 7] ∧ Free s 0 ∧ (s.xr 0 6).toNat < 2 ^ 48 ∧ (s.xr 0 7).toNat / 64 % 2 ^ 57 ≠ 0) ∧
    (∀ trig ∈ [false, true],
      let s := { at0 { thr with cairns := [pt trig], rowq := [{ ent (.cairn 2) with num := 2 }] } with tasks := [(0, { Task.reset with trigs := [1] })] }
      (s.leader 0).cairns = pt trig :: [] ∧ (pt trig).strip = none ∧ s.boundLive 0 = true ∧ (∀ e ∈ (s.leader 0).rowq, e.num ≠ (pt trig).num) ∧
        ((s.task (s.leader 0).taskOf).cairn (pt trig).cairn).sealed = false ∧ (pt trig).trigger = trig) ∧
    (let s := { at0 { thr with cairns := [pt false] } with tasks := [(0, { Task.reset with cairns := tput Cairn.reset [] 63 { h := 5, sealed := true } })] }
     ((s.task (s.leader 0).taskOf).cairn (pt false).cairn).sealed = true) ∧
    (let s := { at0 thr with tasks := [(1, { Task.reset with rcd := [BitVec.ofNat 64 (2 ^ 51)] })] }
     (s.task 1).rcd ≠ [] ∧ bit ((s.task 1).dw 0) 51 = true ∧ (s.task 1).started = false ∧ ∀ d ∈ (s.task 1).deps, s.triggered d = true) := by
  refine ⟨⟨rfl, ?_⟩, rfl, ?_⟩ <;> simp only [Ready, Free] <;> decide +kernel
theorem witness_LaunchRequests :
    (let s := at0 (thx 128 0)
     Ready s 0 [6] ∧ (s.xr 0 6).toNat % 128 = 0 ∧ ((s.leader 0).tok 7).free = true) ∧
    (let s := at0 (thx 64 0)
     Ready s 0 [6] ∧ Free s 0 ∧ (s.xr 0 6).toNat % 128 ≠ 0) ∧
    (let s := at0 { thr with toks := [(7, { Token.reset with st := .running })] }
     Ready s 0 [6] ∧ (s.xr 0 6).toNat % 128 = 0 ∧ ((s.leader 0).tok 7).free = false) ∧
    (let r : LaunchReq := { leader := none, slot := some 15, ctx := 0, inn := 0, task := 0, level := 2, va := 0 }
     let s := { at0 thr with hub := { Hub.reset with arriving := [r], launches := List.replicate 63 r } }
     let t := { at0 thr with hub := { Hub.reset with arriving := [r], launches := List.replicate 64 r } }
     s.hub.arriving = r :: [] ∧ s.hub.launches.length < 64 ∧ t.hub.arriving = r :: [] ∧ 64 ≤ t.hub.launches.length ∧ r.slot = some 15) := by
  simp only [Ready, Free]; decide +kernel

/-! ### Witnesses: admission, binding, pre-emption, kills -/

/-- A launch record: context 0, one rope, no array, its image of one word at 0x200, entry 0, an energy purse of 1 nJ. -/
def rcd1 : List Word :=
  [BitVec.ofNat 64 (2 ^ 56), 0x200, 4, 0, 1, 0, 1, 0, 0x102] ++ List.replicate 23 0
/-- Row memory with a region table, that record at 0x80 and the image's word at 0x200; a mailbox request for the record waits. -/
def req1 : LaunchReq := { leader := none, slot := some 15, ctx := 0, inn := 0, task := 0, level := 2, va := 0x80 }
def rcdMem (purse : Nat) : Mem := memPut (memPut (memPut (memPut (memPut (memPut (memPut (tableAt 0x10000) 0x87 [1]) 0x89 [2]) 0x90 [4]) 0xA0 [1])
  0xB0 [BitVec.ofNat 8 purse]) 0xC0 [2, 1]) 0x200 [0x05]
def launching (purse : Nat) : State := { State.reset with hub := { Hub.reset with launches := [req1] }, rows := rcdMem purse }
def bind1 : List Word := [BitVec.ofNat 64 (2 ^ 63 + 1), BitVec.ofNat 64 (2 ^ 32), 0, 0, 0, 0, 0, 0]
theorem witness_AdmissionAndBind_refused :
    (launching 0).hub.launches = req1 :: [] ∧ req1.slot = some 15 ∧ req1.leader = none ∧ (launching 0).readRecord req1 = .ok (rcd1.set 6 0) ∧
    (launching 0).launchAbsent req1 (.ok (rcd1.set 6 0)) = [] ∧ recordOk (rcd1.set 6 0) = false :=
  ⟨rfl, rfl, rfl, goesTo_eq (by decide +kernel), by decide +kernel, by decide +kernel⟩
theorem memByte_gap {m : Mem} {lo hi a : Nat} (h : m.all (fun e => decide (e.1 < lo) || decide (hi ≤ e.1)) = true) (h1 : lo ≤ a) (h2 : a < hi) : memByte m a = 0 := by
  induction m with
  | nil => rfl
  | cons e r ih =>
    simp only [List.all_cons, Bool.and_eq_true, Bool.or_eq_true, decide_eq_true_eq] at h
    have : e.1 ≠ a := by omega
    show (if e.1 = a then e.2 else tget 0 r a) = 0
    rw [if_neg this]; exact ih h.2
theorem noEntry {s : State} {lo hi i : Nat} (h : s.rows.all (fun e => decide (e.1 < lo) || decide (hi ≤ e.1)) = true) (he : s.ecc = []) (hc : s.cacheOld = []) (h1 : lo ≤ 32 * i)
    (h2 : 32 * i + 8 ≤ hi) : (s.regionEntry 0 i).ok = false := by
  have hz : memBytes s.rows (32 * i) 8 = List.replicate 8 0 := by
    simp only [memBytes, List.replicate]
    rw [memByte_gap h (by omega) (by omega), memByte_gap h (by omega) (by omega), memByte_gap h (by omega) (by omega), memByte_gap h (by omega) (by omega),
      memByte_gap h (by omega) (by omega), memByte_gap h (by omega) (by omega), memByte_gap h (by omega) (by omega), memByte_gap h (by omega) (by omega)]
  have h0 : (s.regionEntry 0 i).dw0 = 0 := by
    have ha : 8 * ((0 + 32 * i + 8 * 0) / 8) = 32 * i := by omega
    simp only [State.regionEntry, State.rowWord, he, hc, List.find?_nil, List.isEmpty_nil, if_true]
    rw [ha]; unfold memDw; rw [hz]; rfl
  simp [Region.ok, h0, bit]
theorem noEntries {s : State} {lo hi a n : Nat} (h : s.rows.all (fun e => decide (e.1 < lo) || decide (hi ≤ e.1)) = true) (he : s.ecc = []) (hc : s.cacheOld = []) (h1 : lo ≤ 32 * a)
    (h2 : 32 * (a + n) ≤ hi) : ((((List.range n).map fun k => a + k).map fun i => s.regionEntry 0 i).filter fun e => e.ok) = [] := by
  rw [List.filter_eq_nil_iff]
  intro e hm
  simp only [List.mem_map, List.map_map, Function.comp, List.mem_range] at hm
  obtain ⟨k, hk, rfl⟩ := hm
  simp [noEntry (i := a + k) h he hc (by omega) (by omega)]
/-- The region of this state's table stands in its middle entry, where the walk looks first. -/
def midReg : Region := { reg 3 1 with idx := 2048 }
theorem regions_of_launching : (launching 1).regionList 0 = [midReg] := by
  have low : ((List.range 32).map fun i => (launching 1).regionEntry 0 i).filter (fun e => e.ok) = [] := by decide +kernel
  have mid : (((List.range 1).map fun k => 2048 + k).map fun i => (launching 1).regionEntry 0 i).filter (fun e => e.ok) = [midReg] := by decide +kernel
  have split : List.range 4096 = List.range 32 ++ ((List.range 2016).map fun k => 32 + k) ++ ((List.range 1).map fun k => 2048 + k) ++ ((List.range 2047).map fun k => 2049 + k) := by
    rw [← List.range_add, ← List.range_add, ← List.range_add]
  unfold State.regionList
  show ((List.range 4096).map fun i => (launching 1).regionEntry 0 i).filter (fun e => e.ok) = [midReg]
  rw [split]
  simp only [List.map_append, List.filter_append]
  rw [low, mid, noEntries (lo := 0x400) (hi := 0x10000) (by decide +kernel) rfl rfl (by decide) (by decide),
    noEntries (lo := 0x10020) (hi := 2 ^ 32) (by decide +kernel) rfl rfl (by decide) (by decide)]
  rfl
theorem not_crowded : (launching 1).crowdedBanks 0 = [] := by
  unfold State.crowdedBanks
  rw [List.filter_eq_nil_iff, regions_of_launching]
  intro g _
  have : (([midReg] : List Region).filter fun e => e.namesBank g).length ≤ 1 := List.length_filter_le _ _
  simp; omega
theorem refuseWhy_none {s : State} {r : LaunchReq} {rcd : List Word} {rs : List (List Word)} (h0 : bits (rcd.getD 0 0) 41 32 = 0)
    (h1 : s.recordWhy r rcd = none)
    (h3 : (s.readImageWords rcd).toBool = true) (h4 : neverGranted rcd = false) (h5 : rcd.getD 3 0 = 0)
    (h6 : ¬ (s.hub.cap * 1000 < s.sharesHeld + bits (rcd.getD 5 0) 31 0)) (h7 : s.crowdedBanks 0 = [])
    (h8 : ((List.range 8).any fun e => s.badDep (rcd.getD (24 + e) 0)) = false) (h9 : ¬ (s.freeSlots.length < rs.length)) :
    s.refuseWhy r 0 (.ok rcd) rs = none := by
  simp only [State.refuseWhy]
  rw [h1, h0, h3, h4, h5, h7, h8, if_neg h6, if_neg h9]
  simp
theorem witness_AdmissionAndBind_accepted :
    let s := launching 1
    let rs := [bind1].map (bindOf rcd1 (s.ctx 0).inn s.hub.nextTask)
    s.readRecord req1 = .ok rcd1 ∧ s.launchAbsent req1 (.ok rcd1) = [] ∧ s.refuseWhy req1 0 (.ok rcd1) rs = none ∧ s.readImageWords rcd1 = .ok [5#32] ∧ s.takeReplay rcd1 = none ∧ rs ≠ [] ∧
      (s.setTask s.hub.nextTask { Task.reset with rcd := rcd1 }).placementOk rcd1 rs = true ∧
      s.placeFree rs (s.freeSlots.take rs.length) (rcd1.getD 3 0 != 0) = true ∧ s.powerFits rs = true ∧
      (s.ctx 0).biv + (191 + bits (rcd1.getD 4 0) 7 0) * 0x800000 ≤ 6144 * 8192 * 12288 ∧
      (∀ e ∈ s.tasks, e.2.alive = true → e.2.ctx = 0 → ∀ f ∈ e.2.frames, f.2 < 191 ∨ 191 + bits (rcd1.getD 4 0) 7 0 ≤ f.2) := by
  refine ⟨goesTo_eq (by decide +kernel), by decide +kernel, ?_, goesTo_eq (by decide +kernel), by decide +kernel, by decide, by decide +kernel, by decide +kernel, by decide +kernel,
    by decide +kernel, by decide +kernel⟩
  exact refuseWhy_none (by decide +kernel) (by decide +kernel) (by decide +kernel) (by decide +kernel) (by decide +kernel) (by decide +kernel) not_crowded
    (by decide +kernel) (by decide +kernel)
theorem witness_AdmissionAndBind_bind :
    let r : List Word := [BitVec.ofNat 64 (2 ^ 63 + 1), BitVec.ofNat 64 (7 * 2 ^ 56 + 2 ^ 55), 0, 0, 0, 0, 0, 0]
    let s := { State.reset with hub := { Hub.reset with binds := [(511, r)], nextTask := 2 },
                                tasks := [(1, { Task.reset with rcd := rcd1, started := true, frames := [(191, 0)] })] }
    s.hub.recovery = false ∧ s.bindNow (tget [] s.hub.binds 511) = true ∧ bindRopes (tget [] s.hub.binds 511) = [191] ∧
      191 ∉ (s.task (bits ((tget [] s.hub.binds 511).getD 0 0) 31 0)).halts ∧ (s.leader 191).bind = none ∧ s.savedFrame 1 191 = none ∧
      (∀ e ∈ s.hub.binds, e.1 < 511 → 191 ∉ bindRopes e.2) ∧
      s.hubAbsent (s.task 1).ctx 192 s.weights.epoch (s.ctx (s.task 1).ctx).gtb.toNat 2048 = [] := by decide +kernel
/-- Two records in force of task 1 that name rope 191, under indices `lo` and `hi`; `l` stands on the rope. -/
def clashing (lo hi : Nat) (l : Leader) : State :=
  let r : List Word := [BitVec.ofNat 64 (2 ^ 63 + 1), BitVec.ofNat 64 (7 * 2 ^ 56 + 2 ^ 55), 0, 0, 0, 0, 0, 0]
  { State.reset with hub := { Hub.reset with binds := [(lo, r), (hi, r)], nextTask := 2 }, leaders := [(191, l)],
                     tasks := [(1, { Task.reset with rcd := rcd1, started := true, frames := [(191, 0)] })] }
theorem witness_AdmissionAndBind_clash :
    (let s := clashing 0 511 { thr with bind := some { bareBinding with rcd := 511 } }
     s.hub.recovery = false ∧ s.bindNow (tget [] s.hub.binds 0) = true ∧ bindRopes (tget [] s.hub.binds 0) = [191] ∧
      191 ∉ (s.task (bits ((tget [] s.hub.binds 0).getD 0 0) 31 0)).halts ∧ (s.leader 191).bind = some { bareBinding with rcd := 511 } ∧
      s.bindNow (tget [] s.hub.binds 511) = true ∧ (s.leader 191).preempt = false) ∧
    (let s := clashing 0 511 { thr with bind := some bareBinding }
     s.hub.recovery = false ∧ s.bindNow (tget [] s.hub.binds 511) = true ∧ bindRopes (tget [] s.hub.binds 511) = [191] ∧
      191 ∉ (s.task (bits ((tget [] s.hub.binds 511).getD 0 0) 31 0)).halts ∧ (s.leader 191).bind = some bareBinding ∧
      s.bindNow (tget [] s.hub.binds bareBinding.rcd) = true ∧ (s.leader 191).preempt = false) ∧
    (let s := clashing 0 511 Leader.reset
     s.hub.recovery = false ∧ s.bindNow (tget [] s.hub.binds 511) = true ∧ bindRopes (tget [] s.hub.binds 511) = [191] ∧
      (s.leader 191).bind = none ∧ s.bindNow (tget [] s.hub.binds 0) = true ∧ 191 ∈ bindRopes (tget [] s.hub.binds 0) ∧
      191 ∉ (s.task (bits ((tget [] s.hub.binds 0).getD 0 0) 31 0)).halts) := by
  refine ⟨?_, ?_, ?_⟩ <;> decide +kernel
theorem witness_PreemptionAndRestore_quantum :
    let r : List Word := [BitVec.ofNat 64 (2 ^ 63), 0, 1, 1, 0, 0, 0, 0]
    let s := { at0 thr with cycle := 5, hub := { Hub.reset with binds := [(0, r)] } }
    (s.leader 0).bind = some bareBinding ∧ bareBinding.rcd = 0 ∧ bareBinding.task = bits (r.getD 0 0) 31 0 ∧ bit (r.getD 0 0) 63 = true ∧ bits (r.getD 3 0) 31 0 ≠ 0 ∧
      (r.getD 2 0).toNat + bits (r.getD 3 0) 31 0 ≤ s.time ∧ ∀ e ∈ s.hub.binds, e.1 ≠ 0 → e.2.getD 5 0 ≠ r.getD 5 0 := by decide +kernel
/-- A save whose doublewords are 0 but for the first, and a state in which its area lists that one alone, or holds an uncorrectable word. -/
def frm0 : Frame :=
  { v := true, ctx := 0, inn := 0, task := 0, rope := 0, level := 0, inst := 0, ord := 0, saved := 0, flags := 0, pend := none, leader := { Leader.reset with csr := { Csrs.reset with vt := 0, abr0 := 0, abr1 := 0, abr2 := 0, abr3 := 0, acan := 0 } },
    banks := (List.range 32).map fun j => (bankOf 0 j, { Bank.reset with vt := 0 }), arrays := [], latches := [], openRows := [], rpl := [] }
theorem witness_PreemptionAndRestore :
    (let s := at0 { thr with preempt := true }
     (s.leader 0).bind = some bareBinding ∧ (s.leader 0).preempt = true ∧ (s.leader 0).run = true ∧ (s.leader 0).killed = false ∧
       s.live bareBinding.ctx bareBinding.inn = true ∧ s.ropeYields 0 = true) := by decide +kernel
def saved0 (ecc : Tbl (BitVec 8)) : State := { at0 { thr with run := false } with frames := [(0, some frm0)], rows := [(7, 0x80)], ecc := ecc }
theorem foldl_fix {α β : Type} (f : α → β → α) (a : α) : ∀ l : List β, (∀ x ∈ l, f a x = a) → l.foldl f a = a
  | [], _ => rfl
  | x :: r, h => by
    rw [List.foldl_cons, h x (List.mem_cons_self ..)]
    exact foldl_fix f a r fun y hy => h y (List.mem_cons_of_mem _ hy)
/-- A frame whose words hold what was written reads back as it was. -/
theorem readFrame_same {s : State} {at_ : Nat} {f : Frame} (h : ∀ i ∈ f.written, s.frameWord at_ i = some (f.dwAt i)) : s.readFrame at_ f = some f := by
  unfold State.readFrame
  rw [foldl_fix _ (some (f, false))]
  · rfl
  · intro i hi
    rw [Option.bind_some, h i hi, Option.bind_some]
    unfold Frame.loadWord Frame.dwAt
    cases imageDw i with
    | none => rfl
    | some x => simp
theorem foldl_none {α β : Type} (f : β → α → Option α) : ∀ l : List β, l.foldl (fun a i => a.bind (f i)) none = none
  | [] => rfl
  | _ :: r => foldl_none f r
theorem readFrame_none {s : State} {at_ : Nat} {f : Frame} (i : Nat) (hi : i ∈ f.written) (h : s.frameWord at_ i = none) : s.readFrame at_ f = none := by
  obtain ⟨l, r, e⟩ := List.append_of_mem hi
  unfold State.readFrame
  rw [e, List.foldl_append, List.foldl_cons]
  have : ∀ a : Option (Frame × Bool), (a.bind fun a => (s.frameWord at_ i).bind fun w => f.loadWord i w a) = none := by
    intro a; rw [h]; cases a <;> rfl
  rw [this, foldl_none fun i a => (s.frameWord at_ i).bind fun w => f.loadWord i w a]
  rfl
theorem bank_frm0 : ∀ b < 32, frm0.bank b = { Bank.reset with vt := 0 } := by decide +kernel
theorem dws_frm0_bank : ∀ b < 32, ∀ k < 58, frm0.dwAt (0x12000 + 4096 * b + k) = 0 := by decide +kernel
theorem dws_frm0 (i : Nat) (hi : i ∈ frm0.written) (h0 : i ≠ 0) : frm0.dwAt i = 0 := by
  simp only [Frame.written, List.mem_append, List.mem_map, List.mem_flatMap, List.mem_range, or_assoc] at hi
  obtain ⟨k, hk, rfl⟩ | ⟨k, hk, rfl⟩ | ⟨b, hb, k, hk, rfl⟩ | ⟨e, he, -⟩ | hk := hi
  · revert k; decide +kernel
  · by_cases h : k < 65376
    · have h1 : ¬ 8 * (0x2000 + k) < 72 := by omega
      have h2 : ¬ (0x1000 ≤ 8 * (0x2000 + k) ∧ 8 * (0x2000 + k) < 0x3000) := by omega
      have h3 : 0x10000 ≤ 8 * (0x2000 + k) ∧ 8 * (0x2000 + k) < 0x90000 := by omega
      have hb : ∀ j < 8, frm0.scratchByte (8 * (0x2000 + k) - 0x10000 + j) = 0 := by
        intro j hj
        unfold Frame.scratchByte
        rw [if_neg (by omega), if_neg (by omega)]; rfl
      simp only [Frame.dwAt, imageDw, if_neg h1, if_neg h2, if_pos h3, scratchDw, List.range_succ, List.range_zero, List.map_append, List.map_cons, List.map_nil,
        hb 0 (by decide), hb 1 (by decide), hb 2 (by decide), hb 3 (by decide), hb 4 (by decide), hb 5 (by decide), hb 6 (by decide), hb 7 (by decide)]
      rfl
    · obtain ⟨q, hq, rfl⟩ : ∃ q < 160, k = 65376 + q := ⟨k - 65376, by omega, by omega⟩
      have : ∀ q < 160, frm0.dwAt (0x2000 + (65376 + q)) = 0 := by decide +kernel
      exact this q hq
  · by_cases h : k < 58
    · exact dws_frm0_bank b hb k h
    · have h1 : ¬ 8 * (0x12000 + 4096 * b + k) < 72 := by omega
      have h2 : ¬ (0x1000 ≤ 8 * (0x12000 + 4096 * b + k) ∧ 8 * (0x12000 + 4096 * b + k) < 0x3000) := by omega
      have h3 : ¬ (0x10000 ≤ 8 * (0x12000 + 4096 * b + k) ∧ 8 * (0x12000 + 4096 * b + k) < 0x90000) := by omega
      have h4 : 0x90000 ≤ 8 * (0x12000 + 4096 * b + k) ∧ 8 * (0x12000 + 4096 * b + k) < 0x190000 := by omega
      have hd : (0x12000 + 4096 * b + k - 0x12000) / 4096 = b ∧ (0x12000 + 4096 * b + k - 0x12000) % 4096 = k := by omega
      simp only [Frame.dwAt, imageDw, if_neg h1, if_neg h2, if_neg h3, if_pos h4, hd.1, hd.2, bankDw]
      rw [if_neg (by omega), if_neg (by omega), if_neg (by omega), if_neg (by omega), if_neg (by omega), if_neg (by omega), if_neg (by omega), if_neg (by omega),
        if_neg (by omega), if_neg (by omega), if_pos (by omega)]
      simp only [bank_frm0 b hb]
      exact BitVec.extractLsb'_zero
  · exact absurd he (by simp [frm0])
  · have : ∀ i < 9, i ≠ 0 → frm0.dwAt i = 0 := by decide +kernel
    exact this i hk h0
theorem rows_saved0 (a : Nat) (h : 8 ≤ a) : memDw [(7, (0x80 : BitVec 8))] a = 0 := by
  have g : ∀ k, memByte [(7, (0x80 : BitVec 8))] (a + k) = 0 := fun k => memByte_gap (lo := 8) (hi := a + k + 1) (by simp) (by omega) (by omega)
  have e : memBytes [(7, (0x80 : BitVec 8))] a 8 = List.replicate 8 0 := by
    simp only [memBytes, List.replicate, Nat.add_assoc, Nat.reduceAdd]
    simp only [g]
    have := g 0
    simp only [Nat.add_zero] at this
    rw [this]
  unfold memDw; rw [e]; rfl
/-- The frame that stands in memory as it was written, and one with an uncorrectable word. -/
theorem witness_PreemptionAndRestore_restore :
    (let s := saved0 []
     (s.leader 0).bind = some bareBinding ∧ (s.leader 0).run = false ∧ (s.leader 0).killed = false ∧ s.stopping 0 = false ∧
       tget none s.frames (s.frameAddr bareBinding) = some frm0 ∧ frm0.v = true ∧ frm0.task = bareBinding.task ∧ frm0.rope = 0 ∧
       s.readFrame (s.frameAddr bareBinding) frm0 = some frm0 ∧ frm0.fits bareBinding 0 = true ∧ ∀ e ∈ frm0.openRows, e.2.1 < 8) ∧
    (let s := { saved0 [(0x200, 3)] with leaders := [(0, { thr with run := false, bind := some { bareBinding with ctx := 1, inn := 1 } })], ctxs := [(1, { Ctx.reset with st := 1, inn := 1 })] }
     let b : Binding := { bareBinding with ctx := 1, inn := 1 }
     (∀ g, s.readFrame (s.frameAddr b) frm0 = some g → g.fits b 0 = false) ∧ tget none s.frames (s.frameAddr b) = some frm0 ∧ (s.leader 0).bind = some b ∧ (s.leader 0).run = false ∧ (s.leader 0).killed = false ∧
       s.stopping 0 = false ∧ (s.ctx 1).st = 1 ∧ (s.ctx 1).inn = 1) := by
  refine ⟨⟨rfl, rfl, rfl, rfl, by decide +kernel, rfl, rfl, rfl, ?_, by decide +kernel, by decide⟩, ?_, by decide +kernel⟩
  · refine readFrame_same fun i hi => ?_
    by_cases h0 : i = 0
    · subst h0; decide +kernel
    · rw [dws_frm0 i hi h0]
      show some (memDw [(7, (0x80 : BitVec 8))] (8 * (0 / 8 + i))) = some 0
      rw [rows_saved0 _ (by omega)]
  · intro g hg
    rw [readFrame_none 0x200 ?_ (by decide +kernel)] at hg
    · exact absurd hg (by simp)
    · refine List.mem_append_left _ (List.mem_append_left _ (List.mem_append_left _ (List.mem_append_left _ ?_)))
      exact List.mem_map.mpr ⟨0, by simp, rfl⟩

/-- Task 1, whose record allows nothing, on rope 0, bank 0 of which may be in a multi-row instruction. -/
def overdue (stop : Nat) (m : Option MultiRun) : State :=
  { at0 { thr with bind := some { bareBinding with task := 1 } } with
    banks := [(0, { Bank.reset with multi := m })], tasks := [(1, { Task.reset with rcd := List.replicate 32 0, stop := stop, frames := [(0, 0)] })] }
theorem witness_RewindAndBudget :
    (let tr : TrapRec := { cause := .ueConsumed, bank := 0, tpc := 0, tval := 0, telem := 0 }
     let s := at0 { thr with rewind := some tr, strip := some strip1 }
     (s.leader 0).rewind = some tr ∧ (s.leader 0).strip = some strip1 ∧ Free s 0 ∧ (s.leader 0).run = true ∧ (s.leader 0).killed = false) ∧
    (let s := overdue 0 none
     (s.task 1).alive = true ∧ (s.task 1).stop = 0 ∧ (s.task 1).overrun = some 5 ∧
       ∀ n ∈ s.ropesOf 1, (s.leader n).bind.isSome = true → (s.leader n).taskOf = 1 → (s.stopTask 1 5).settledAt n = true) ∧
    (let s := overdue 0 (some { rows := 1, d := 0, a := 0 })
     (s.task 1).alive = true ∧ (s.task 1).stop = 0 ∧ (s.task 1).overrun = some 5 ∧
       ∃ n ∈ s.ropesOf 1, (s.leader n).bind.isSome = true ∧ (s.leader n).taskOf = 1 ∧ (s.stopTask 1 5).settledAt n = false) ∧
    (let s := overdue 5 none
     (s.task 1).alive = true ∧ (s.task 1).stop ≠ 0 ∧
       ∀ n ∈ s.ropesOf 1, (s.leader n).bind.isSome = true → (s.leader n).taskOf = 1 → s.settledAt n = true) := by simp only [Free]; decide +kernel
/-- A kernel thread of context 1 whose x6 is `t`. -/
def kern (t : Word) : State := inC1 { thx t 0 with level := 2 }
def kctx (t : Word) (c : Ctx) : State := { kern t with ctxs := tput Ctx.reset (kern t).ctxs 1 c }
def tag11 : Word := 0x4001
theorem witness_KillsAndFences_kill :
    (Ready (kern tag11) 0 [6] ∧ ((kern tag11).leader 0).level = 2 ∧ tag11.toNat / 2 ^ 24 % 2 ^ 39 = 0 ∧ tag11.toNat / 2 ^ 14 % 2 ^ 10 = 1 ∧ tag11.toNat % 2 ^ 14 = 1 ∧
      ((kern tag11).ctx 1).st = 1 ∧ ((kern tag11).ctx 1).inn = 1) ∧
    ((kctx tag11 { Ctx.reset with st := 2, inn := 2 }).ctx 1).st = 2 ∧
    (((kctx tag11 { Ctx.reset with st := 1, inn := 2 }).ctx 1).st ≠ 2 ∧ ((kctx tag11 { Ctx.reset with st := 1, inn := 2 }).ctx 1).inn ≠ 1) ∧
    (Free (kern 0x3FFF) 0 ∧ (0x3FFF#64).toNat / 2 ^ 14 % 2 ^ 10 = 0) ∧ (0x1000000#64).toNat / 2 ^ 24 % 2 ^ 39 ≠ 0 := by simp only [Ready, Free]; decide +kernel
theorem witness_KillsAndFences_reclaim :
    (tag11.toNat / 2 ^ 24 = 0 ∧ (∀ k ∈ ((kern tag11).ctx 1).kill, k.1 ≠ 1) ∧ ((kern tag11).ctx 1).st = 1 ∧ ((kern tag11).ctx 1).inn = 1) ∧
    (let s := kctx tag11 { Ctx.reset with st := 1, inn := 2, fenced := [(0, false), (1, true)] }
     Ready s 0 [6] ∧ (s.leader 0).level = 2 ∧ (∀ k ∈ (s.ctx 1).kill, k.1 ≠ 1) ∧
       ¬ ((∀ x ∈ (s.ctx 1).fenced, x.1 ≠ 1) ∨ ((s.ctx 1).st = 1 ∧ (s.ctx 1).inn = 1)) ∧ (s.ctx 1).fenced = [(0, false)] ++ (1, true) :: [] ∧
       ∀ x ∈ [(0, false)], x.1 ≠ 1) ∧
    (let s := kctx tag11 { Ctx.reset with st := 2, inn := 2, kill := some (1, false, 255, 0) }
     ∃ k ∈ (s.ctx 1).kill, k.1 = 1) ∧
    (Free (kern 0x1000000) 0 ∧ (0x1000000#64).toNat / 2 ^ 24 ≠ 0) := by
  refine ⟨by decide +kernel, ?_, ⟨_, rfl, rfl⟩, ?_⟩ <;> simp only [Ready, Free] <;> decide +kernel
theorem witness_KillsAndFences_fence :
    (let s := kctx 0 { Ctx.reset with st := 2, inn := 2, kill := some (1, false, 255, 0) }
     (s.ctx 1).kill = some (1, false, 255, 0) ∧ 255 / 2 ^ 7 % 2 = 1 ∧ 255 / 2 ^ 0 % 2 = 1) ∧
    (let s := kctx 0 { Ctx.reset with st := 2, inn := 2, kill := some (1, true, 0, 0) }
     (s.ctx 1).kill = some (1, true, 0, 0) ∧ (s.ctx 1).parts = []) ∧
    (let s := { kctx 0 { Ctx.reset with st := 2, inn := 2, kill := some (1, false, 0, 0), parts := [5] } with cycle := 500000 }
     (s.ctx 1).parts ≠ [] ∧ 0 + 500000 ≤ s.cycle ∧ (s.ctx 1).freeQ = some 0) ∧
    (let s := { kctx 0 { Ctx.reset with st := 2, inn := 2, kill := some (1, false, 0, 0), parts := [5] } with cycle := 499999 }
     (s.ctx 1).parts ≠ [] ∧ s.cycle < 0 + 500000) ∧
    (let s := kctx 0 { Ctx.reset with q := [(7, some 1)] }
     tget none (s.ctx 1).q 7 = some 1 ∧ (∀ j, j < 7 → tget none (s.ctx 1).q j ≠ some 1) ∧ (s.ctx 1).lack = none) := by decide +kernel

/-! ### Witnesses: bank instructions -/

def openRow : Slot := { Slot.reset with st := .openDirty }
/-- Bank 0 with its eight registers open, at this type and length. -/
def bank8 (vt : Word) (vl : Nat) : Bank := { Bank.reset with slots := (List.range 8).map fun k => (k, openRow), vt := vt, vl := vl }
/-- The instruction, its specification and the checks that it passes. -/
def LaneCase (s : State) (i : Instr) : Prop := i.wf = true ∧ ∃ mk, laneSpecOf i = some mk ∧ LaneReady mk s 0
def laneOk (s : State) (i : Instr) : Bool := i.wf && match laneSpecOf i with
  | some mk => decide (s.cur = .bank 0) && decide ((s.bank 0).laneAt ≤ s.cycle) && (mk (s.bank 0)).okFmt && (mk (s.bank 0)).okLim &&
      decide (s.rowsChk 0 (mk (s.bank 0)).regs = .ok) && ((s.bank 0).firstPoison (mk (s.bank 0)).needs).isNone &&
      ((mk (s.bank 0)).out.push.isNone || decide ((s.bank 0).lq.length < 16)) && !s.laneHeld 0 (mk (s.bank 0)) && ((s.bank 0).mismatch (mk (s.bank 0))).isNone
  | none => false
theorem laneCase_of {s : State} {i : Instr} (h : laneOk s i = true) : LaneCase s i := by
  unfold laneOk at h
  simp only [Bool.and_eq_true] at h
  refine ⟨h.1, ?_⟩
  cases hs : laneSpecOf i with
  | none => simp [hs] at h
  | some mk =>
    simp only [hs, Bool.and_eq_true, decide_eq_true_eq, Option.isNone_iff_eq_none, Bool.or_eq_true, Bool.not_eq_true'] at h
    obtain ⟨-, ⟨⟨⟨⟨⟨⟨⟨⟨h1, h2⟩, h3⟩, h4⟩, h5⟩, h6⟩, h7⟩, h8⟩, h9⟩⟩ := h
    exact ⟨mk, rfl, h1, h2, h3, h4, h5, h6, fun hp => h7.resolve_left hp, h8, h9⟩
theorem laneCases_of {s : State} {L : List Instr} (h : L.all (laneOk s) = true) : ∀ i ∈ L, LaneCase s i :=
  fun i hi => laneCase_of (List.all_eq_true.mp h i hi)
/-- I32; one entry of the length queue is left, and y5 names the last element. -/
def lane32 : State := atB { bank8 0x402 64 with lq := List.replicate 15 0, y := [(5, 63)] }
theorem witness_LaneEffects : (∀ i ∈ ([.vadd 2 0 1 1 0] : List Instr), LaneCase (atB (bank8 0x402 3072)) i) ∧
    ∀ i ∈ ([.vmacScalar 2 0 0 0 5, .vnclip 2 0 1 0 2, .vpopcQ 1 0 0 5] : List Instr), LaneCase lane32 i :=
  ⟨laneCases_of (by decide +kernel), laneCases_of (by decide +kernel)⟩
theorem witness_ElementResults : ∃ R mk, laneEl (.vaddsu 2 0 1 0 0) = some R ∧ laneSpecOf (.vaddsu 2 0 1 0 0) = some mk ∧ LaneReady mk lane32 0 := by
  obtain ⟨-, mk, h1, h2⟩ := laneCases_of (s := lane32) (L := [.vaddsu 2 0 1 0 0]) (by decide +kernel) _ (List.mem_singleton.mpr rfl)
  exact ⟨_, mk, rfl, h1, h2⟩
theorem witness_LaneMoves :
    (∀ i ∈ ([.vsel 2 0 1 0 0, .vselScalar 2 0 0 0 5, .vslideup 2 1 0 0 1 5, .vslidedn 2 1 0 0 0 5, .vperm 2 0 1 0 0 1, .vcompress 2 0 0 0, .vext 4 5 1,
      .vins 5 5 1] : List Instr), LaneCase lane32 i) ∧ selOp (.vsel 2 0 1 0 0) = some (2, 0, .row 1, 0, 0) ∧ slideOp (.vslideup 2 1 0 0 1 5) = some (true, 2, 1, 0, 0, true, 5) ∧
    ((lane32.bank 0).yr 5).toNat < (lane32.bank 0).vl ∧ (lane32.bank 0).vl * esizeOf (vtEF (lane32.bank 0).vt) ≤ 12288 :=
  ⟨laneCases_of (by decide +kernel), rfl, rfl, by decide +kernel, by decide +kernel⟩
theorem witness_PredicatesAndReductions :
    ∀ i ∈ ([.vcmp 1 0 1 0 0 5, .vcmpScalar 7 0 0 0 5 0, .pand 1 2 3 0, .pandn 1 1 1 1, .vpopc 1 0 0 5, .vpopcQ 1 0 0 5, .vfirst 0 0 0 15, .vredsum 0 0 0 5,
      .vredmin 0 1 0 5, .vredmax 0 0 0 15] : List Instr), LaneCase lane32 i := laneCases_of (by decide +kernel)
theorem witness_LaneConversions :
    (∀ i ∈ ([.vcvt 2 0 0 0 0, .vcvt 2 0 1 0 11] : List Instr), LaneCase lane32 i) ∧
    (∀ i ∈ ([.vpackmx 2 0 1 15 0 12, .vbpisplit 2 0 1 0 0 19] : List Instr), LaneCase (atB (bank8 0x40A 32)) i) ∧
    (∀ i ∈ ([.vunpackmx 2 0 1 0 10] : List Instr), LaneCase (atB (bank8 0x40C 32)) i) ∧
    ∀ i ∈ ([.vbpijoin 2 0 1 0 10] : List Instr), LaneCase (atB (bank8 0x413 4)) i :=
  ⟨laneCases_of (by decide +kernel), laneCases_of (by decide +kernel), laneCases_of (by decide +kernel), laneCases_of (by decide +kernel)⟩
/-- Bank 0 runs a block of `words` words at its word `w`. -/
def blk (words w : Nat) : BlockRun := { desc := 65536 * (words - 1), wpos := w, entry := none, parts := 0, rank := 0, coll := none }
def atBlk (words w : Nat) (b : Bank) : State := atB { b with run := some (blk words w) }
def inLoops (k : Nat) (b : Bank) : Bank := { b with loops := List.replicate k { start := 0, last := 63, count := 2 } }
theorem witness_BankScalars :
    (∃ P, Instr.wf (.yaddiExt 5 5 0) = true ∧ yOp ((atBlk 64 62 Bank.reset).bank 0).yr (.yaddiExt 5 5 0) = some (5, 8, P) ∧ (atBlk 64 62 Bank.reset).cur = .bank 0) ∧
    Instr.wf (.ycsr 5 0x23) = true ∧ (atBlk 64 0 Bank.reset).cur = .bank 0 := ⟨⟨_, rfl, rfl, rfl⟩, by decide, rfl⟩
theorem witness_BlockControl :
    (Instr.wf (.yb 5 1 2 0x7C1) = true ∧ Running (atBlk 64 63 Bank.reset) 0 (blk 64 63) 64 ∧ 0 ≤ (((blk 64 63).wpos : Nat) : Int) + (0x7C1#11).toInt ∧
      (((blk 64 63).wpos : Nat) : Int) + (0x7C1#11).toInt < (64 : Nat)) ∧
    (let s := atBlk 64 0 (inLoops 5 Bank.reset)
     Instr.wf (.yloop 1 63) = true ∧ Running s 0 (blk 64 0) 64 ∧ (blk 64 0).wpos + (63#11).toNat < 64 ∧ badLoopEnd (s.blockWord 0 ((blk 64 0).wpos + (63#11).toNat)) = false ∧
       (s.bank 0).loops.length < 6) ∧
    (let s := atBlk 64 63 { Bank.reset with y := [(1, 0x3FFFC0)] }
     Running s 0 (blk 64 63) 64 ∧ (s.bank 0).loops = [] ∧ blockDesc ((s.bank 0).yr 1).toNat) := by simp only [Running, blockDesc]; decide +kernel
/-- The instruction's specification is `mk`, and `P` holds of what it asks for. -/
def LaneAsks (s : State) (i : Instr) (P : LaneSpec → Prop) : Prop := ∃ mk, laneSpecOf i = some mk ∧ s.cur = .bank 0 ∧ P (mk (s.bank 0))
theorem witness_BankRefusals_lane :
    LaneAsks (atB { bank8 0x402 4 with laneAt := 1 }) (.vadd 2 0 1 0 0) (fun _ => (atB { bank8 0x402 4 with laneAt := 1 }).cycle < 1) ∧
    LaneAsks (atB (bank8 0x40A 4)) (.vadd 2 0 1 0 0) (fun p => p.okFmt = false) ∧
    LaneAsks (atB (bank8 0x402 3073)) (.vadd 2 0 1 0 0) (fun p => p.okFmt = true ∧ p.okLim = false) ∧
    LaneAsks (atB { bank8 0x402 4 with slots := [(0, { openRow with st := .opening })] }) (.vadd 2 0 1 0 0) (fun p => p.okFmt = true ∧ p.okLim = true ∧
      (atB { bank8 0x402 4 with slots := [(0, { openRow with st := .opening })] }).rowsChk 0 p.regs = .wait) ∧
    LaneAsks (atB { bank8 0x402 4 with slots := [] }) (.vadd 2 0 1 0 0) (fun p => p.okFmt = true ∧ p.okLim = true ∧
      (atB { bank8 0x402 4 with slots := [] }).rowsChk 0 p.regs = .bad .rowState 0 0) ∧
    LaneAsks (atB { bank8 0x402 4 with slots := [(0, { openRow with wp := true })] }) (.vadd 0 0 0 0 0) (fun p => p.okFmt = true ∧ p.okLim = true ∧ ∃ v,
      (atB { bank8 0x402 4 with slots := [(0, { openRow with wp := true })] }).rowsChk 0 p.regs = .bad .permission v 0) ∧
    LaneAsks (atB { bank8 0x402 4 with lq := List.replicate 16 0 }) (.vpopcQ 1 0 0 5) (fun p => p.okFmt = true ∧ p.okLim = true ∧
      (atB { bank8 0x402 4 with lq := List.replicate 16 0 }).rowsChk 0 p.regs = .ok ∧ p.out.push ≠ none ∧
      ((atB { bank8 0x402 4 with lq := List.replicate 16 0 }).bank 0).firstPoison p.needs = none ∧ (atB { bank8 0x402 4 with lq := List.replicate 16 0 }).laneHeld 0 p = false) := by
  refine ⟨⟨_, rfl, rfl, ?_⟩, ⟨_, rfl, rfl, ?_⟩, ⟨_, rfl, rfl, ?_⟩, ⟨_, rfl, rfl, ?_⟩, ⟨_, rfl, rfl, ?_⟩, ⟨_, rfl, rfl, ?_, ?_, _, rfl⟩, ⟨_, rfl, rfl, ?_⟩⟩ <;> decide +kernel
/-- Bank 0 whose register 1 a lane still writes, whose register 0 holds a poisoned word, and whose lane has failed under protection. -/
def held32 : State := atB { bank8 0x402 4 with slots := [(0, openRow), (1, { openRow with useAt := 1 }), (2, openRow)] }
def pois32 : State := atB { bank8 0x402 4 with slots := [(0, { openRow with poison := 1 }), (1, openRow), (2, openRow)] }
def upset32 : State := atB { bank8 0xC02 4 with upset := some 0 }
theorem witness_BankRefusals_data :
    LaneAsks held32 (.vadd 2 0 1 0 0) (fun p => held32.laneHeld 0 p = true) ∧
    LaneAsks pois32 (.vadd 2 0 1 0 0) (fun p => pois32.laneHeld 0 p = false ∧ p.okFmt = true ∧ p.okLim = true ∧ pois32.rowsChk 0 p.regs = .ok ∧
      (pois32.bank 0).firstPoison p.needs = some (0, 0, 0) ∧ (pois32.bank 0).strip = none) ∧
    LaneAsks upset32 (.vadd 2 0 1 0 0) (fun p => upset32.laneHeld 0 p = false ∧ p.okFmt = true ∧ p.okLim = true ∧ upset32.rowsChk 0 p.regs = .ok ∧
      (upset32.bank 0).firstPoison p.needs = none ∧ p.out.push = none ∧ (upset32.bank 0).mismatch p = some 0 ∧ (upset32.bank 0).strip = none) := by
  refine ⟨⟨_, rfl, rfl, ?_⟩, ⟨_, rfl, rfl, ?_⟩, ⟨_, rfl, rfl, ?_⟩⟩ <;> decide +kernel
theorem witness_BankRefusals_row :
    (∀ st ∈ [RowSt.closed, .closing, .commitPending, .openClean, .openDirty],
      let s := atB { Bank.reset with slots := [(7, { Slot.reset with st := st })] }
      (s.seenSlot 0 7).st = st ∧ (s.seenSlot 0 7).wp = false) := by decide +kernel
theorem witness_BankRefusals_block :
    (Running (atBlk 64 0 Bank.reset) 0 (blk 64 0) 64 ∧ (((blk 64 0).wpos : Nat) : Int) + (0x7FF#11).toInt < 0) ∧
    (Running (atBlk 64 1 Bank.reset) 0 (blk 64 1) 64 ∧ ((64 : Nat) : Int) ≤ (((blk 64 1).wpos : Nat) : Int) + (63#11).toInt ∧ 64 ≤ (blk 64 1).wpos + (63#11).toNat) ∧
    (let s := { atBlk 64 0 Bank.reset with leaders := [(0, { thr with imem := [(1, 0xAC000803)] })] }
     badLoopEnd (s.blockWord 0 ((blk 64 0).wpos + (1#11).toNat)) = true) ∧
    (let s := atBlk 64 0 (inLoops 6 Bank.reset)
     6 ≤ (s.bank 0).loops.length ∧ (s.bank 0).loops ≠ []) ∧
    (let s := atBlk 64 0 { Bank.reset with y := [(1, 0x3FFFC1)] }
     ¬ blockDesc ((s.bank 0).yr 1).toNat) ∧
    (atB Bank.reset).cur = .bank 0 ∧ (at0 thr).cur = .leader 0 ∧ Free (at0 thr) 0 := by simp only [Running, blockDesc, Free]; decide +kernel

/-! ### Witnesses: rows, row memory, banks together -/

/-- Bank 0 with one slot as given and a row region over slot 0. -/
def bankS (k : Nat) (sl : Slot) : Bank := { Bank.reset with slots := tput Slot.reset [] k sl, regions := [reg 3 1], y := [(8, 1023)] }
theorem witness_RowsOpen :
    (let s := { atB (bankS 0 { Slot.reset with debt := 3 }) with cycle := 100 }
     actOp (.act 0 8) = some (0, 8, false) ∧ s.cur = .bank 0 ∧ ((s.bank 0).yr 8).toNat = 1023 ∧ Idle s 0 0 ∧ MayOpen s 0 0 1023 true (reg 3 1) ∧ MayOpen s 0 0 1023 false (reg 3 1) ∧
       s.engaging 0 (reg 3 1) = false ∧ s.readsPend 0 (reg 3 1) = false ∧ ActTimes s 0 ∧ PermitFree s 0 ∧ Mem.wf s.rows = true ∧ s.ecc = [] ∧ ∀ p ∈ s.pend, p.wb = false) ∧
    (let s := atB { bankS 0 Slot.reset with regions := [reg 0 1] }
     Idle s 0 0 ∧ MayOpen s 0 0 1023 true (reg 0 1) ∧ s.unengaged 0 (reg 0 1) = true) ∧
    (let s := atB { bankS 0 Slot.reset with regions := [] }
     ((s.bank 0).yr 8).toNat < 1024 ∧ Idle s 0 0 ∧ (s.bank 0).rowRegion 0 0 1023 = none) ∧
    (let e := { reg 3 1 with dw0 := BitVec.ofNat 64 (2 ^ 63 + 3 * 2 ^ 60 + 5 * 2 ^ 57) }
     let s := atB { bankS 0 Slot.reset with regions := [e] }
     Idle s 0 0 ∧ (s.bank 0).rowRegion 0 0 1023 = some e ∧ ¬ MayOpen s 0 0 1023 false e) ∧
    1024 ≤ (((atB { Bank.reset with y := [(8, 1024)] }).bank 0).yr 8).toNat := by
  refine ⟨?_, ?_, ?_, ?_, ?_⟩ <;> simp only [Idle, LanesPast, MayOpen, ActTimes, PermitFree] <;> decide +kernel
theorem witness_RowsOpen_end :
    let s := { atB (bankS 7 { Slot.reset with st := .opening, until_ := 30 }) with cycle := 30 }
    (s.slot 0 7).st = .opening ∧ (s.slot 0 7).until_ ≤ s.cycle ∧ (s.slot 0 7).preReq = false ∧ (s.slot 0 7).forced = 0 := by decide +kernel
theorem witness_RowStateAndFill_state :
    (let s := { atB (bankS 7 { Slot.reset with st := .openDirty, wrAt := 75 }) with cycle := 100 }
     s.cur = .bank 0 ∧ LanesPast s 0 7 ∧ Own s 0 7 ∧ (s.slot 0 7).st = .openDirty ∧ (s.slot 0 7).wrAt + 25 ≤ s.cycle ∧ RasOk s 0 7) ∧
    (let s := { atB (bankS 7 { Slot.reset with st := .openClean, actAt := 20 }) with cycle := 100 }
     LanesPast s 0 7 ∧ Own s 0 7 ∧ (s.slot 0 7).st = .openClean ∧ RasOk s 0 7 ∧ (s.slot 0 7).busy = false) ∧
    (let s := { atB (bankS 7 { Slot.reset with st := .openClean, actAt := 21 }) with cycle := 100 }
     LanesPast s 0 7 ∧ Own s 0 7 ∧ ¬ RasOk s 0 7) ∧
    (∀ w ∈ [false, true], let s := { atB (bankS 7 { Slot.reset with st := .commitPending, cw := 1, wbing := w }) with cycle := 100 }
     LanesPast s 0 7 ∧ Own s 0 7 ∧ (s.slot 0 7).st = .commitPending ∧ (s.slot 0 7).wbing = w ∧ RasOk s 0 7) ∧
    (let s := { atB (bankS 7 { Slot.reset with st := .openDirty, wrAt := 100 }) with cycle := 100 }
     s.cur = .bank 0 ∧ ¬ LanesPast s 0 7) ∧
    (let s := atB Bank.reset
     LanesPast s 0 7 ∧ Own s 0 7 ∧ (s.slot 0 7).st = .closed ∧ (s.seenSlot 0 7).st = .closed ∧ Idle s 0 7 ∧ PermitFree s 0) := by
  refine ⟨?_, ?_, ?_, ?_, ?_, ?_⟩ <;> simp only [Own, RasOk, Idle, LanesPast, PermitFree] <;> decide +kernel
theorem witness_RowStateAndFill_multi :
    (let s := atB { Bank.reset with regions := [reg 0 1], y := [(8, 1023)] }
     multiOp (.rowfill 0 8) = some (0, 0, 9, some 8) ∧ s.cur = .bank 0 ∧ (s.bank 0).multi = none ∧ multiOk false 0 0 ((s.bank 0).yr 9) = true ∧ Idle s 0 0 ∧
       (s.bank 0).multiCheck 0 0 0 ((s.bank 0).yr 9) false = none ∧ PermitFree s 0) ∧
    (let s := atB { Bank.reset with regions := [reg 0 1], y := [(8, BitVec.ofNat 64 (7 * 2 ^ 32 + 1016 * 2 ^ 16))] }
     multiOp (.rowcpy 0 0 8) = some (0, 0, 8, none) ∧ multiOk true 0 0 ((s.bank 0).yr 8) = true ∧ Idle s 0 0 ∧ (s.bank 0).multiCheck 0 0 0 ((s.bank 0).yr 8) true = none ∧
       ((s.bank 0).yr 8).toNat / 2 ^ 32 % 8 ≠ 0) ∧
    (∀ m ∈ [5, 6], let s := { atB { Bank.reset with y := [(8, BitVec.ofNat 64 (7 * 2 ^ 32))], multi := some { rows := m + 1, d := 1, a := 0 }, slots := [(0, { Slot.reset with busy := true, until_ := 60 }), (1, { Slot.reset with busy := true, until_ := 60 })] } with cycle := 60 }
     multiOp (.rowcpy 1 0 8) = some (1, 0, 8, none) ∧ (s.bank 0).multi = some { rows := m + 1, d := 1, a := 0 } ∧ (s.slot 0 1).until_ ≤ s.cycle ∧ (s.slot 0 0).until_ ≤ s.cycle ∧
       (s.slot 0 1).alert = [] ∧ (s.slot 0 0).alert = [] ∧ multiOk true 1 0 ((s.bank 0).yr 8) = true ∧ PermitFree s 0 ∧ ((s.bank 0).yr 8).toNat / 2 ^ 32 % 8 = 7) ∧
    (let s := atB { Bank.reset with y := [(8, BitVec.ofNat 64 (7 * 2 ^ 32 + 1017))] }
     multiOk false 0 0 ((s.bank 0).yr 8) = false) ∧
    (let s := atB { Bank.reset with y := [(8, 1023)] }
     Idle s 0 0 ∧ (s.bank 0).multiCheck 0 0 0 ((s.bank 0).yr 9) false = some (.regionMiss, 0)) := by
  refine ⟨?_, ?_, ?_, ?_, ?_⟩ <;> simp only [Idle, LanesPast, PermitFree] <;> decide +kernel
def atS (c k : Nat) (sl : Slot) : State := { atB (bankS k sl) with cycle := c }
/-- The tier of bank 0 has no permit left. -/
def noPermit (s : State) : State := { s with tiers := [(0, { Tier.reset with value := 0 })] }
theorem witness_RowTransients :
    (let s := atS 25 7 { Slot.reset with st := .commitPending, wrAt := 0 }
     (s.slot 0 7).st = .commitPending ∧ (s.slot 0 7).cw = 0 ∧ (s.slot 0 7).wbing = false ∧ (s.slot 0 7).preReq = false ∧ (s.slot 0 7).wrAt = 0 ∧
       s.live (s.slot 0 7).ctx (s.slot 0 7).inn = true ∧ PermitFree s 0) ∧
    (let s := noPermit (atS 25 7 { Slot.reset with st := .commitPending })
     s.live (s.slot 0 7).ctx (s.slot 0 7).inn = true ∧ (s.tier (tierOf 0)).value ≤ (s.holders (tierOf 0)).length ∧ (∀ p ∈ (s.tier (tierOf 0)).holders, p.bank ≠ 0) ∧
       ∀ r ∈ (s.tier (tierOf 0)).waiting, r.bank ≠ 0) ∧
    (let s := atS 25 7 { Slot.reset with st := .commitPending, ctx := 1 }
     s.live (s.slot 0 7).ctx (s.slot 0 7).inn = false) ∧
    (let s := atS 40 7 { Slot.reset with st := .commitPending, wbing := true, until_ := 40, cc := true, actAt := 1, cls := 3 }
     (s.slot 0 7).st = .commitPending ∧ (s.slot 0 7).wbing = true ∧ (s.slot 0 7).until_ ≤ s.cycle ∧ s.live (s.slot 0 7).ctx (s.slot 0 7).inn = true ∧
       s.holdsBack (s.slot 0 7) = false ∧ (s.slot 0 7).cc = true ∧ (s.slot 0 7).pred = false ∧ ¬ RasOk s 0 7) ∧
    (let s := atS 40 7 { Slot.reset with st := .commitPending, wbing := true, until_ := 40, pub := 1, scope := 5, cls := 1, cw := 2 }
     s.live (s.slot 0 7).ctx (s.slot 0 7).inn = true ∧ s.holdsBack (s.slot 0 7) = true ∧ (s.slot 0 7).cc = false) ∧
    (let s := atS 80 7 { Slot.reset with st := .commitPending, wbing := true, until_ := 40, cc := true, preReq := true }
     (s.slot 0 7).cc = true ∧ (s.slot 0 7).pred = false ∧ RasOk s 0 7 ∧ (s.slot 0 7).preReq = true ∧ (s.slot 0 7).st ≠ .opening) := by
  refine ⟨?_, ?_, ?_, ?_, ?_, ?_⟩ <;> simp only [RasOk, PermitFree] <;> decide +kernel
theorem trapsNow_of {s : State} {g : Nat} (h : (s.bank g).run = none) (h1 : (s.bank g).trap = none) (h2 : (s.bank g).trapQ = []) (h3 : (s.bank g).multi = none)
    (h4 : (s.leader (ropeOf g)).rewind = none) : TrapsNow s g := ⟨h1, h2, h3, fun r e => by rw [h] at e; exact absurd e (by simp), h4⟩
theorem witness_RowTransients_closing :
    (let s := atS 30 7 { Slot.reset with st := .closing, until_ := 30, debt := 1 }
     (s.slot 0 7).st = .closing ∧ (s.slot 0 7).until_ ≤ s.cycle ∧ (s.slot 0 7).alert = [] ∧ (s.slot 0 7).forced ≠ 2) ∧
    (let s := atS 30 7 { Slot.reset with st := .closing, until_ := 30, forced := 2 }
     (s.slot 0 7).st = .closing ∧ (s.slot 0 7).forced = 2 ∧ Own s 0 7 ∧ TrapsNow s 0) ∧
    (let s := atS 30 7 { Slot.reset with busy := true, until_ := 30, debt := 1 }
     (s.slot 0 7).busy = true ∧ (s.slot 0 7).until_ ≤ s.cycle ∧ (s.slot 0 7).alert = [] ∧ (s.bank 0).multi = none ∧ (s.slot 0 7).st = .closed ∧ 0 < (s.slot 0 7).debt ∧ PermitFree s 0) ∧
    (let s := atS 30 7 { Slot.reset with busy := true, until_ := 30, debt := 0 }
     (s.slot 0 7).debt ≤ 0 ∧ (s.slot 0 7).busy = true) ∧
    (let s := atS 30 7 { Slot.reset with st := .closing, until_ := 30, alert := [1023] }
     (s.slot 0 7).st = .closing ∧ (s.slot 0 7).alert = 1023 :: [] ∧ (s.bank 0).multi = none ∧ PermitFree s 0) := by
  refine ⟨by decide +kernel, ⟨by decide +kernel, by decide +kernel, by simp only [Own]; decide +kernel, trapsNow_of rfl rfl rfl rfl rfl⟩, ?_⟩
  simp only [PermitFree]; decide +kernel
theorem witness_RefreshAndPermits :
    (let s := atS 625000 0 { Slot.reset with debt := 8 }
     TickDue s 0 0 ∧ (s.slot 0 0).st = .closed ∧ (s.slot 0 0).busy = false) ∧
    (let s := atS 11200 7 { Slot.reset with debt := 7, st := .openClean }
     ¬ TickDue { s with cycle := 11199 } 0 7 ∧ TickDue s 0 7 ∧ (s.slot 0 7).debt = 7 ∧ (s.slot 0 7).st = .openClean ∧ Own s 0 7 ∧ TrapsNow s 0) ∧
    (let s := atS 11200 7 { Slot.reset with debt := 7, st := .openClean, ctx := 1 }
     TickDue s 0 7 ∧ ¬ Own s 0 7 ∧ (s.slot 0 7).forced = 0 ∧ (s.slot 0 7).sw = false ∧ RasOk s 0 7) := by
  refine ⟨by simp only [TickDue]; decide +kernel, ⟨?_, ?_, ?_, ?_, ?_, trapsNow_of rfl rfl rfl rfl rfl⟩, ?_⟩ <;> simp only [TickDue, Own, RasOk] <;> decide +kernel
theorem witness_RefreshAndPermits_forced :
    (∀ sl ∈ [{ Slot.reset with st := .openClean, grace := some 0 }, { Slot.reset with st := .openDirty, grace := some 0, sw := true },
        { Slot.reset with st := .openDirty, grace := some 0, pub := 1, scope := 5, cls := 1 }], let s := atS 160000 7 sl
     (s.slot 0 7).grace = some 0 ∧ 0 + 160000 ≤ s.cycle ∧ s.forceable 0 7 = true ∧ s.live (s.slot 0 7).ctx (s.slot 0 7).inn = true ∧
       (s.task (s.slot 0 7).task).ended = false ∧ (s.slot 0 7).preReq = false ∧ RasOk s 0 7) ∧
    (∀ st ∈ [RowSt.openClean, .openDirty], let r := rq (.load true) (row0 3 12288) false
     let s := withReq { atB { bankS 0 { Slot.reset with st := st } with foreign := [(1, 0)] } with cycle := 70000 } r
     (1, 0) ∈ (s.bank 0).foreign ∧ 0 + 70000 ≤ s.cycle ∧ s.reqs.find? (fun x => x.id == 1) = some r ∧ slotOfPa 12288 = 0 ∧ rowOfPa 12288 ≠ (s.slot 0 0).row ∧
       s.forceable 0 0 = true ∧ s.live (s.slot 0 0).ctx (s.slot 0 0).inn = true ∧ (s.slot 0 0).preReq = false ∧ RasOk s 0 0) ∧
    (let r : PermitReq := { at_ := 0, bank := 0, key := 1 }
     let s := { atS 0 0 { Slot.reset with st := .commitPending } with tiers := [(0, { Tier.reset with value := 1, waiting := [r] })] }
     s.asking 0 = r :: [] ∧ (s.holders 0).length < (s.tier 0).value) := by simp only [RasOk]; decide +kernel
/-- A bank whose rope maps a region of class `cls` at virtual address 0, and whose y5 is the base `a`. -/
def vmB (cls : Nat) (a : Word) : State := { atB { bank8 0x402 4 with y := [(5, a)] } with leaders := [(0, { thr with tlb := [reg cls 1] })] }
def VmemCase (i : Instr) (s : State) (P : VForm → Prop) : Prop := ∃ mk, vformOf i = some mk ∧ VmemReady (mk (s.bank 0)) s 0 ∧ P (mk (s.bank 0))
theorem witness_RowMemoryReads :
    VmemCase (.vld 2 0 0 0 0 5 0) (vmB 3 12582896) (fun f => f.store = false) ∧ VmemCase (.vldx 2 1 0 0 1 0 5 0) (vmB 1 0) (fun f => f.store = false) ∧
    VmemCase (.vldseg 6 1 0 0 0 0 5 0) (vmB 2 12582880) (fun f => f.store = false) ∧ effFmt (bank8 0x402 4).vt 0 < 12 := by
  refine ⟨⟨_, rfl, ⟨rfl, ?_, ?_, ?_, ?_, ?_, ?_⟩, rfl⟩, ⟨_, rfl, ⟨rfl, ?_, ?_, ?_, ?_, ?_, ?_⟩, rfl⟩, ⟨_, rfl, ⟨rfl, ?_, ?_, ?_, ?_, ?_, ?_⟩, rfl⟩, by decide⟩ <;> decide +kernel
theorem witness_RowMemoryStores :
    VmemCase (.vst 2 0 0 0 0 5 0) (vmB 3 12582896) (fun f => f.store = true ∧ OneRegion (vmB 3 12582896) 0 f (reg 3 1)) ∧
    VmemCase (.vstx 2 1 0 0 1 0 5 0) (vmB 2 0) (fun f => f.store = true ∧ OneRegion (vmB 2 0) 0 f (reg 2 1)) := by
  refine ⟨⟨_, rfl, ⟨rfl, ?_, ?_, ?_, ?_, ?_, ?_⟩, rfl, rfl, fun i x h => absurd (show x ∈ ([] : List Region) from h) (by simp), ?_, ?_, ?_⟩, ⟨_, rfl, ⟨rfl, ?_, ?_, ?_, ?_, ?_, ?_⟩, rfl, rfl, fun i x h => absurd (show x ∈ ([] : List Region) from h) (by simp), ?_, ?_, ?_⟩⟩ <;> decide +kernel
theorem witness_PeerForms :
    let s := atB (bank8 0x402 1)
    let n := esizeOf (effFmt (s.bank 0).vt 0)
    Instr.wf (.vldxPeer 2 3 1 0 0 0 0 7) = true ∧ peerOp (.vldxPeer 2 3 1 0 0 0 0 7) = some (2, 3, 1, 0, 0, false, 7) ∧ s.cur = .bank 0 ∧
      (s.bank 0).vl * n ≤ rowLimit (s.bank 0).vt ∧ (s.bank 0).vl * 4 ≤ rowLimit (s.bank 0).vt ∧ s.rowsChk 0 [(1, false), (2, true)] = .ok ∧
      s.vbusy 0 [(1, false), (2, true)] = false ∧ (∀ k, k < 8 → (s.slot 0 k).poison = 0) ∧
      (∀ j x, isActive (s.bank 0) 0 n j → s.peerTarget 0 1 n j = some x → s.peerChk 0 3 false x ≠ .wait) ∧
      ∃ x, isActive (s.bank 0) 0 n 0 ∧ Reaches s 0 3 1 n false 0 x := by
  refine ⟨rfl, rfl, rfl, by decide +kernel, by decide +kernel, by decide +kernel, by decide +kernel, by decide +kernel, ?_, ?_⟩
  · intro j x hj hx
    have h1 : j < 1 := hj.1
    have h0 : j = 0 := by omega
    subst h0
    have h : ((atB (bank8 0x402 1)).peerTarget 0 1 (esizeOf (effFmt ((atB (bank8 0x402 1)).bank 0).vt 0)) 0).all
      (fun x => decide ((atB (bank8 0x402 1)).peerChk 0 3 false x ≠ .wait)) = true := by decide +kernel
    rw [hx] at h
    simpa using h
  · exact ⟨{ el := 0, bank := 0, byte := 0 }, ⟨by decide +kernel, by decide +kernel⟩, by decide +kernel, by decide +kernel⟩
theorem poison_of_bank8 (k : Nat) : ((atB (bank8 0x402 1)).slot 0 k).poison = 0 := by
  have h : ∀ l : List Nat, ∀ k, (tget Slot.reset (l.map fun k => (k, openRow)) k).poison = 0 := by
    intro l k
    induction l with
    | nil => rfl
    | cons a r ih =>
      show (if a = k then openRow else tget Slot.reset (r.map fun k => (k, openRow)) k).poison = 0
      by_cases e : a = k
      · rw [if_pos e]; rfl
      · rw [if_neg e]; exact ih
  exact h _ k
theorem witness_PeerForms_store :
    let s := { atB (bank8 0x402 1) with cycle := 31 }
    peerOp (.vstxPeer 2 3 1 0 0 0 0 7) = some (2, 3, 1, 0, 0, true, 7) ∧ s.rowsChk 0 [(1, false), (2, false)] = .ok ∧ s.vbusy 0 [(1, false), (2, false)] = false ∧
      isActive (s.bank 0) 0 4 0 ∧ Reaches s 0 3 1 4 true 0 { el := 0, bank := 0, byte := 0 } ∧ (s.slot 0 3).lnAt + 31 ≤ s.cycle :=
  ⟨rfl, by decide +kernel, by decide +kernel, ⟨by decide +kernel, by decide +kernel⟩, ⟨by decide +kernel, by decide +kernel⟩, by decide +kernel⟩
theorem witness_Collectives :
    (let s := atBlk 64 0 { bank8 0x402 4 with y := [(5, 511 - 224)] }
     let c : Coll := { bcast := false, d := 2, a := 1, p := 0, e := 0, m := 287 }
     collOp (s.bank 0).yr (.vshuf 2 1 0 0 5) = some (c, 287) ∧ s.cur = .bank 0 ∧ (s.bank 0).run = some (blk 64 0) ∧ (blk 64 0).coll = none ∧ (s.bank 0).tfetch = false ∧
       (s.bank 0).laneAt ≤ s.cycle ∧ effFmt (s.bank 0).vt c.e ≠ 0x12 ∧ (s.bank 0).vl * esizeOf (effFmt (s.bank 0).vt c.e) ≤ rowLimit (s.bank 0).vt ∧
       s.laneHeld 0 (collSpec c (s.bank 0)) = false ∧
       s.rowsChk 0 [(c.a.toNat, false), (c.d.toNat, true)] = .ok ∧ (287#64).toNat < 512 ∧ (287#64).toNat / 32 % 8 = 0) ∧
    (32 ≤ (32#64).toNat ∧ 512 ≤ (512#64).toNat) ∧
    (let c : Coll := { bcast := true, d := 2, a := 1, p := 0, e := 0, m := 31 }
     let r : BlockRun := { blk 64 0 with entry := some 1, parts := 1, coll := some c }
     let s := { atE { bank8 0x402 4 with run := some r } (ent (.vf 65536 0 0)) with cur := .bank 0 }
     s.readyCollective 0 = some [0] ∧ (s.bank (bankOf 0 0)).run = some r ∧ r.coll = some c) := by
  refine ⟨⟨rfl, ?_⟩, ?_⟩ <;> decide +kernel
def xf (tries at_ : Nat) (w : Bool) : Xfer := { kind := 5, src := 1, dst := 2, beat := 3, group := 4, tries := tries, at_ := at_, waits := w }
theorem witness_SpineEvents :
    (let mine := fun (x : Xfer) => x.kind == (5 * 64 + 1) / 64 % 6 && x.src == (5 * 64 + 1) % 64 && x.dst == 2 % 64
     (((at0 thr).leader 0).degraded = false ∧ ((at0 thr).leader 0).xfer.find? mine = none) ∧
     ∀ k ∈ [3, 4], let s := at0 { thr with xfer := [{ xf 0 0 false with kind := 4 }, xf k 0 false] }
      (s.leader 0).degraded = false ∧ (s.leader 0).xfer.find? mine = some (xf k 0 false) ∧ (xf k 0 false).tries = k) ∧
    (let s := { at0 { thr with xfer := [xf 1 0 false, xf 3 0 true] } with cycle := 8 }
     s.copyLive 0 = true ∧ (at0 { thr with bind := none, xfer := [xf 3 0 true] }).copyLive 0 = false) ∧
    (let s := { at0 { thr with xfer := [xf 1 0 false, xf 3 0 true] } with cycle := 8 }
     (s.leader 0).xfer = [xf 1 0 false] ++ xf 3 0 true :: [] ∧ (∀ y ∈ [xf 1 0 false], y.waits = false) ∧ (xf 3 0 true).waits = true ∧ (xf 3 0 true).tries < 4 ∧
       (xf 3 0 true).at_ + 8 ≤ s.cycle ∧ xf 3 0 true ∉ ([] : List Xfer)) ∧
    ((at0 { thr with degraded := true }).leader 0).degraded = true ∧ ∀ k < 6, 8192 * k / 8192 % 6 = k := by
  refine ⟨?_, ?_, ?_, ?_⟩ <;> decide +kernel
def btrap (k : TrapKind) (d : BitVec 2) : BankTrap := { cause := .illegal, disp := d, tpc := 0, tval := 0, telem := 0, kind := k, seen := false }
def trapped31 (k : TrapKind) (d : BitVec 2) (l : Leader) : State := { at0 l with banks := [(bankOf 0 31, { Bank.reset with run := some (blk 64 63), trap := some (btrap k d) })] }
theorem witness_BankTrapDelivery :
    (let s := trapped31 .instr 0 thr
     (s.leader 0).run = true ∧ Free s 0 ∧ (s.bank (bankOf 0 31)).trap = some (btrap .instr 0) ∧ (btrap .instr 0).seen = false ∧ ∀ j, j < 31 → (s.bank (bankOf 0 j)).trap = none) ∧
    (let s := at0 { thr with async := [(1, 2)] }
     (s.leader 0).run = true ∧ Free s 0 ∧ s.pendingBankTrap 0 = none ∧ (s.leader 0).async = (1, 2) :: []) ∧
    (∀ k ∈ [TrapKind.instr, .close, .blockEnd, .entry], ∀ d ∈ [0#2, 1#2, 3#2],
      let s := trapped31 k d { thr with level := 2, csr := { Csrs.reset with tstate := 256, tcause := 0x1F14 } }
      s.cur = .leader 0 ∧ (s.leader 0).level = 2 ∧ (s.leader 0).csr.tstate.getLsbD 8 = true ∧ (s.leader 0).csr.tcause.toNat % 256 = 0x14 ∧
        31 = (s.leader 0).csr.tcause.toNat / 256 % 32 ∧ (s.bank (bankOf 0 31)).trap = some (btrap k d)) ∧
    (let s := trapped31 .instr 0 { thx 0xFFFFFFFFFFEE1 3 with level := 2 }
     Ready s 0 [6, 7] ∧ (s.leader 0).level = 2 ∧ s.heldByBanks 0 = false ∧ eaOf (s.xr 0 6) (0#11).toInt 1 = scratchBase + 0x7FB00 + 32 * 31 + 1 ∧
       (s.bank (bankOf 0 31)).trap = some (btrap .instr 0)) := by simp only [Ready, Free]; decide +kernel
/-- A kernel thread with D in x6 and a value in x7. -/
def kdiag (D : Nat) : State := at0 { thx (BitVec.ofNat 64 D) 7 with level := 2 }
theorem witness_Diagnostics :
    (ReadyK (kdiag (2 ^ 63)) 0 [6, 7] ∧ Free (kdiag (2 ^ 63)) 0 ∧ 2 < (BitVec.ofNat 64 (2 ^ 63)).toNat / 2 ^ 60 ∧ diagOk (BitVec.ofNat 64 (6144 * 2 ^ 40)) = false) ∧
    (diagOk (BitVec.ofNat 64 (6143 * 2 ^ 40 + 7 * 2 ^ 37 + 1023 * 2 ^ 27 + 1535 * 2 ^ 16)) = true ∧
      (BitVec.ofNat 64 (6143 * 2 ^ 40 + 7 * 2 ^ 37 + 1023 * 2 ^ 27 + 1535 * 2 ^ 16)).toNat / 2 ^ 59 = 0) ∧
    (let D := 2 ^ 59 + 7 * 2 ^ 37 + 1535 * 2 ^ 16
     let s := { kdiag D with banks := [(0, bankS 7 openRow)] }
     diagOk (BitVec.ofNat 64 D) = true ∧ (BitVec.ofNat 64 D).toNat / 2 ^ 59 = 1 ∧ s.rowqAimed 0 = false ∧ (s.slot 0 7).st ∈ [RowSt.openClean, .openDirty, .commitPending]) ∧
    (let D := 2 ^ 59
     let s := { kdiag D with banks := [(0, bankS 0 { Slot.reset with st := .opening })] }
     (s.slot 0 0).st = .opening ∧ s.rowqAimed 0 = false ∧ ((kdiag D).slot 0 0).st = .closed ∧ Free (kdiag D) 0) ∧
    (let s := at0 { thx (BitVec.ofNat 64 (2 ^ 59)) 7 with level := 2, rowq := [ent (.vf 65536 0 0)] }
     ReadyK s 0 [6, 7] ∧ s.rowqAimed 0 = true) ∧
    (let D : Word := BitVec.ofNat 64 (6143 * 2 ^ 40)
     (kdiag D.toNat).diagReq 0 (cellWord D) = none ∧
     ∀ m ∈ [false, true], let r := { rq .diag (.row (8 * cellWord D) 3 5 0) (!m) with d := 0, va := 8 * cellWord D, miss := m }
      let s := withReq (kdiag D.toNat) r
      s.diagReq 0 (cellWord D) = some r ∧ r.miss = m) ∧
    (diagOk (BitVec.ofNat 64 (2 ^ 60 + 767 * 2 ^ 40 + 2 ^ 32 + 4895)) = true ∧ (BitVec.ofNat 64 (2 ^ 60 + 767 * 2 ^ 40 + 2 ^ 32 + 4895)).toNat / 2 ^ 60 = 1) ∧
    (diagOk (BitVec.ofNat 64 (2 * 2 ^ 60 + 767 * 2 ^ 40 + 511 * 2 ^ 16 + 95)) = true ∧ (BitVec.ofNat 64 (2 * 2 ^ 60 + 767 * 2 ^ 40 + 511 * 2 ^ 16 + 95)).toNat / 2 ^ 60 = 2) ∧
    (diagOk (BitVec.ofNat 64 (3 * 2 ^ 60 + 191 * 2 ^ 16 + 0x10)) = true ∧ (BitVec.ofNat 64 (3 * 2 ^ 60 + 191 * 2 ^ 16 + 0x10)).toNat / 2 ^ 60 = 3) ∧
    ReadyK (kdiag (2 ^ 12)) 0 [6] ∧ Free (kdiag (2 ^ 12)) 0 ∧ ((kdiag (2 ^ 12)).xr 0 6).toNat / 2 ^ 12 % 2 ^ 51 ≠ 0 ∧ ((kdiag (2 ^ 63 + 4095)).xr 0 6).toNat / 2 ^ 12 % 2 ^ 51 = 0 := by
  refine ⟨?_, ?_, ?_, ?_, ?_, ?_, ?_, ?_, ?_, ?_⟩ <;> first | decide +kernel | (simp only [ReadyK, Ready, Free]; decide +kernel)
theorem witness_PreemptionAndRestore_trap :
    let s := trapped31 .instr 0 { thr with preempt := true }
    (s.leader 0).bind = some bareBinding ∧ (s.leader 0).preempt = true ∧ (s.leader 0).run = true ∧ (s.leader 0).killed = false ∧ s.live bareBinding.ctx bareBinding.inn = true ∧
      s.ropeYields 0 = true ∧ s.pendingBankTrap 0 = some (31, btrap .instr 0) ∧ Free s 0 ∧ (s.leader 0).pendTrap = none := by simp only [Free]; decide +kernel

/-! ### Witnesses: matrix commands -/

/-- x1 is 0, x2 512 rows, x3 the last line; x10 to x15 hold an INT8 tile, x20 to x25 an assayed MX8 tile over BF16. -/
def matX : Tbl Word := [(2, 512), (3, 511), (14, BitVec.ofNat 64 (96 * 2 ^ 16 + 1)), (15, BitVec.ofNat 64 (2 * 2 ^ 10 + 511)),
  (20, BitVec.ofNat 64 (0x0C * 2 ^ 57)), (21, BitVec.ofNat 64 (8 * 2 ^ 57)), (22, BitVec.ofNat 64 (0x0C * 2 ^ 57)), (23, BitVec.ofNat 64 (8 * 2 ^ 57)),
  (24, BitVec.ofNat 64 (96 * 2 ^ 16 + 1)), (25, BitVec.ofNat 64 (511 * 2 ^ 32))]
def cmd (kind : Nat) (ops : List Word) (flags : Nat) : MatCmd :=
  { kind := kind, arr := 0, ops := ops, flags := flags, pc := 0, frm := 0, vxrm := 0, vt := 0, abr := 0, shift := 16, ctx := 0, inn := 0, task := 0, leader := 0, tok := none, num := 1 }
def matS (k : Nat) : State := at0 { thr with x := matX, matq := List.replicate k (cmd 2 [0] 0) }
def MatCase (s : State) (i : Instr) (P : Option Word → Prop) : Prop := ∃ kind arr srcs ops flags bad, i.wf = true ∧
  matOp (s.leader 0).xr i = some (kind, arr, srcs, ops, flags, bad) ∧ Ready s 0 srcs ∧ drainPlain i ∧ P (bad s.grantedBanks ((s.leader 0).csr.vt.getLsbD 11 || (s.leader 0).protOf))
theorem ready_matS (k : Nat) (srcs : List Nat) : Ready (matS k) 0 srcs := ⟨rfl, fun _ _ _ => ⟨rfl, rfl⟩⟩
theorem witness_MatrixIssue :
    (MatCase (matS 31) (.mlds 3 1 1 1) (· = none) ∧ MatCase (matS 31) (.mstr 3 1 2 1 1 1) (· = none) ∧ MatCase (matS 31) (.mzero 0 3) (· = none) ∧
     MatCase (matS 31) (.mdrain 1 1 2 0 0 0 0 0) (· = none) ∧ MatCase (matS 31) (.mdrain 1 1 2 3 1 1 1 1) (· = none) ∧ MatCase (matS 31) (.macld 0 1 3) (· = none) ∧
     MatCase (matS 31) (.macst 0 1 3) (· = none) ∧ MatCase (matS 31) (.mtile 2 10) (· = none) ∧ MatCase (matS 31) (.mtileAs 2 20) (· = none)) ∧
    ((matS 31).leader 0).matq.length < 32 ∧ (MatCase (matS 0) (.mzero 0 14) (· = some (BitVec.ofNat 64 (96 * 2 ^ 16 + 1))) ∧ Free (matS 0) 0) ∧
    (MatCase (matS 32) (.mzero 0 3) (· = none) ∧ 32 ≤ ((matS 32).leader 0).matq.length) := by
  refine ⟨⟨?_, ?_, ?_, ?_, ?_, ?_, ?_, ?_, ?_⟩, by decide +kernel, ⟨?_, rfl⟩, ?_, by decide +kernel⟩
  all_goals refine ⟨_, _, _, _, _, _, rfl, rfl, ready_matS _ _, ?_, ?_⟩
  all_goals first | trivial | (simp only [drainPlain]; decide)

/-- A read of plain bytes of scratch answers its bytes. -/
theorem scratchRead (s : State) (n ep o len : Nat) (prot : Bool) {D : Word} (h : dSpace D = 1) : ∃ bs, s.srcRead n ep prot D o len = .ok bs :=
  ⟨(s.srcBytes n ep prot D o len).map fun b => b.1, by simp [State.srcRead, State.srcBytes, h]⟩
theorem scratchImage (s : State) (n ep : Nat) (prot : Bool) {D : Word} (h : dSpace D = 1) (hf : dFmt D = 0) : ∃ ms, s.readImages n ep prot D [0] = .ok ms := by
  obtain ⟨bs, hb⟩ := scratchRead s n ep 0 18432 prot h
  exact ⟨[toMem 0 bs], by simp [State.readImages, State.readImage, imgPieces, isBpi, hf, imgBytes, imgScales, hb]⟩
def failsTo {ε α : Type} [DecidableEq ε] (x : Except ε α) (e : ε) : Bool := match x with | .error f => decide (f = e) | .ok _ => false
theorem failsTo_eq {ε α : Type} [DecidableEq ε] {x : Except ε α} {e : ε} (h : failsTo x e = true) : x = .error e := by
  cases x with
  | ok _ => simp [failsTo] at h
  | error f => simp [failsTo] at h; rw [h]
/-- The descriptor of scratch from its start, and of W-space from its start. -/
def dScr : Word := BitVec.ofNat 64 (2 ^ 62)
def dWgt : Word := BitVec.ofNat 64 (3 * 2 ^ 62)
/-- A WEIGHT region over the first extent of W-space, at virtual address 0. -/
def regW : Region where
  idx := 0
  dw0 := BitVec.ofNat 64 (2 ^ 63 + 4 * 2 ^ 60 + 2 * 2 ^ 55 + 2 ^ 54)
  dw1 := BitVec.ofNat 64 (2 ^ 19)
  dw2 := 0
  dw3 := 0
/-- Array 0 runs command `c` in stream `k`. -/
def arrRun (k : Nat) (c : MatCmd) : Array_ :=
  match k with
  | 0 => { Array_.reset with cur := some 0, stream0 := [c] }
  | 1 => { Array_.reset with cur := some 1, stream1 := some c }
  | 2 => { Array_.reset with cur := some 2, stream2 := some c }
  | _ => { Array_.reset with cur := some k, stream3 := some c }
def withArr (s : State) (a : Array_) : State := { s with arrays := [(0, a)] }
def weighted (fs : List SFrame) : Weights := { Weights.reset with exts := [(0, { cur := some 5, since := 0, prev := none })], frames := fs }
theorem witness_MatrixStreamsRun_streams :
    (let s := withArr (at0 { thr with matq := [cmd 2 [0] 0, cmd 2 [3] 0] }) { Array_.reset with stream0 := [cmd 2 [0] 0] }
     (s.leader 0).matq = cmd 2 [0] 0 :: [cmd 2 [3] 0] ∧ s.live (cmd 2 [0] 0).ctx (cmd 2 [0] 0).inn = true ∧ (s.array (4 * 0 + (cmd 2 [0] 0).arr)).stream0.length < 2) ∧
    (let s := withArr (at0 { thr with matq := [cmd 2 [0] 0] }) { Array_.reset with stream0 := [cmd 2 [0] 0, cmd 2 [0] 0], cur := some 0 }
     (s.array 0).stream0.length < 3 ∧ (s.array 0).cur = some 0) ∧
    (let a := { Array_.reset with stream0 := [cmd 2 [0] 0], stream3 := some (cmd 2 [511] 0), ages := [(3, 2048)] }
     a.choose [0, 3] = some 3 ∧ ∃ j ∈ [0, 3], 2048 ≤ tget 0 a.ages j) ∧
    (let a := { Array_.reset with stream0 := [cmd 2 [0] 0], stream3 := some (cmd 2 [511] 0), ages := [(3, 2047)] }
     a.choose [0, 3] = some 0 ∧ a.choose [] = none ∧ ∀ j ∈ [0, 3], tget 0 a.ages j < 2048) ∧
    (let s := withArr (at0 thr) { Array_.reset with stream3 := some (cmd 1 [dScr, 1, 0] 1), p1 := { Plane.reset with st := 2 } }
     (s.array 0).cur = none ∧ (s.array 0).choose ((List.range 4).filter fun k => s.streamReady 0 k) = some 3 ∧ (s.array 0).head 3 = some (cmd 1 [dScr, 1, 0] 1) ∧
       (cmd 1 [dScr, 1, 0] 1).kind = 1) ∧
    (let s := withArr (at0 thr) { Array_.reset with stream0 := [cmd 0 [dScr, 0] 1] }
     (s.array 0).choose ((List.range 4).filter fun k => s.streamReady 0 k) = some 0 ∧ (s.array 0).head 0 = some (cmd 0 [dScr, 0] 1) ∧ s.cmdCheck 0 0 (cmd 0 [dScr, 0] 1) = none) := by
  decide +kernel
def dPast : Word := BitVec.ofNat 64 (2 ^ 62 + 0x80000)
theorem witness_MatrixStreamsRun_loads :
    (let c := cmd 0 [dScr, 0] 1
     let s := withArr (at0 thr) (arrRun 3 c)
     Runs s 0 3 c ∧ c.kind = 0 ∧ s.imageCheck c.leader (tget 0 (s.array 0).eps 3) c.prot (c.op 0) (mldsOffsets (c.op 0) (c.op 1) c.prot) = none ∧
       ∃ ms, s.readImages c.leader (tget 0 (s.array 0).eps 3) c.prot (c.op 0) (mldsOffsets (c.op 0) (c.op 1) c.prot) = .ok ms) ∧
    (let c := cmd 0 [dWgt, 0] 1
     let s := { withArr (at0 { thr with tlb := [regW] }) (arrRun 0 c) with weights := weighted [] }
     Runs s 0 0 c ∧ c.kind = 0 ∧
       s.imageCheck c.leader (tget 0 (s.array 0).eps 0) c.prot (c.op 0) (mldsOffsets (c.op 0) (c.op 1) c.prot) = some (.wait [(5, 0)])) ∧
    (let c := cmd 0 [dPast, 0] 1
     let s := withArr (at0 thr) (arrRun 0 c)
     Runs s 0 0 c ∧ c.kind = 0 ∧
       s.imageCheck c.leader (tget 0 (s.array 0).eps 0) c.prot (c.op 0) (mldsOffsets (c.op 0) (c.op 1) c.prot) = some (.fault .regionMiss)) := by
  refine ⟨⟨by simp only [Runs]; decide +kernel, rfl, by decide +kernel, ?_⟩, ?_, ?_⟩
  · have h : mldsOffsets ((cmd 0 [dScr, 0] 1).op 0) ((cmd 0 [dScr, 0] 1).op 1) (cmd 0 [dScr, 0] 1).prot = [0] := by decide +kernel
    simp only [h]
    exact scratchImage _ _ _ _ (by decide +kernel) (by decide +kernel)
  · simp only [Runs]; decide +kernel
  · simp only [Runs]; decide +kernel
theorem scratchBytes {s : State} {n ep o len : Nat} {prot : Bool} {D : Word} (h : dSpace D = 1) :
    (∀ b ∈ s.srcBytes n ep prot D o len, b.2 = false) ∧ (s.srcBytes n ep prot D o len).length = len := by
  simp [State.srcBytes, h]
theorem witness_MatrixStreamsRun_lines :
    (let c := cmd 2 [BitVec.ofNat 64 511] 0
     let s := withArr (at0 thr) (arrRun 0 c)
     Runs s 0 0 c ∧ c.kind = 2) ∧
    (let c := cmd 4 [dScr, BitVec.ofNat 64 511] 0
     let s := withArr (at0 thr) (arrRun 1 c)
     let ep := tget 0 (s.array 0).eps 1
     let m := (c.op 1).toNat / 2 ^ 9 % 2 ^ 9 + 1
     let bs := s.srcBytes c.leader ep c.prot (c.op 0) 0 (768 * m)
     Runs s 0 1 c ∧ c.kind = 4 ∧ m = 1 ∧ s.cmdCheck 0 1 c = none ∧ (∀ b ∈ bs, b.2 = false) ∧ bs.length = 768 * m) := by
  have hd : dSpace ((cmd 4 [dScr, BitVec.ofNat 64 511] 0).op 0) = 1 := by decide +kernel
  refine ⟨by simp only [Runs]; decide +kernel, by simp only [Runs]; decide +kernel, rfl, by decide +kernel, by decide +kernel, ?_⟩
  exact scratchBytes hd
/-- A run of row register 0 at a rope whose first bank holds a poisoned word there. -/
def dRun : Word := BitVec.ofNat 64 (2 ^ 63)
theorem witness_MatrixStreamsRun_poison :
    let c := cmd 4 [dRun, BitVec.ofNat 64 511] 0
    let s := { withArr (at0 thr) (arrRun 1 c) with banks := [(0, { Bank.reset with slots := [(0, { openRow with poison := 1 })] })] }
    let bs := s.srcBytes c.leader (tget 0 (s.array 0).eps 1) c.prot (c.op 0) 0 768
    Runs s 0 1 c ∧ s.cmdCheck 0 1 c = none ∧ bs.length = 768 ∧ ∃ b ∈ bs, b.2 = true := by
  simp only [Runs]; decide +kernel

/-! ### Witnesses: tiles -/

theorem scratchUnit (s : State) (n ep om orun : Nat) (prot : Bool) {D : Word} (h : dSpace D = 1) : ∃ us, s.readUnits n ep prot D [(om, orun)] = .ok us := by
  obtain ⟨bs, hb⟩ := scratchRead s n ep om (unitMem (dFmt D)) prot h
  exact ⟨[unitOfMem (dFmt D) bs], by simp [State.readUnits, State.readUnit, h, hb]⟩
/-- An INT8 tile of one row and two steps, and an assayed BF16 tile of one row that replays at K = 48. -/
def tileC : MatCmd := cmd 6 [dScr, 0, dScr, 0, BitVec.ofNat 64 (192 * 2 ^ 16 + 1), BitVec.ofNat 64 (2 * 2 ^ 10 + 511)] 0
def tileA : MatCmd := cmd 7 [dScr, dScr, dScr, dScr, BitVec.ofNat 64 (96 * 2 ^ 16 + 1), BitVec.ofNat 64 (511 * 2 ^ 32)] 1
def tile (pass kstep sat : Nat) (j : Option (Nat × Option Bool)) : Tile :=
  { pass := pass, grp := 0, kstep := kstep, sat := sat, ufl := 0, can := 0, flags := 0, seq := 1, judged := j }
def tileS (c : MatCmd) (k : Nat) (u : Option Tile) : State := withArr (at0 thr) { arrRun k c with tiles := tput none [] k u }
theorem witness_Tiles_step :
    let c := tileC
    let s := tileS c 0 none
    let t0 := Tile.start c
    ∃ b ms us, (Runs s 0 0 c ∧ c.isTile = true ∧ ((s.array 0).tile 0).getD (Tile.start c) = t0 ∧ t0.kstep + 1 < stepsOf c t0.pass ∧ dFmt (passB c t0.pass) ≠ 0x0B) ∧
      s.stepCheck 0 0 c t0 (tget 0 (s.array 0).eps 0) = none ∧ (s.array 0).tileInit 0 c = .ok b ∧ (s.array 0).preloaded 0 (dFmt (passB c t0.pass)) t0 = false ∧
      s.readImages c.leader (tget 0 (s.array 0).eps 0) c.prot (passB c t0.pass) (stepOffsets c t0) = .ok ms ∧
      s.readUnits c.leader (tget 0 (s.array 0).eps 0) c.prot (passA c t0.pass) (stepUnits c t0) = .ok us ∧
      b.badLines [linesOf (accMode (c.op 5)) (tileDst c) c.rows] = false ∧ b.unitLost (passA c t0.pass) = false ∧
      (planeOf (dFmt (passB c t0.pass)) 0 (mirrored c t0.pass) ms).bad = 0 := by
  have h : stepOffsets tileC (Tile.start tileC) = [0] := by decide +kernel
  have h2 : stepUnits tileC (Tile.start tileC) = [(0, 0)] := by decide +kernel
  obtain ⟨ms, hm⟩ := scratchImage (tileS tileC 0 none) tileC.leader (tget 0 ((tileS tileC 0 none).array 0).eps 0) tileC.prot (D := passB tileC (Tile.start tileC).pass)
    (by decide +kernel) (by decide +kernel)
  obtain ⟨us, hu⟩ := scratchUnit (tileS tileC 0 none) tileC.leader (tget 0 ((tileS tileC 0 none).array 0).eps 0) 0 0 tileC.prot (D := passA tileC (Tile.start tileC).pass)
    (by decide +kernel)
  refine ⟨(tileS tileC 0 none).array 0, ms, us, ⟨by simp only [Runs]; decide +kernel, rfl, rfl, by decide +kernel, by decide +kernel⟩, by decide +kernel, rfl, by decide +kernel, ?_, ?_,
    by decide +kernel, by decide +kernel, rfl⟩
  · rw [h]; exact hm
  · rw [h2]; exact hu
def Judges (s : State) (k : Nat) (c : MatCmd) (u : Tile) : Prop :=
  Runs s 0 k c ∧ (s.array 0).tile k = some u ∧ u.pass = 1 ∧ stepsOf c 1 ≤ u.kstep ∧ u.judged = none ∧ s.recorded c u = none
def quality : Tbl Task := [(0, { Task.reset with rcd := [BitVec.ofNat 64 (2 ^ 52)], allow := 1 })]
theorem witness_Tiles_verdict :
    (Judges (tileS tileA 3 (some (tile 1 1 0 none))) 3 tileA (tile 1 1 0 none) ∧ ∀ e, e < 3 → ¬ exceeds (tile 1 1 0 none) tileA.abr e) ∧
    (let s := { tileS tileA 0 (some (tile 1 1 1 none)) with tasks := quality }
     Judges s 0 tileA (tile 1 1 1 none) ∧ exceeds (tile 1 1 1 none) tileA.abr 0 ∧ ((s.task tileA.task).dw 0).getLsbD 52 = true) ∧
    (let s := tileS tileA 0 (some (tile 1 1 1 none))
     Judges s 0 tileA (tile 1 1 1 none) ∧ exceeds (tile 1 1 1 none) tileA.abr 0 ∧ ((s.task tileA.task).dw 0).getLsbD 52 = false) := by
  refine ⟨⟨?_, ?_⟩, ⟨?_, ?_, ?_⟩, ?_, ?_, ?_⟩
  · simp only [Judges, Runs]; decide +kernel
  · intro e he
    rcases e with _ | _ | _ | e
    · exact (by decide +kernel : ¬ (tileA.abr.toNat / 2 ^ 32 % 2 ^ 16 < (tile 1 1 0 none).sat))
    · exact (by decide +kernel : ¬ (tileA.abr.toNat / 2 ^ 16 % 2 ^ 16 < (tile 1 1 0 none).ufl))
    · exact (by decide +kernel : ¬ (tileA.abr.toNat % 2 ^ 16 < (tile 1 1 0 none).can))
    · omega
  · simp only [Judges, Runs]; decide +kernel
  · exact (by decide +kernel : tileA.abr.toNat / 2 ^ 32 % 2 ^ 16 < (tile 1 1 1 none).sat)
  · decide +kernel
  · simp only [Judges, Runs]; decide +kernel
  · exact (by decide +kernel : tileA.abr.toNat / 2 ^ 32 % 2 ^ 16 < (tile 1 1 1 none).sat)
  · decide +kernel
theorem witness_Tiles_allowance :
    (let u := tile 1 1 1 (some (7, none))
     let s := { tileS tileA 1 (some u) with tasks := quality }
     Runs s 0 1 tileA ∧ (s.array 0).tile 1 = some u ∧ u.pass = 1 ∧ stepsOf tileA 1 ≤ u.kstep ∧ u.judged = some (7, none) ∧ 0 < (s.task tileA.task).allow ∧
       ((s.array 0).initRows tileA).toOption.isSome = true) ∧
    (let u := tile 1 1 1 (some (1, none))
     let s := tileS tileA 1 (some u)
     Runs s 0 1 tileA ∧ (s.array 0).tile 1 = some u ∧ stepsOf tileA 1 ≤ u.kstep ∧ (s.task tileA.task).allow = 0) := by
  simp only [Runs]; decide +kernel
theorem witness_Tiles_commit :
    (∀ u ∈ [tile 1 1 0 (some (0, none)), tile 1 1 0 (some (7, some false)), tile 2 2 0 (some (1, some true))],
      Runs (tileS tileA 0 (some u)) 0 0 tileA ∧ tileA.isTile = true ∧ ((tileS tileA 0 (some u)).array 0).tile 0 = some u ∧
        ((tileS tileA 0 (some u)).array 0).badLines [((accLines (tileA.op 5) (accSrow (tileA.op 5)) tileA.rows).1, (accLines (tileA.op 5) (accRow (tileA.op 5)) tileA.rows).2)] = false) ∧
    (tile 2 2 0 (some (1, some true))).pass = 2 ∧ stepsOf tileA 2 ≤ (tile 2 2 0 (some (1, some true))).kstep := by simp only [Runs]; decide +kernel

/-! ### Witnesses: copies -/

/-- x1 to x6: a copy of one byte of virtual address 0 to scratch; x7 to x9 a stream's registers; x10 to x15 and x20 to x25 tiles; x26 the longest
staging; x27 to x29 the longest consignment. -/
def copyX : Tbl Word := [(2, dScr), (3, 1), (8, 512), (14, BitVec.ofNat 64 (96 * 2 ^ 16 + 1)), (15, BitVec.ofNat 64 (2 * 2 ^ 10 + 511)),
  (20, BitVec.ofNat 64 (0x0C * 2 ^ 57)), (21, BitVec.ofNat 64 (8 * 2 ^ 57)), (22, BitVec.ofNat 64 (0x0C * 2 ^ 57)), (23, BitVec.ofNat 64 (8 * 2 ^ 57)),
  (24, BitVec.ofNat 64 (96 * 2 ^ 16 + 1)), (25, BitVec.ofNat 64 (511 * 2 ^ 32)), (26, BitVec.ofNat 64 (2 ^ 32)), (29, 64)]
/-- A copy command with token 7, of `len` bytes from scratch to scratch at `d`. -/
def ccmd (kind d len : Nat) (f : Option MatCmd) : CopyCmd :=
  { kind := kind, tok := 7, xf := 0, ops := [dScr, BitVec.ofNat 64 (2 ^ 62 + d), BitVec.ofNat 64 len, 0, 0, 0], follow := f, vt := 0, frm := 0, num := 1, task := 0 }
def tokS (st : TokSt) (kind : Nat) : Token := { Token.reset with st := st, kind := kind, num := 1 }
def copyS (k : Nat) (st : TokSt) : State := at0 { thr with x := copyX, level := 1, copyq := List.replicate k (ccmd 0 0 1 none), toks := [(7, tokS st 0)] }
def CopyCase (s : State) (i : Instr) (P : Option Word → Prop) : Prop := ∃ kind xf srcs ops bad, i.wf = true ∧
  copyOp (s.leader 0).xr i = some (kind, 7, xf, srcs, ops, bad) ∧ Ready s 0 srcs ∧ (kind = 3 → 1 ≤ (s.leader 0).level.toNat) ∧
  P (bad s.grantedBanks ((s.leader 0).csr.vt.getLsbD 11 || (s.leader 0).protOf))
theorem ready_copyS (k : Nat) (st : TokSt) (srcs : List Nat) : Ready (copyS k st) 0 srcs := ⟨rfl, fun _ _ _ => ⟨rfl, rfl⟩⟩
theorem witness_CopyIssue :
    (CopyCase (copyS 31 .fault) (.copy 7 1 0) (· = none) ∧ CopyCase (copyS 31 .fault) (.copym 7 1 7 3 0 1 1 0) (· = none) ∧
     CopyCase (copyS 31 .fault) (.copym 7 1 10 0 1 0 0 0) (· = none) ∧ CopyCase (copyS 31 .fault) (.copym 7 1 20 1 1 1 0 0) (· = none) ∧
     CopyCase (copyS 31 .fault) (.stage 7 1 26) (· = none) ∧ CopyCase (copyS 31 .fault) (.consign 7 27) (· = none)) ∧
    (isFree (((copyS 31 .fault).leader 0).tok 7) ∧ ((copyS 31 .fault).leader 0).copyq.length < 32) ∧
    (CopyCase (copyS 0 .idle) (.consign 7 13) (· = some (BitVec.ofNat 64 (2 * 2 ^ 10 + 511))) ∧ CopyCase (copyS 0 .idle) (.stage 7 1 2) (· = some dScr) ∧ Free (copyS 0 .idle) 0) ∧
    (¬ isFree (((copyS 0 .queued).leader 0).tok 7) ∧ CopyCase (copyS 0 .queued) (.copy 7 1 0) (· = none)) ∧
    32 ≤ ((copyS 32 .idle).leader 0).copyq.length ∧ CopyCase (copyS 32 .idle) (.copy 7 1 0) (· = none) := by
  refine ⟨⟨?_, ?_, ?_, ?_, ?_, ?_⟩, ⟨by simp only [isFree]; decide +kernel, by decide +kernel⟩, ⟨?_, ?_, rfl⟩, ⟨by simp only [isFree]; decide +kernel, ?_⟩, by decide +kernel, ?_⟩
  all_goals refine ⟨_, _, _, _, _, rfl, rfl, ready_copyS _ _ _, by decide +kernel, ?_⟩
  all_goals (show (_ : Option Word) = _; decide +kernel)
def tokAt7 (t : Token) (l : Leader) : State := at0 { l with toks := [(7, t)] }
def crun (d len prog : Nat) (stop : Bool) (buf : List (BitVec 8)) (f : Option MatCmd) : CopyRun :=
  { cmd := ccmd 0 d len f, started := true, prog := prog, stop := stop, ep := 0, rgns := [], buf := buf }
def shadow1 : PStore :=
  { agent := leaderAgent 0, ctx := 0, inn := 0, task := 0, kind := .shadow, cmd := 1, done := true, seen := false, cls := 1, scope := 0, home := 0, pa := 0, data := [0],
    strip := false, isCopy := true }
theorem witness_CancelAndWait :
    ((∀ st ∈ [TokSt.idle, .done, .fault, .queued], Ready (tokAt7 (tokS st 0) thr) 0 [] ∧ (((tokAt7 (tokS st 0) thr).leader 0).tok (7#3).toNat).st = st) ∧
     (let r := crun 0 1 0 false [] none
      let s := tokAt7 (tokS .running 1) { thr with copyRun := some r }
      Ready s 0 [] ∧ ((s.leader 0).tok (7#3).toNat).st = .running ∧ ((s.leader 0).tok (7#3).toNat).kind < 2 ∧ (s.leader 0).copyRun = some r ∧ r.cmd.tok = (7#3).toNat) ∧
     (let s := { tokAt7 (tokS .running 2) thr with weights := { Weights.reset with stages := [(0, ccmd 2 0 1 none)] } }
      Ready s 0 [] ∧ ((s.leader 0).tok (7#3).toNat).st = .running ∧ ((s.leader 0).tok (7#3).toNat).kind = 2 ∧ (0, ccmd 2 0 1 none) ∈ s.weights.stages ∧ (ccmd 2 0 1 none).task = (s.leader 0).taskOf)) ∧
    (let s := tokAt7 (tokS .done 0) { thr with matq := [cmd 2 [0] 0] }
     Ready s 0 [] ∧ WaitHolds s 0 0xFF 0 14 15 1 ∧ ¬ WaitHolds s 0 0 15 15 15 0 ∧
     ∃ p, p ∈ { s with pend := [shadow1] }.pend ∧ p.agent = leaderAgent 0 ∧ p.task = (s.leader 0).taskOf ∧ p.kind = .shadow ∧ p.done = true ∧ p.isCopy = true ∧
       ∃ k, k < 8 ∧ (0xFF#8).getLsbD k = true ∧ ((s.leader 0).tok k).num = p.cmd) := by
  refine ⟨⟨by simp only [Ready]; decide +kernel, by simp only [Ready]; decide +kernel, by simp only [Ready]; decide +kernel⟩, by simp only [Ready]; decide +kernel, by simp only [WaitHolds, isFree]; decide +kernel,
    by simp only [WaitHolds, isFree]; decide +kernel, _, List.mem_singleton.mpr rfl, rfl, rfl, rfl, rfl, rfl, 7, by decide, by decide, by decide +kernel⟩
theorem witness_CopyStarts :
    (let c := ccmd 0 0 1 none
     let s := { at0 { thr with copyq := [c] } with tasks := [(0, { Task.reset with rcd := List.replicate 19 1 })] }
     s.copyLive 0 = true ∧ s.yielding 0 = false ∧ s.stopping 0 = false ∧ (s.leader 0).copyRun = none ∧ (s.leader 0).copyq = c :: [] ∧ c.kind < 2 ∧ ¬ overBytes (s.task (s.leader 0).taskOf) ((s.task (s.leader 0).taskOf).copyBytes + c.charge) ∧
       ¬ overBytes (s.task (s.leader 0).taskOf) (s.task (s.leader 0).taskOf).copyBytes ∧ (s.task (s.leader 0).taskOf).rcd ≠ [] ∧
       s.copyProbe 0 c.prot (c.ops.getD 1 0) (c.runs c.prot) = .ok none) ∧
    (let c := ccmd 1 0x7FAFF 2 (some (cmd 1 [0, 1, 0] 0))
     let s := at0 { thr with copyq := [c] }
     ¬ overBytes (s.task (s.leader 0).taskOf) ((s.task (s.leader 0).taskOf).copyBytes + c.charge) ∧
       s.copyProbe 0 c.prot (c.ops.getD 1 0) (c.runs c.prot) = .ok (some (.permission, 1, BitVec.ofNat 64 (scratchBase + 0x7FB00)))) ∧
    (let s := { at0 { thr with copyq := [ccmd 0 0 1 none] } with tasks := [(0, { Task.reset with rcd := List.replicate 19 1, copyBytes := 2 })] }
     overBytes (s.task (s.leader 0).taskOf) (s.task (s.leader 0).taskOf).copyBytes) ∧
    (let s := { at0 { thr with copyq := [ccmd 0 0 2 none] } with tasks := [(0, { Task.reset with rcd := List.replicate 19 1 })] }
     overBytes (s.task (s.leader 0).taskOf) ((s.task (s.leader 0).taskOf).copyBytes + (ccmd 0 0 2 none).charge) ∧
       ¬ overBytes (s.task (s.leader 0).taskOf) (s.task (s.leader 0).taskOf).copyBytes) ∧
    (∀ k ∈ [2, 3], ((at0 { thr with copyq := [ccmd k 0 1 none] }).leader 0).copyRun = none ∧ ((at0 { thr with copyq := [ccmd k 0 1 none] }).leader 0).copyq = ccmd k 0 1 none :: []) := by
  refine ⟨⟨by decide +kernel, by decide +kernel, by decide +kernel, by decide +kernel, by decide +kernel, by decide +kernel, by simp only [overBytes]; decide +kernel,
    by simp only [overBytes]; decide +kernel, by decide +kernel, goesTo_eq (by decide +kernel)⟩, ⟨by simp only [overBytes]; decide +kernel, goesTo_eq (by decide +kernel)⟩,
    by simp only [overBytes]; decide +kernel, by simp only [overBytes]; decide +kernel, by decide +kernel⟩
def okNone {ε α : Type} (x : Except ε (Option α)) : Bool := match x with | .ok none => true | _ => false
theorem okNone_eq {ε α : Type} {x : Except ε (Option α)} (h : okNone x = true) : x = .ok none := by
  cases x with
  | error _ => simp [okNone] at h
  | ok v => cases v with
    | none => rfl
    | some _ => simp [okNone] at h
theorem witness_CopyMoves :
    (let r := crun (0x7FB00 - 129) 129 0 false [] none
     let s := at0 { thr with copyRun := some r }
     let v := s.probedBefore 0 r.rgns
     (s.leader 0).copyRun = some r ∧ EngineFree s 0 r.prog ∧ r.cmd.xf = 0 ∧ r.stop = false ∧ r.buf = [] ∧ (r.cmd.ops.getD 1 0).toNat / 2 ^ 62 = 1 ∧
     ∃ run, runAtProg r.prog 0 (r.cmd.runs r.cmd.prot) = some (run, r.prog) ∧ run.dsts = [.mem 0 129 0] ∧ (∀ e ∈ v.crunPages 0 r.ep run, s.staged e.1 e.2 = true) ∧
       v.runProbeAll 0 r.cmd.prot (r.cmd.ops.getD 1 0) (run.rowEnds (r.cmd.ops.getD 1 0)) = .ok none ∧ ∀ e ∈ run.srcs.flatMap (fun x => v.csrcBytes 0 r.ep r.cmd.prot x), e.1.2 = false) ∧
    (let r := crun 0 129 0 true (List.replicate 129 0) none
     let s := at0 { thr with copyRun := some r }
     (s.leader 0).copyRun = some r ∧ EngineFree s 0 r.prog ∧ r.buf ≠ [] ∧ r.stop = true ∧ ∃ run, runAtProg r.prog 0 (r.cmd.runs r.cmd.prot) = some (run, 0) ∧
       (r.prog + min (r.cmd.piece - r.prog % r.cmd.piece) (run.len - (r.prog - 0))) % 128 = 0 ∧ r.prog + min (r.cmd.piece - r.prog % r.cmd.piece) (run.len - (r.prog - 0)) < r.cmd.total r.cmd.prot) ∧
    (∀ f ∈ [none, some (cmd 1 [0, 1, 0] 0)], (at0 { thr with copyRun := some (crun 0 129 129 false [] f) }).copyLive 0 = true ∧ (crun 0 129 129 false [] f).cmd.total (crun 0 129 129 false [] f).cmd.prot ≤ (crun 0 129 129 false [] f).prog) ∧
    (let f := cmd 1 [0, 1, 0] 0
     let c := ccmd 1 0 1 (some f)
     let d := ccmd 1 0 1 (some { f with arr := 1 })
     let full := { Array_.reset with stream1 := some { f with num := 9 }, stream2 := some { f with num := 9 }, stream3 := some { f with num := 9 } }
     (∀ k, k < 3 →
      let s := { at0 { thr with follow := [d, c] } with arrays :=
        [(0, { Array_.reset with stream1 := if 0 < k then some { f with num := 9 } else none, stream2 := if 1 < k then some { f with num := 9 } else none }), (1, full)] }
      s.copyLive 0 = true ∧ (s.task f.task).stop = 0 ∧ (s.leader 0).follow = [d] ++ c :: [] ∧ (∀ e ∈ [d], Blocked s 0 e) ∧ s.handedOver 0 c = false ∧ c.follow = some f ∧
        ((s.array 0).stream1 = none ∨ (s.array 0).stream2 = none ∨ (s.array 0).stream3 = none)) ∧
     (let s := { at0 { thr with follow := [d, c] } with arrays := [(0, full), (1, full)] }
      ∀ e ∈ (s.leader 0).follow, Blocked s 0 e)) := by
  have hb : ∀ (s : State) (e : CopyCmd) (g : MatCmd), e.follow = some g → (s.array (4 * 0 + g.arr)).stream1 ≠ none ∧ (s.array (4 * 0 + g.arr)).stream2 ≠ none ∧
      (s.array (4 * 0 + g.arr)).stream3 ≠ none → Blocked s 0 e := fun s e g h1 h2 => .inr fun g' h => by rw [h1] at h; cases h; exact h2
  refine ⟨⟨rfl, ⟨rfl, by decide +kernel⟩, rfl, rfl, rfl, by decide +kernel, _, rfl, by decide +kernel, by decide +kernel, okNone_eq (by decide +kernel), by decide +kernel⟩,
    ⟨rfl, ⟨rfl, by decide +kernel⟩, by decide +kernel, rfl, _, rfl, by decide +kernel, by decide +kernel⟩, by decide +kernel, ?_, ?_⟩
  · intro k hk
    refine ⟨rfl, rfl, rfl, ?_, by revert k; decide +kernel, rfl, by revert k; decide +kernel⟩
    intro e he
    rw [List.mem_singleton.mp he]
    exact hb _ _ _ rfl ⟨by revert k; decide +kernel, by revert k; decide +kernel, by revert k; decide +kernel⟩
  · intro s e he
    rcases List.mem_cons.mp he with rfl | he
    · exact hb _ _ _ rfl (by decide +kernel)
    · rw [List.mem_singleton.mp he]
      exact hb _ _ _ rfl (by decide +kernel)

/-! ### Witnesses: the weight store -/

/-- The parts that a range is cut into lie inside it, each inside one 128-byte line. -/
theorem cutLines_mem : ∀ (fuel va len : Nat) (p : Nat × Nat), p ∈ cutLines fuel va len → va ≤ p.1 ∧ p.1 + p.2 ≤ va + len ∧ 0 < p.2 ∧ p.1 % 128 + p.2 ≤ 128 := by
  intro fuel
  induction fuel with
  | zero => intro va len p h; simp [cutLines] at h
  | succ f ih =>
    intro va len p h
    unfold cutLines at h
    split at h
    · simp at h
    · rcases List.mem_cons.mp h with rfl | h
      · simp only; omega
      · have := ih _ _ _ h
        omega
/-- A WEIGHT region over the first two extents of W-space at virtual address 0, in context 0's table. -/
def regWT : Region := { regW with dw1 := BitVec.ofNat 64 (2 ^ 20) }
def wtRows : Mem := memPut [] 0 (leBytes 8 regWT.dw0.toNat ++ leBytes 8 regWT.dw1.toNat)
def wt (w : Weights) (l : Leader) : State := { at0 l with rows := wtRows, weights := w }
/-- The table of context 0 holds that region alone, of the entries that its searches read. -/
def HasWT (s : State) : Prop := (s.ctx 0).rtb = 0 ∧ s.regionEntry 0 0 = regWT ∧ ∀ k, k < 12 → bit (s.regionEntry 0 (2 ^ k)).dw0 63 = false
theorem regWT_ok : regWT.ok = true ∧ regWT.vbase = 0 ∧ regWT.len = 2 ^ 27 ∧ regWT.wbase = 0 ∧ regWT.map = 2 ∧ regWT.mayR = true ∧ regWT.cls = 4 := by decide +kernel
theorem hasWT_reads {s : State} (h : HasWT s) {va : Nat} (hv : va < 2 ^ 27) :
    s.walk 0 va = some regWT ∧ s.walkReads 0 va 13 0 4096 = [2048, 1024, 512, 256, 128, 64, 32, 16, 8, 4, 2, 1, 0] ∧ s.walkBad 0 va = [] := by
  obtain ⟨hr, h0, hk⟩ := h
  obtain ⟨o0, o1, o2, -⟩ := regWT_ok
  have a0 := hk 0 (by omega); have a1 := hk 1 (by omega); have a2 := hk 2 (by omega); have a3 := hk 3 (by omega); have a4 := hk 4 (by omega); have a5 := hk 5 (by omega)
  have a6 := hk 6 (by omega); have a7 := hk 7 (by omega); have a8 := hk 8 (by omega); have a9 := hk 9 (by omega); have b0 := hk 10 (by omega); have b1 := hk 11 (by omega)
  have n1 : ¬ va < regWT.vbase := by omega
  have n2 : ¬ regWT.vbase + regWT.len ≤ va := by omega
  have nok : ∀ i, bit (s.regionEntry 0 i).dw0 63 = false → (s.regionEntry 0 i).ok = false := fun i e => by simp [Region.ok, e]
  simp only [Nat.reducePow] at a0 a1 a2 a3 a4 a5 a6 a7 a8 a9 b0 b1
  have w : s.walkReads 0 va 13 0 4096 = [2048, 1024, 512, 256, 128, 64, 32, 16, 8, 4, 2, 1, 0] := by
    simp [State.walkReads, nok _ a0, nok _ a1, nok _ a2, nok _ a3, nok _ a4, nok _ a5, nok _ a6, nok _ a7, nok _ a8, nok _ a9, nok _ b0, nok _ b1, h0, o0, n1, n2]
  refine ⟨?_, w, ?_⟩
  · simp [State.walk, hr, State.regionWalk, nok _ a0, nok _ a1, nok _ a2, nok _ a3, nok _ a4, nok _ a5, nok _ a6, nok _ a7, nok _ a8, nok _ a9, nok _ b0, nok _ b1, h0, o0, n1, n2]
  · simp [State.walkBad, hr, w, a0, a1, a2, a3, a4, a5, a6, a7, a8, a9, b0, b1, h0, o0]
theorem hasWT_probe {s : State} (h : HasWT s) (n : Nat) {va len : Nat} (hv : va + len ≤ 2 ^ 27) (h0 : 0 < len) : s.hubProbe 0 n va len = .ok (.weight va) := by
  obtain ⟨-, e1, e2, e3, e4, e5, e6⟩ := regWT_ok
  have t : ∀ o, s.regionTarget regWT o = some (.weight o) := by intro o; simp [State.regionTarget, e4, e3]
  have hp : s.probeRegion 0 (.leader n) regWT va len { rd := true, wr := false, align := 1 } = .ok (.weight va) := by
    have n : ¬ 2 ^ 27 < va + len := by omega
    have nh : ∀ o, s.noHole regWT o len = true := by intro o; simp [State.noHole, e4]
    simp [State.probeRegion, e1, e2, t, e5, e6, nh]; omega
  have n2 : ¬ 2 ^ 52 ≤ va := by omega
  simp only [State.hubProbe, n2, if_false, (hasWT_reads h (show va < 2 ^ 27 by omega)).1, State.probe, hp]
theorem eraseDups_one {α : Type} [BEq α] [LawfulBEq α] (x : α) : ∀ l : List α, (∀ y ∈ l, y = x) → l ≠ [] → l.eraseDups = [x]
  | [], _, h => absurd rfl h
  | y :: r, h, _ => by
    have e : y = x := h y (List.mem_cons_self ..)
    subst e
    rw [List.eraseDups_cons, List.filter_eq_nil_iff.mpr fun z hz => by simp [h z (List.mem_cons_of_mem _ hz)]]
    rfl
theorem hasWT_hubWalk {s : State} (h : HasWT s) (hi : (s.ctx 0).inn = 0) (task : Nat) (L : List Nat) (hl : ∀ va ∈ L, va < 2 ^ 27) (hn : L ≠ []) :
    s.hubWalk 0 task L =
      [2048, 1024, 512, 256, 128, 64, 32, 16, 8, 4, 2, 1, 0].foldl (fun s k => s.sliceLine hubRope 0 0 task (32 * k) (32 * k) 3 0 (bankOfPa (32 * k))) s := by
  have hf : (L.filter fun va => decide (va < 2 ^ 52)) = L := List.filter_eq_self.mpr fun va hva => by have := hl va hva; simp; omega
  have hr := h.1
  have hb : (L.flatMap fun va => s.walkBad 0 va) = [] := List.flatMap_eq_nil_iff.mpr fun va hva => (hasWT_reads h (hl va hva)).2.2
  have he : (L.map fun va => s.walkReads 0 va 13 0 4096).eraseDups = [[2048, 1024, 512, 256, 128, 64, 32, 16, 8, 4, 2, 1, 0]] := by
    refine eraseDups_one [2048, 1024, 512, 256, 128, 64, 32, 16, 8, 4, 2, 1, 0] (L.map fun va => s.walkReads 0 va 13 0 4096) (fun y hy => ?_) (fun e => hn (List.map_eq_nil_iff.mp e))
    obtain ⟨va, hva, rfl⟩ := List.mem_map.mp hy
    exact (hasWT_reads h (hl va hva)).2.1
  simp only [State.hubWalk, State.walkedAll, hf, hb, hr, hi, he, List.eraseDups_nil, State.noteBad, List.foldl_nil, List.foldl_cons, Nat.zero_add]
/-- A hub entry of token 7: its operands. -/
def hcmd (kind : Nat) (ops : List Word) : CopyCmd := { ccmd kind 0 1 none with ops := ops }
def wtThr : Leader := { thr with toks := [(7, tokS .running 2)] }
theorem hasWT_wt (w : Weights) (l : Leader) : HasWT (wt w l) := by
  refine ⟨rfl, ?_, ?_⟩
  · show (wt Weights.reset thr).regionEntry 0 0 = regWT
    decide +kernel
  · show ∀ k, k < 12 → bit ((wt Weights.reset thr).regionEntry 0 (2 ^ k)).dw0 63 = false
    decide +kernel
def fr (page : Nat) (pins : List Nat) : SFrame := { phys := 5, page := page, pins := pins, place := page % 2 }
theorem witness_StagingFrames_fill :
    (let s := { wt { weighted [] with want := [(5, 2730, 0)] } thr with tasks := [(0, { Task.reset with rcd := List.replicate 20 1 })] }
     s.staged 5 2730 = false ∧ (5, 2730, 0) ∈ s.weights.want ∧ s.taskLive 0 = true ∧ (s.task 0).over (s.task 0).bsm ((s.task 0).misses + 1) = false ∧ (s.task 0).rcd ≠ []) ∧
    (let s := { wt { weighted [] with want := [(5, 2730, 0)] } thr with tasks := [(0, { Task.reset with rcd := List.replicate 20 1, misses := 2 })] }
     s.staged 5 2730 = false ∧ s.taskLive 0 = true ∧ ∀ w ∈ s.weights.want, ¬((s.task w.2.2).ended = true ∨ (s.task w.2.2).over (s.task w.2.2).bsm ((s.task w.2.2).misses + 1) = false)) := by
  decide +kernel
def stageS (va : Word) (unpin : Bool) (fs : List SFrame) : State :=
  wt { weighted fs with stages := [(0, hcmd 2 [va, BitVec.ofNat 64 ((if unpin then 2 ^ 63 else 0) + 2)])] } wtThr
theorem witness_StagingFrames_run : ∀ u fs,
    let s := stageS 24575 u fs
    let c := hcmd 2 [24575, BitVec.ofNat 64 ((if u then 2 ^ 63 else 0) + 2)]
    let last := 24575 + (c.ops.getD 1 0).toNat % 2 ^ 36 - 1
    s.weights.stages = (0, c) :: [] ∧ OnRope s c.task 0 ∧ Holds s 0 c ∧ s.liveAt 4 (s.task 0).ctx (s.task 0).inn = true ∧ last = 24576 ∧
      s.hubProbe (s.task 0).ctx 0 24575 1 = .ok (.weight 24575) ∧ s.hubProbe (s.task 0).ctx 0 last 1 = .ok (.weight 24576) ∧
      s.walk (s.task 0).ctx 24575 = s.walk (s.task 0).ctx last ∧ ∃ e, s.walk (s.task 0).ctx 24575 = some e ∧ e.cls = 4 := by
  intro u fs
  have e : 24575 + ((hcmd 2 [24575, BitVec.ofNat 64 ((if u then 2 ^ 63 else 0) + 2)]).ops.getD 1 0).toNat % 2 ^ 36 - 1 = 24576 := by cases u <;> decide +kernel
  have h : HasWT (stageS 24575 u fs) := hasWT_wt _ _
  refine ⟨rfl, ⟨rfl, rfl, rfl⟩, ⟨rfl, rfl⟩, rfl, e, hasWT_probe h _ (by decide) (by decide), ?_, ?_, _, (hasWT_reads h (by decide)).1, regWT_ok.2.2.2.2.2.2⟩
  · rw [e]; exact hasWT_probe h _ (by decide) (by decide)
  · rw [e]; exact (hasWT_reads h (by decide)).1.trans (hasWT_reads h (by decide)).1.symm
theorem witness_StagingFrames_stops :
    (let s := stageS (BitVec.ofNat 64 (2 ^ 27)) false []
     OnRope s (hcmd 2 []).task 0 ∧ Holds s 0 (hcmd 2 []) ∧ s.liveAt 4 (s.task 0).ctx (s.task 0).inn = true ∧ s.hubProbe (s.task 0).ctx 0 (2 ^ 27) 1 = .error .regionMiss) ∧
    (let s := { stageS 24575 false [] with tasks := [(0, { Task.reset with ctx := 1 })] }
     OnRope s (hcmd 2 []).task 0 ∧ Holds s 0 (hcmd 2 []) ∧ s.liveAt 4 (s.task 0).ctx (s.task 0).inn = false) := by
  refine ⟨⟨⟨rfl, rfl, rfl⟩, ⟨rfl, rfl⟩, rfl, failsTo_eq (by decide +kernel)⟩, ⟨rfl, rfl, rfl⟩, ⟨rfl, rfl⟩, by decide +kernel⟩
theorem witness_StagingFrames_pages :
    (let s := stageS 24575 false [fr 0 [], fr 1 [3]]
     let ps := s.pagesOf (s.leader 0).wever 24575 2
     ps = [(5, 0), (5, 1)] ∧ (∀ st, st < 8 → (ps.filter fun p => !s.isPinned p && stackOfPhys p.1 == st).length = 0 ∨
        s.pinned st + (ps.filter fun p => !s.isPinned p && stackOfPhys p.1 == st).length ≤ s.frameCount / 2) ∧ ∀ p ∈ ps, s.staged p.1 p.2 = true) ∧
    (let s := stageS 24575 false [fr 0 []]
     let ps := s.pagesOf (s.leader 0).wever 24575 2
     (∀ st, st < 8 → (ps.filter fun p => !s.isPinned p && stackOfPhys p.1 == st).length = 0 ∨
        s.pinned st + (ps.filter fun p => !s.isPinned p && stackOfPhys p.1 == st).length ≤ s.frameCount / 2) ∧ ∃ p ∈ ps, s.staged p.1 p.2 = false) := by
  decide +kernel
/-- With no frame to pin a page into. -/
theorem witness_StagingFrames_tooMany :
    let s := { stageS 24575 false [] with hub := { Hub.reset with staging := 0 } }
    let ps := s.pagesOf (s.leader 0).wever 24575 2
    ∃ st, st < 8 ∧ let f := (ps.filter fun p => !s.isPinned p && stackOfPhys p.1 == st).length; 0 < f ∧ s.frameCount / 2 < s.pinned st + f :=
  ⟨0, by decide +kernel⟩
/-- A consignment of extent 0's bytes to `dst` waits in this weight store. -/
def consAt (dst : Word) (w : Weights) : State := wt { w with consigns := [(0, hcmd 3 [0, dst, 1])] } wtThr
def taken (s : State) : State := { s with weights := { s.weights with consigns := [] } }
/-- The state after the lookups of its acceptance. -/
def looked (s : State) : State :=
  [2048, 1024, 512, 256, 128, 64, 32, 16, 8, 4, 2, 1, 0].foldl (fun s k => s.sliceLine hubRope 0 0 0 (32 * k) (32 * k) 3 0 (bankOfPa (32 * k))) s
theorem consAt_looked {dst : Word} {w : Weights} (hd : dst.toNat < 2 ^ 27) :
    (taken (consAt dst w)).hubWalk 0 0 (((List.range (1 * 2 ^ 26 / 4096)).map fun j => 0 + 4096 * j) ++ [0 + 1 * 2 ^ 26 - 1, dst.toNat]) = looked (taken (consAt dst w)) := by
  refine hasWT_hubWalk (hasWT_wt _ _) rfl 0 _ (fun va hv => ?_) (by simp)
  rcases List.mem_append.mp hv with h | h
  · obtain ⟨j, hj, rfl⟩ := List.mem_map.mp h
    have := List.mem_range.mp hj
    omega
  · rcases List.mem_cons.mp h with rfl | h
    · decide
    · rw [List.mem_singleton.mp h]; exact hd
theorem hasWT_sourceFault {s : State} (h : HasWT s) : s.sourceFault 0 0 0 (1 * 2 ^ 26) = none := by
  unfold State.sourceFault
  rw [List.findSome?_eq_none_iff]
  intro p hp
  obtain ⟨-, h2, h3, -⟩ := cutLines_mem _ _ _ _ hp
  rw [hasWT_probe h 0 (show p.1 + p.2 ≤ 2 ^ 27 by omega) h3]
theorem hasWT_dest {s : State} (h : HasWT s) : s.destExtent 0 (2 ^ 26) 1 = .ok 1 ∧ s.destExtent 0 4096 1 = .error .regionMiss := by
  obtain ⟨-, e1, e2, e3, -, -, e6⟩ := regWT_ok
  simp only [State.destExtent, (hasWT_reads h (show 2 ^ 26 < 2 ^ 27 by decide)).1, (hasWT_reads h (show 4096 < 2 ^ 27 by decide)).1, e1, e2, e3, e6]
  exact ⟨by rw [if_neg (by decide), if_pos (by decide)] <;> rfl, by rw [if_neg (by decide), if_neg (by decide)] <;> rfl⟩
def ext1 : Word := BitVec.ofNat 64 (2 ^ 26)
/-- What every consignment that waits so meets, before its first check. -/
theorem witness_Consignments_waits : ∀ dst w,
    let s := consAt dst w
    let c := hcmd 3 [0, dst, 1]
    s.weights.consigns = (0, c) :: [] ∧ OnRope s c.task 0 ∧ Holds s 0 c ∧ s.liveAt 4 (s.task c.task).ctx (s.task c.task).inn = true ∧
      (c.ops.getD 0 0).toNat = 0 ∧ (c.ops.getD 2 0).toNat = 1 := fun _ _ => ⟨rfl, ⟨rfl, rfl, rfl⟩, ⟨rfl, rfl⟩, rfl, rfl, rfl⟩
/-- The purse holds its price and an extent is free: accepted; or the purse is short, the queue full, or no extent free or none below the endurance
budget. -/
theorem witness_Consignments_accept : ∀ w ∈ [{ weighted [] with purse := 2 ^ 26 }, { weighted [] with purse := 2 ^ 26 - 1 }],
    let s1 := looked (taken (consAt ext1 w))
    s1.sourceFault 0 0 0 (1 * 2 ^ 26) = none ∧ s1.destExtent 0 (2 ^ 26) 1 = .ok 1 := by
  intro w hw
  have h : ∀ w ∈ [{ weighted [] with purse := 2 ^ 26 }, { weighted [] with purse := 2 ^ 26 - 1 }], HasWT (looked (taken (consAt ext1 w))) := by
    simp only [HasWT]; decide +kernel
  exact ⟨hasWT_sourceFault (h w hw), (hasWT_dest (h w hw)).1⟩
theorem witness_Consignments_purse :
    (consAt ext1 { weighted [] with purse := 2 ^ 26 - 1 }).weights.purse < 1 * 2 ^ 26 ∧ 1 * 2 ^ 26 ≤ (consAt ext1 { weighted [] with purse := 2 ^ 26 }).weights.purse ∧
      (consAt ext1 { weighted [] with purse := 2 ^ 26 }).weights.queue.length < 64 := by decide +kernel
theorem witness_Consignments_shadows :
    ∃ sh, (looked (taken (consAt ext1 { weighted [] with purse := 2 ^ 26 }))).allocShadows true ((List.range 1).map fun i => 1 + i) [] = some sh :=
  Option.isSome_iff_exists.mp (by decide +kernel)
/-- A destination inside an extent ends at check 2, a source outside the table at check 1, a dead tag's before both. -/
theorem witness_Consignments_refused :
    (let s1 := looked (taken (consAt 4096 (weighted [])))
     s1.sourceFault 0 0 0 (1 * 2 ^ 26) = none ∧ s1.destExtent 0 4096 1 = .error .regionMiss) ∧
    (let s := { consAt ext1 (weighted []) with tasks := [(0, { Task.reset with ctx := 1 })] }
     s.liveAt 4 (s.task 0).ctx (s.task 0).inn = false ∧ OnRope s 0 0) := by
  have h : HasWT (looked (taken (consAt 4096 (weighted [])))) := by simp only [HasWT]; decide +kernel
  exact ⟨⟨hasWT_sourceFault h, (hasWT_dest h).2⟩, by decide +kernel, rfl, rfl, rfl⟩
/-- A consignment of one extent of which `k` pages are programmed. -/
def consign1 (k : Nat) (v : Bool) : Consign :=
  { id := 3, leader := 0, tok := 7, ctx := 0, inn := 0, task := 0, src := 0, ext0 := 1, n := 1, shadows := [8], pages := [(0, k)], code := 0, ended := false, verified := v }
def queued1 (k : Nat) (v : Bool) : State := wt { weighted [fr 2730 []] with queue := [consign1 k v] } wtThr
theorem rowPoison_none {s : State} (h : s.ecc = []) (a : Nat) : s.rowPoison a = false := by simp [State.rowPoison, State.rowWord, h]
theorem witness_Consignments_page :
    (queued1 2730 false).liveAt 4 (consign1 2730 false).ctx (consign1 2730 false).inn = true ∧ (queued1 2730 false).nextPage 0 = some (consign1 2730 false, 0, 2730) ∧ pageLen 2730 = 16384 ∧
    (queued1 2730 false).savedFrame (consign1 2730 false).task (consign1 2730 false).leader = none ∧
    (queued1 2730 false).hubAbsent 0 0 ((queued1 2730 false).thread 0 0).wever ((consign1 2730 false).src + 0 * 2 ^ 26 + 2730 * 24576) (pageLen 2730) = [] ∧
    (let c := { consign1 2730 false with ctx := 1 }
     let s := { at0 thr with weights := { weighted [] with queue := [c] } }
     s.liveAt 4 c.ctx c.inn = false ∧ s.live c.ctx c.inn = false ∧ s.nextPage 0 = some (c, 0, 2730) ∧ s.savedFrame c.task c.leader = none) ∧
    (let s := wt { weighted [] with queue := [consign1 2730 false] } wtThr
     s.hubAbsent 0 0 (s.thread 0 0).wever ((consign1 2730 false).src + 0 * 2 ^ 26 + 2730 * 24576) (pageLen 2730) ≠ []) ∧
    (∃ b ∈ (List.range (pageLen 2730)).map fun j => ({ queued1 2730 false with ecc := [(frameRow 0 0 / 8, 3)] } : State).consignByte (consign1 2730 false)
      ((consign1 2730 false).src + 0 * 2 ^ 26 + 2730 * 24576 + j), b.2 = true) ∧
    ∀ b ∈ (List.range (pageLen 2730)).map fun j => (queued1 2730 false).consignByte (consign1 2730 false) ((consign1 2730 false).src + 0 * 2 ^ 26 + 2730 * 24576 + j), b.2 = false := by
  refine ⟨by decide +kernel, by decide +kernel, rfl, by decide +kernel, by decide +kernel, by decide +kernel, by decide +kernel, ⟨_, List.mem_map.mpr ⟨0, List.mem_range.mpr (by decide), rfl⟩, by decide +kernel⟩, ?_⟩
  intro b hb
  obtain ⟨j, hj, rfl⟩ := List.mem_map.mp hb
  have hj' : j < 16384 := List.mem_range.mp hj
  have hc : (consign1 2730 false).ctx = 0 ∧ (consign1 2730 false).leader = 0 ∧ (consign1 2730 false).src = 0 := ⟨rfl, rfl, rfl⟩
  have hw : HasWT (queued1 2730 false) := hasWT_wt _ _
  simp only [State.consignByte, hc.1, hc.2.1, hc.2.2]
  rw [hasWT_probe hw 0 (show 0 + 0 * 2 ^ 26 + 2730 * 24576 + j + 1 ≤ 2 ^ 27 by omega) (by decide)]
  simp only [State.weightPoison]
  split
  · exact rowPoison_none rfl _
  · rfl
theorem witness_Consignments_end :
    (let s := queued1 2731 false
     (s.weights.queue.find? fun c => c.id == 3) = some (consign1 2731 false) ∧ (consign1 2731 false).ended = false ∧ (consign1 2731 false).verified = false ∧
       (consign1 2731 false).programmed = true ∧ s.savedFrame (consign1 2731 false).task (consign1 2731 false).leader = none ∧
       s.liveAt 4 (consign1 2731 false).ctx (consign1 2731 false).inn = true) ∧
    (let s := queued1 2731 true
     (s.weights.queue.find? fun c => c.id == 3) = some (consign1 2731 true) ∧ (consign1 2731 true).verified = true ∧ (s.weights.queue.takeWhile fun x => x.id != 3) = [] ∧
       s.live (consign1 2731 true).ctx (consign1 2731 true).inn = true ∧
       ∀ k, k < (consign1 2731 true).n → (tget Extent.reset s.weights.exts ((consign1 2731 true).ext0 + k)).prev = none ∧
         s.prevInUse (tget Extent.reset s.weights.exts ((consign1 2731 true).ext0 + k)) = false) ∧
    (∀ fs ∈ [[], [fr 0 []]],
     let s := { wt { weighted fs with phys := [(6, { erases := 2999, retired := false, used := true })],
                                      exts := [(0, { cur := some 5, since := 0, prev := some 6 })] } wtThr with cycle := 1 }
     (tget Phys.reset s.weights.phys 6).used = true ∧ (∀ e ∈ s.weights.exts, e.2.cur ≠ some 6) ∧ (∀ c ∈ s.weights.queue, 6 ∉ c.shadows) ∧
       (∀ e ∈ s.weights.exts, e.2.prev = some 6 → s.prevInUse e.2 = false) ∧ ∀ f ∈ s.weights.frames, f.phys = 6 → f.pins = []) ∧
    (let s := { wt { weighted [{ fr 0 [2] with phys := 6 }] with phys := [(6, { erases := 0, retired := false, used := true })],
                                                                 exts := [(0, { cur := some 5, since := 0, prev := some 6 })] } wtThr with cycle := 1 }
     (tget Phys.reset s.weights.phys 6).used = true ∧ (∀ e ∈ s.weights.exts, e.2.cur ≠ some 6) ∧ (∃ e ∈ s.weights.exts, e.2.prev = some 6) ∧
       ∃ f ∈ s.weights.frames, f.phys = 6 ∧ f.pins ≠ []) ∧
    ({ at0 thr with cycle := 216000 * 10 ^ 9 } : State).time / (86400 * 10 ^ 9) ≠ Weights.reset.day ∧ (at0 thr).time / (86400 * 10 ^ 9) = (at0 thr).weights.day := by decide +kernel


/-! ### Witnesses: purser, ramps, host port, tables, steps -/

theorem weight0 : 900 ≤ Config.weight 0 ∧ Config.weight 0 ≤ 1600 := by
  have h : Config.weight 0 = 900 + Config.weightFuse 0 % 701 := rfl
  omega
theorem charged0 (n : Nat) (f : Nat × Nat × Nat → Bool) (h : f (0, 1, n) = true) : chargedTo [(0, 1, n)] f = n * Config.weight 0 := by
  simp [chargedTo, h]
def us1 (h : Hub) : State := { at0 thr with cycle := 2500, hub := h }
theorem witness_PurserIntervals_high :
    let s := us1 { Hub.reset with step := 14 }
    let draw := chargedTo [(0, 1, 10000000)] (fun _ => true) + ropesDue s
    s.hub.lastUs < s.time / 1000 ∧ s.hub.cap * 1000000 < draw ∧ s.hub.step < 15 ∧ s.hub.wrow * 1000000 < chargedTo [(0, 1, 10000000)] (fun e => decide (e.1 < 2)) ∧
      (15 ≤ (us1 { Hub.reset with step := 15 }).hub.step) := by
  have h := weight0
  have hd : ropesDue (us1 { Hub.reset with step := 14 }) = 0 := by decide +kernel
  refine ⟨by decide +kernel, ?_, by decide +kernel, ?_, by decide +kernel⟩
  · simp only [charged0 10000000 (fun _ => true) rfl, hd]; show 4800 * 1000000 < _; omega
  · simp only [charged0 10000000 (fun e => decide (e.1 < 2)) rfl]; show 600 * 1000000 < _; omega
theorem witness_PurserIntervals_deadline :
    let s := { us1 { Hub.reset with step := 4 } with tasks := [(0, { Task.reset with rcd := List.replicate 20 1 })] }
    deadlineRuns s ∧ s.hub.hstep ≤ s.hub.step := by
  refine ⟨⟨_, List.mem_singleton.mpr rfl, bareBinding, rfl, by decide +kernel⟩, by decide +kernel⟩
theorem witness_PurserIntervals_mid : ∃ n m,
    let s := us1 Hub.reset
    let draw := chargedTo [(0, 1, n)] (fun _ => true) + ropesDue s
    draw ≤ s.hub.cap * 1000000 ∧ 15 * (s.hub.cap * 1000000) ≤ draw * 16 ∧ chargedTo [(0, 1, m)] (fun e => decide (e.1 < 2)) ≤ s.hub.wrow * 1000000 ∧
      7 * (s.hub.wrow * 1000000) ≤ chargedTo [(0, 1, m)] (fun e => decide (e.1 < 2)) * 8 := by
  have h := weight0
  have hd : ropesDue (us1 Hub.reset) = 0 := by decide +kernel
  have key : ∀ c, c / Config.weight 0 * Config.weight 0 ≤ c ∧ c < c / Config.weight 0 * Config.weight 0 + 1600 := by
    intro c
    have h1 := Nat.div_add_mod c (Config.weight 0)
    have h2 := Nat.mod_lt c (show 0 < Config.weight 0 by omega)
    rw [Nat.mul_comm] at h1
    omega
  refine ⟨4800000000 / Config.weight 0, 600000000 / Config.weight 0, ?_⟩
  have k1 := key 4800000000
  have k2 := key 600000000
  simp only [charged0 _ (fun _ => true) rfl, charged0 _ (fun e : Nat × Nat × Nat => decide (e.1 < 2)) rfl, hd]
  refine ⟨?_, ?_, ?_, ?_⟩
  · show _ ≤ 4800 * 1000000; omega
  · show 15 * (4800 * 1000000) ≤ _; omega
  · show _ ≤ 600 * 1000000; omega
  · show 7 * (600 * 1000000) ≤ _; omega
theorem witness_PurserIntervals_low :
    let s := { us1 { Hub.reset with low := 7, step := 1 } with tasks := [(1, { Task.reset with rcd := [1], ropeCyc := 5 })], hub := { Hub.reset with low := 7, cap := 1600 } }
    s.hub.lastUs < s.time / 1000 ∧ s.hub.low = 7 ∧ ropesDue s * 16 < 15 * (s.hub.cap * 1000000) ∧ (1 : Nat) ≠ 0 ∧ (s.task 1).rcd ≠ [] := by
  have h : Config.weight 12 = 700 + Config.weightFuse 12 % 701 := rfl
  refine ⟨by decide +kernel, by decide +kernel, ?_, by decide, by decide +kernel⟩
  show ((5 - 0) * Config.weight 12 + 0) * 16 < 15 * (1600 * 1000000)
  omega
def ramping (a : Array_) : State := { at0 thr with cycle := 5000, arrays := [(767, a)] }
theorem witness_RampsAndHeat :
    767 < 768 ∧
    (let s := ramping { Array_.reset with ramp := 1, filler := true, rampI := 20 }
     twf Array_.reset s.arrays = true ∧ (s.array 767).rampAt + 250 * (s.array 767).rampI ≤ s.cycle ∧ (s.array 767).filler = true ∧ (s.array 767).owner = none ∧ 0 < (s.array 767).ramp) ∧
    (let s := ramping { Array_.reset with ramp := 15, owner := some 1, rampI := 20, rampSlew := 400, lastFmt := 2 }
     twf Array_.reset s.arrays = true ∧ (s.array 767).filler = false ∧ (s.array 767).owner ≠ none ∧ (s.array 767).ramp < 16 ∧
       (s.array 767).rampAt + 250 * (s.array 767).rampI ≤ s.cycle ∧ ∀ e ∈ s.arrays, e.1 ≠ 767 → e.2.owner = none) ∧
    (let s := ramping { Array_.reset with ramp := 16, owner := some 1, rampI := 21 }
     s.cycle < (s.array 767).rampAt + 250 * (s.array 767).rampI ∧ 16 ≤ (s.array 767).ramp) ∧
    (us1 { Hub.reset with thermal := true }).hub.thermal = true ∧ (us1 { Hub.reset with step := 15 }).hub.thermal = false := by decide +kernel
/-- Window 63 opens the region at virtual address 0 to the host from 65,536 on, for CTX 0. -/
def rows1 (cls : Nat) : Mem := memPut [] 0 (leBytes 8 (reg cls 0).dw0.toNat ++ leBytes 8 (reg cls 0).dw1.toNat ++ leBytes 8 (reg cls 0).dw2.toNat)
def hostS (cls : Nat) (tags : List Nat) : State :=
  { State.reset with rows := rows1 cls, host := { HostPort.reset with windows := [(63, [BitVec.ofNat 64 (2 ^ 63 + 98304), 65536, 0])], tags := tags } }
/-- A header: operation, 32 bytes, tag 1023. -/
def hdr (op : Nat) : Word := BitVec.ofNat 64 (op * 2 ^ 56 + 31 * 2 ^ 42 + 1023 * 2 ^ 32)
def hLast : Word := BitVec.ofNat 64 (65536 + 12582880)
theorem witness_HostAccesses_moves :
    (∀ cls ∈ [1, 3], ∀ op ∈ [1, 2], let s := hostS cls [1022]
      Arrives s (hdr op) op ∧ wellMade (hdr op) ∧ (List.replicate 32 (7 : BitVec 8)).length = lengthOf (hdr op) ∧ Outside s hLast.toNat ∧
        s.windowAt hLast.toNat (lengthOf (hdr op)) = some (0, 12582912, 65536, 0)) ∧
    (∀ w, (hostS 3 []).hostProbe 0 (0 + (hLast.toNat - 65536)) 32 w = .ok (row0 3 12582880)) ∧
    (∀ w, (hostS 1 []).hostProbe 0 (0 + (hLast.toNat - 65536)) 32 w = .ok (row0 1 12582880)) := by
  refine ⟨by simp only [Arrives, wellMade, Outside]; decide +kernel, ?_, ?_⟩
  · intro w; cases w <;> exact goesTo_eq (by decide +kernel)
  · intro w; cases w <;> exact goesTo_eq (by decide +kernel)
theorem witness_HostAccesses_refused :
    (∀ op ∈ [1, 2], Arrives (hostS 3 []) (hdr op + 1) op ∧ ¬ wellMade (hdr op + 1) ∧ (hostS 3 []).windowAt (hLast.toNat + 1) 32 = none ∧ Outside (hostS 3 []) (hLast.toNat + 1)) ∧
    (hostS 3 []).hostProbe 0 1 32 true = .error .misaligned ∧ (hostS 2 []).hostProbe 0 0 32 true = .error .permission ∧ State.reset.hostProbe 0 0 32 false = .error .regionMiss := by
  refine ⟨by simp only [Arrives, wellMade, Outside]; decide +kernel, failsTo_eq (by decide +kernel), failsTo_eq (by decide +kernel), failsTo_eq (by decide +kernel)⟩
theorem witness_HostAccesses_page :
    (∀ k ∈ [3, 255], Arrives (hostS 3 []) (hdr k) k) ∧ (hdr 1).toNat / 2 ^ 32 % 2 ^ 10 ∈ (hostS 3 [1023]).host.tags ∧
    (1023 < 1024 ∧ 1023 ∉ (hostS 3 []).host.tags ∧ (hostS 3 []).hub.link = true) ∧ ((hostS 3 []).mail 15).busy = false ∧ (BitVec.ofNat 64 (2 ^ 60)).toNat / 2 ^ 60 ≠ 0 ∧
    (({ State.reset with host := { HostPort.reset with slots := [(15, { MailSlot.reset with busy := true })] } } : State).mail 15).busy = true := by
  simp only [Arrives]; decide +kernel
/-- Slot 15's request is the next that the hub serves. -/
def askS (req : Nat) (rec_ : Bool) : State :=
  { hostS 3 [] with hub := { Hub.reset with recovery := rec_ }, host := { (hostS 3 []).host with slots := [(3, { MailSlot.reset with busy := true, order := 8 }), (15, { req := 0, cmd := BitVec.ofNat 64 req, rsp := 0, busy := true, order := 7 })] } }
theorem witness_MailboxRequests :
    (let s := askS (2 ^ 60 + 63 * 2 ^ 52 + (12582912 - 256)) false
     Asked s 15 1 ∧ s.mailWindow 63 (12582912 - 256) 256 = some 0) ∧
    (let s := askS (2 ^ 60 + 63 * 2 ^ 52 + (12582912 - 255)) false
     Asked s 15 1 ∧ s.mailWindow 63 (12582912 - 255) 256 = none) ∧
    (let s := { askS (2 * 2 ^ 60 + 1 * 2 ^ 14 + 1) false with ctxs := [(0, { Ctx.reset with st := 1 }), (1, { Ctx.reset with st := 1, inn := 1 })] }
     Asked s 15 2 ∧ (2 ^ 14 + 1) / 2 ^ 24 % 2 ^ 27 = 0 ∧ (s.ctx 1).st = 1 ∧ (s.ctx 1).inn = 1) ∧
    (let s := askS (2 * 2 ^ 60 + 1 * 2 ^ 14 + 1) false
     Asked s 15 2 ∧ ¬((s.ctx 1).st = 1 ∧ (s.ctx 1).inn = 1)) ∧
    (∀ arg ∈ [2 ^ 24 + 2 ^ 14 + 1, 1], Asked (askS (2 * 2 ^ 60 + arg) false) 15 2) ∧
    (let s := askS (3 * 2 ^ 60 + 63 * 2 ^ 52 + (12582912 - 351)) false
     Asked s 15 3 ∧ s.mailWindow 63 (12582912 - 351) 352 = none) ∧
    (∀ op ∈ [4, 5, 15], Asked (askS (op * 2 ^ 60) false) 15 op) ∧ (∀ op ∈ [1, 2, 4, 5, 15], Asked (askS (op * 2 ^ 60) true) 15 op ∧ (askS 0 true).hub.recovery = true) := by
  simp only [Asked]; refine ⟨?_, ?_, ?_, ?_, ?_, ?_, ?_, ?_⟩ <;> decide +kernel
theorem witness_MailboxRequests_attest :
    let s := askS (3 * 2 ^ 60 + 63 * 2 ^ 52 + (12582912 - 352)) false
    Asked s 15 3 ∧ s.mailWindow 63 (12582912 - 352) 352 = some 0 ∧
      (∀ p ∈ hostPieces (12582912 - 352) 32, ∃ t, s.hostProbe 0 p.1 p.2 false = .ok t ∧ ∀ k, k < p.2 → (s.hubByte (nobody 0) 0 s.weights.epoch (t.plus k)).2 = false) ∧
      ∀ p ∈ hostPieces (12582912 - 352 + 32) 320, ∃ t, s.hostProbe 0 p.1 p.2 true = .ok t := by
  have e : ∀ pa, pa ∈ (List.range 11).map (fun k => 12582912 - 352 + 32 * k) → ∀ w,
      goesTo ((askS (3 * 2 ^ 60 + 63 * 2 ^ 52 + (12582912 - 352)) false).hostProbe 0 pa 32 w) (row0 3 pa) = true := by decide +kernel
  refine ⟨by simp only [Asked]; decide +kernel, by decide +kernel, ?_, ?_⟩
  · intro p hp
    have h : p = (12582560, 32) := by
      have h1 : hostPieces (12582912 - 352) 32 = [(12582560, 32)] := by decide
      rw [h1] at hp; exact List.mem_singleton.mp hp
    subst h
    exact ⟨_, goesTo_eq (e 12582560 (by decide) false), by decide +kernel⟩
  · intro p hp
    have h1 : hostPieces (12582912 - 352 + 32) 320 = (List.range 10).map fun k => (12582592 + 32 * k, 32) := by decide
    rw [h1] at hp
    obtain ⟨k, hk, rfl⟩ := List.mem_map.mp hp
    have hk' := List.mem_range.mp hk
    exact ⟨_, goesTo_eq (e _ (List.mem_map.mpr ⟨k + 1, List.mem_range.mpr (by omega), by omega⟩) true)⟩
theorem witness_TablesAndSettings :
    (1023 < 1024 ∧ (State.reset.ctx 1023).st = 0 ∧ (State.reset.ctx 0).st ≠ 0) ∧ (∀ e ∈ State.reset.leaders, ∀ b, e.2.bind = some b → b.ctx ≠ 0) ∧
    (∃ e ∈ (at0 thr).leaders, ∃ b, e.2.bind = some b ∧ b.ctx = 0) ∧
    (511 < 512 ∧ ¬ nearStart State.reset (tget [] State.reset.hub.binds 511) ∧ ¬ nearStart State.reset [BitVec.ofNat 64 (2 ^ 63), 0, 10000]) ∧
    63 < 64 ∧ (∃ get, settingOp 6 32 = some (true, get)) ∧ (∃ get, settingOp 6 30 = some (false, get)) ∧ ∃ get, settingOp 9 (2 ^ 48) = some (true, get) := by
  refine ⟨by decide +kernel, ?_, ⟨_, List.mem_singleton.mpr rfl, _, rfl, rfl⟩, by simp only [nearStart]; decide +kernel, by decide, ⟨_, rfl⟩, ⟨_, rfl⟩, _, rfl⟩
  intro e he; exact absurd he (by simp [State.reset])
/-- Rope 0's leader at the last word of IMEM, and its bank 0 at the last word of a block. -/
def placed (pc : Nat) (w0 w1 : IWord) : State :=
  { at0 { thr with pc := BitVec.ofNat 64 pc, imem := tput 0 (tput 0 [] (pc / 4) w0) (pc / 4 + 1) w1 } with agenda := [.issue (.leader 0)] }
theorem witness_StepRuns_leader :
    (let s := placed 0x3FFF8 0xFC001234 0x08605678
     s.down = false ∧ s.agenda = .issue (.leader 0) :: [] ∧ AtBoundary { s with agenda := [] } 0 ∧ (s.leader 0).pc.toNat < 0x40000 ∧
       decode (wordsAt (s.leader 0)) = .ok (.addiExt 3 0 0x12345678, [])) ∧
    (let s := placed 0x3FFFC 0xFC001234 0
     AtBoundary { s with agenda := [] } 0 ∧ ∃ e, decode (wordsAt (s.leader 0)) = .error e) ∧
    (let s := placed 0x40000 0 0
     AtBoundary { s with agenda := [] } 0 ∧ 0x40000 ≤ (s.leader 0).pc.toNat) := by
  have h1 : wordsAt ((placed 0x3FFF8 0xFC001234 0x08605678).leader 0) = [0xFC001234, 0x08605678] := by decide +kernel
  have h2 : wordsAt ((placed 0x3FFFC 0xFC001234 0).leader 0) = [0xFC001234] := by decide +kernel
  refine ⟨⟨rfl, rfl, ⟨rfl, rfl, rfl⟩, by decide +kernel, ?_⟩, ⟨⟨rfl, rfl, rfl⟩, ?_⟩, ⟨rfl, rfl, rfl⟩, by decide +kernel⟩
  · rw [h1]; rfl
  · rw [h2]; exact ⟨_, rfl⟩
theorem witness_StepRuns_bank :
    let r := blk 64 0
    let s := { at0 { thr with imem := [(0, 0x85024800), (1, 0)] } with banks := [(0, { bank8 0x402 4 with run := some r })], agenda := [.issue (.bank 0)] }
    s.down = false ∧ s.agenda = .issue (.bank 0) :: [] ∧ BankAtBoundary s 0 r ∧ s.blockCount 0 r.wpos < 32 ∧
      ¬((s.blockWord 0 r.wpos).toNat / 2 ^ 26 = 0x3F ∧ blockLen r.desc ≤ r.wpos + 1) ∧ 0x20 ≤ (s.blockWord 0 r.wpos).toNat / 2 ^ 26 ∧ (s.blockWord 0 r.wpos).toNat / 2 ^ 26 < 0x30 := by
  refine ⟨rfl, rfl, ⟨rfl, rfl, rfl, rfl, rfl, rfl, rfl, rfl, fun _ => rfl⟩, ?_, ?_, ?_, ?_⟩ <;> decide +kernel
theorem witness_StepRuns_others :
    isEvent (.hostRead 0 0) = true ∧ ({ State.reset with agenda := [.event (.hostRead 0 0)] } : State).down = false ∧
    ({ State.reset with agenda := [.elapse 3] } : State).agenda = .elapse 3 :: [] ∧ ({ State.reset with agenda := [.upset 6143 7] } : State).agenda = .upset 6143 7 :: [] ∧ ({ State.reset with down := true } : State).down = true := ⟨rfl, rfl, rfl, rfl, rfl⟩
theorem witness_EncodeRoundTrip : Instr.wf (.addiExt 31 31 0xFFFFFFFF) = true ∧ Instr.encoded (.addiExt 31 31 0xFFFFFFFF) = true ∧ Instr.wf (.wait 255 15 15 15 15) = true ∧
    Instr.encoded (.wait 255 15 15 15 15) = true := by decide +kernel
theorem witness_StepKeepsCanonical : ∃ t, Canonical { State.reset with agenda := [.elapse 1] } ∧ step { State.reset with agenda := [.elapse 1] } = .next t :=
  ⟨_, by simp only [Canonical]; decide +kernel, rfl⟩

/-! ### Witnesses: save images -/

/-- The pieces of a range, byte by byte, are the range. -/
theorem cutLines_bytes {α : Type} (g : Nat → α) : ∀ (fuel va len : Nat), len + va % 128 ≤ 128 * fuel →
    (cutLines fuel va len).flatMap (fun p => (List.range p.2).map fun k => g (p.1 + k)) = (List.range len).map fun k => g (va + k) := by
  intro fuel
  induction fuel with
  | zero => intro va len h; have : len = 0 := by omega
            subst this; rfl
  | succ f ih =>
    intro va len h
    unfold cutLines
    split
    · next h0 => subst h0; rfl
    · next h0 =>
      by_cases hk : len ≤ 128 - va % 128
      · have e : min len (128 - va % 128) = len := by omega
        simp only [e, Nat.sub_self, List.flatMap_cons]
        have z : cutLines f (va + len) 0 = [] := by cases f <;> simp [cutLines]
        simp [z]
      · have e : min len (128 - va % 128) = 128 - va % 128 := by omega
        have hl : len = (128 - va % 128) + (len - (128 - va % 128)) := by omega
        simp only [e, List.flatMap_cons]
        rw [ih _ _ (by omega)]
        conv => rhs; rw [hl, List.range_add, List.map_append, List.map_map]
        refine congrArg (_ ++ ·) (List.map_congr_left fun k _ => ?_)
        simp [Function.comp, Nat.add_assoc]
/-- The last page-aligned place of an image in the region of class 2. -/
def areaVa : Nat := 0x470000
def frame0 : Frame :=
  { v := true, ctx := 0, inn := 0, task := 0, rope := 0, level := 0, inst := 0, ord := 0, saved := 0, flags := 1, pend := none, leader := { thr with pc := 8 }, banks := [],
    arrays := [], latches := [], openRows := [], rpl := [] }
def imageStore (d : List (BitVec 8)) : PStore :=
  { agent := leaderAgent 0, ctx := 0, inn := 0, task := 0, kind := .store, cmd := 0, done := true, seen := true, cls := 2, scope := 5, home := 0, pa := areaVa,
    data := d, strip := false }
def imageData (f : Frame) (d : List (BitVec 8)) : Prop := d.length = imageLen ∧ ∀ o, o < imageLen → d[o]? = some (imageByte f 0 0 o)
def saveS (ps : List PStore) (im : List (Nat × Nat × Nat × Nat × Frame)) (rs : List Req) : State :=
  { at0 { thx (BitVec.ofNat 64 areaVa) 0 with level := 2, tlb := [reg 2 0] } with pend := ps, images := im, reqs := rs }
theorem area_target (ps : List PStore) (im : List (Nat × Nat × Nat × Nat × Frame)) (rs : List Req) (o : Nat) :
    (saveS ps im rs).regionTarget (reg 2 0) o = some (.row o 2 5 0) := by
  have e3 : (reg 2 0).map = 0 := by decide +kernel
  have e4 : (reg 2 0).lin = (0, 0, 0, 1024) := by decide +kernel
  have e7 : (reg 2 0).cls = 2 := by decide +kernel
  have e8 : (reg 2 0).scope = 5 := by decide +kernel
  have g : (saveS ps im rs).granted (rbiOf 0) = true := by show State.reset.granted (rbiOf 0) = true; decide +kernel
  have : rowAddr 0 0 (o / 12288) (o % 12288) = o := by unfold rowAddr; omega
  simp [State.regionTarget, e3, e4, e7, e8, this, g]
theorem area_translate (ps : List PStore) (im : List (Nat × Nat × Nat × Nat × Frame)) (rs : List Req) (a len : Nat) (rd wr : Bool) (h : a + len ≤ 12582912) (h0 : 0 < len) :
    (saveS ps im rs).translate 0 (.leader 0) a len { rd := rd, wr := wr, align := 1 } = .ok (.row a 2 5 0) := by
  have e1 : (reg 2 0).vbase = 0 := by decide +kernel
  have e2 : (reg 2 0).len = 12582912 := by decide +kernel
  have e3 : (reg 2 0).map = 0 := by decide +kernel
  have e5 : (reg 2 0).mayR = true := by decide +kernel
  have e6 : (reg 2 0).mayW = true := by decide +kernel
  have e7 : (reg 2 0).cls = 2 := by decide +kernel
  have t : ∀ o, (saveS ps im rs).regionTarget (reg 2 0) o = some (.row o 2 5 0) := area_target ps im rs
  have hl : (saveS ps im rs).lookup 0 a = some (reg 2 0) := by
    show (match [reg 2 0].find? _ with | some e => some e | none => _) = _
    have : (decide ((reg 2 0).vbase ≤ a) && decide (a < (reg 2 0).vbase + (reg 2 0).len)) = true := by simp [e1, e2]; omega
    simp [List.find?, this]
  have hp : (saveS ps im rs).probeRegion 0 (.leader 0) (reg 2 0) a len { rd := rd, wr := wr, align := 1 } = .ok (.row a 2 5 0) := by
    have n : ¬ 12582912 < a + len := by omega
    have nh : ∀ o, (saveS ps im rs).noHole (reg 2 0) o len = true := by intro o; simp [State.noHole, e3]
    simp [State.probeRegion, e1, e2, t, e5, e6, e7, nh]; omega
  have n1 : ¬ 2 ^ 52 ≤ a := by omega
  have n2 : ¬ scratchBase ≤ a := by unfold scratchBase; omega
  have n3 : ¬ a % 1 ≠ 0 := by omega
  have hc : ((saveS ps im rs).leader 0).ctxOf = 0 := rfl
  simp only [State.translate, State.translateBy, n1, n2, n3, if_false, hl, hc, State.probe, hp]
theorem area_part {p : Nat × Nat} (hp : p ∈ lineParts areaVa imageLen) : areaVa ≤ p.1 ∧ p.1 + p.2 ≤ 12582912 ∧ 0 < p.2 := by
  have h := cutLines_mem _ _ _ _ hp
  have e : areaVa + imageLen = 12582912 := rfl
  exact ⟨h.1, by omega, h.2.2.1⟩
theorem area_ready (ps : List PStore) (im : List (Nat × Nat × Nat × Nat × Frame)) (rs : List Req) (w : Bool) : AreaReady (saveS ps im rs) 0 areaVa w := by
  refine ⟨by decide, ?_, rfl⟩
  unfold State.areaFault
  rw [List.findSome?_eq_none_iff]
  intro p hp
  have h := area_part hp
  simp [State.vaProbe, area_translate ps im rs p.1 p.2 _ _ h.2.1 h.2.2]
theorem area_in (ps : List PStore) (im : List (Nat × Nat × Nat × Nat × Frame)) (rs : List Req) : AreaIn (saveS ps im rs) 0 areaVa (reg 2 0) := by
  have e2 : (reg 2 0).ok = true ∧ (reg 2 0).map < 2 ∧ (reg 2 0).vbase = 0 ∧ (reg 2 0).len = 12582912 := by decide +kernel
  have e : areaVa + imageLen = 12582912 := rfl
  exact ⟨rfl, e2.1, e2.2.1, by omega, by omega, by rw [e]; decide⟩
theorem area_staged (ps : List PStore) (im : List (Nat × Nat × Nat × Nat × Frame)) (rs : List Req) : AreaStaged (saveS ps im rs) 0 areaVa := by
  intro p hp
  have hs : dSpace (BitVec.ofNat 64 areaVa) = 0 := by decide
  have ha : (dAddr (BitVec.ofNat 64 areaVa) + 0) % 2 ^ 64 = areaVa := by decide
  unfold State.srcPages at hp
  rw [hs, ha] at hp
  obtain ⟨q, hq, h⟩ := List.mem_flatMap.mp hp
  have h' := area_part hq
  rw [area_translate ps im rs q.1 q.2 _ _ h'.2.1 h'.2.2] at h
  exact absurd h (by simp)
theorem witness_SaveAndLoad_save : let s := saveS [] [] []
    ReadyK s 0 [(6#5).toNat] ∧ (s.xr 0 (6#5).toNat).toNat = areaVa ∧ AreaReady s 0 areaVa true ∧ (s.leader 0).bind = some bareBinding ∧ s.ropeSettled 0 = true ∧
      AreaIn s 0 areaVa (reg 2 0) ∧ (reg 2 0).cls ≠ 3 ∧ (∀ o, o < imageLen → s.regionTarget (reg 2 0) (areaVa + o - (reg 2 0).vbase) = some (.row (areaVa + o) 2 5 0)) ∧
      AreaReady (saveS [] [] [rq (.load true) (row0 3 0) false]) 0 areaVa true ∧ (saveS [] [] [rq (.load true) (row0 3 0) false]).ropeSettled 0 = false := by
  refine ⟨by simp only [ReadyK, Ready]; decide +kernel, by decide +kernel, area_ready _ _ _ _, rfl, by decide +kernel, area_in _ _ _, by decide +kernel, ?_, area_ready _ _ _ _, by decide +kernel⟩
  intro o _
  exact area_target _ _ _ _
def loadS (d : List (BitVec 8)) (rs : List Req) : State := saveS [imageStore d] [(0, areaVa, 0, 0, frame0)] rs
theorem area_at {f : Frame} {d : List (BitVec 8)} (hd : imageData f d) (o : Nat) (h : o < imageLen) : (imageStore d).at? (areaVa + o) = some (imageByte f 0 0 o) := by
  have hpa : (imageStore d).pa = areaVa := rfl
  have hx : (imageStore d).data = d := rfl
  unfold PStore.at?
  rw [hx, hpa, if_pos ⟨by omega, by have := hd.1; omega⟩, Nat.add_sub_cancel_left, hd.2 o h]
theorem area_view {f : Frame} {d : List (BitVec 8)} (hd : imageData f d) (rs : List Req) (o : Nat) (h : o < imageLen) :
    lastPend (fun p => p.visibleTo (leaderAgent 0) 0) (loadS d rs).pend (areaVa + o) = some (imageByte f 0 0 o) := by
  have hv : (imageStore d).visibleTo (leaderAgent 0) 0 = true := by simp [PStore.visibleTo, imageStore]
  have hp : (loadS d rs).pend = [imageStore d] := rfl
  simp only [hp, lastPend, List.foldl_cons, List.foldl_nil, hv, if_true, area_at hd o h]
theorem poisonOver_clean (f : PStore → Bool) : ∀ (ps : List PStore) (pa : Nat), (∀ p ∈ ps, p.pois = 0) → poisonOver f ps pa false = false
  | [], _, _ => rfl
  | p :: r, pa, h => by
    have hr := poisonOver_clean f r pa fun q hq => h q (List.mem_cons_of_mem _ hq)
    unfold poisonOver at hr ⊢
    simp only [List.foldl_cons, h p (List.mem_cons_self ..)]
    simpa using hr
theorem area_bytes {f : Frame} {d : List (BitVec 8)} (hd : imageData f d) (rs : List Req) (ep : Nat) :
    (loadS d rs).vaBytes 0 ep areaVa imageLen = (List.range imageLen).map fun o => (imageByte f 0 0 o, false) := by
  have ha : imageLen + areaVa % 128 ≤ 128 * (imageLen / 128 + 2) := by
    have : areaVa % 128 = 0 := rfl
    omega
  have key : (lineParts areaVa imageLen).flatMap (fun p => (List.range p.2).map fun k => (loadS d rs).engByte 0 ep (.row (p.1 + k) 2 5 0)) =
      (List.range imageLen).map fun k => (loadS d rs).engByte 0 ep (.row (areaVa + k) 2 5 0) :=
    cutLines_bytes (fun a => (loadS d rs).engByte 0 ep (.row a 2 5 0)) _ _ _ ha
  have e : (loadS d rs).vaBytes 0 ep areaVa imageLen =
      (lineParts areaVa imageLen).flatMap (fun p => (List.range p.2).map fun k => (loadS d rs).engByte 0 ep (.row (p.1 + k) 2 5 0)) := by
    unfold State.vaBytes
    rw [List.flatMap_def, List.flatMap_def]
    refine congrArg List.flatten (List.map_congr_left fun p hp => ?_)
    have h := area_part hp
    rw [show (loadS d rs).translate 0 (.leader 0) p.1 p.2 { rd := true, wr := false, align := 1 } = .ok (.row p.1 2 5 0) from area_translate _ _ _ _ _ _ _ h.2.1 h.2.2]
    rfl
  rw [e, key]
  refine List.map_congr_left fun o ho => ?_
  have hv := area_view hd rs o (List.mem_range.mp ho)
  have ht : ((loadS d rs).leader 0).taskOf = 0 := rfl
  have hp : (loadS d rs).viewPoison (leaderAgent 0) 0 2 (areaVa + o) = false := by
    unfold State.viewPoison
    rw [if_neg (by simp), rowPoison_none rfl, Bool.and_false]
    exact poisonOver_clean _ _ _ fun p h => by rw [List.mem_singleton.mp h]; rfl
  simp only [State.engByte, State.readByte, State.readPoison, Seq.agent, ht, hp]
  simp only [State.viewByte, hv]
theorem area_dw {f : Frame} {d : List (BitVec 8)} (hd : imageData f d) (rs : List Req) (k : Nat) (hk : k < 2) : areaDw (loadS d rs) 0 areaVa k = leNat ((List.range 8).map fun j => imageByte f 0 0 (8 * k + j)) := by
  unfold areaDw
  rw [area_bytes hd]
  have hl : imageLen = 16 + (imageLen - 16) := rfl
  rw [hl, List.range_add]
  rcases k with _ | _ | k
  · rfl
  · rfl
  · omega
/-- A doubleword is what its eight bytes make. -/
theorem dw_bytes (w : Word) : BitVec.ofNat 64 (leNat ((List.range 8).map fun o => w.extractLsb' (8 * (o % 8)) 8)) = w := by
  apply BitVec.eq_of_toNat_eq
  have h := w.isLt
  simp only [show List.range 8 = [0, 1, 2, 3, 4, 5, 6, 7] from rfl, List.map_cons, List.map_nil, leNat, BitVec.extractLsb'_toNat, BitVec.toNat_ofNat, Nat.shiftRight_eq_div_pow,
    Nat.reduceMod, Nat.reduceMul, Nat.reducePow]
  omega
/-- The doublewords of bytes that were cut from doublewords. -/
theorem dwords_bytes : ∀ (k : Nat) (g : Nat → Word), dwords k ((List.range (8 * k)).map fun o => (g (o / 8)).extractLsb' (8 * (o % 8)) 8) = (List.range k).map g := by
  intro k
  induction k with
  | zero => intro g; rfl
  | succ k ih =>
    intro g
    have e : List.range (8 * (k + 1)) = List.range 8 ++ (List.range (8 * k)).map (8 + ·) := by rw [show 8 * (k + 1) = 8 + 8 * k by omega, List.range_add]
    have hd : (List.map (fun o => (g (o / 8)).extractLsb' (8 * (o % 8)) 8) (List.range 8)).length = 8 := by simp
    rw [e, List.map_append, dwords, List.take_left' hd, List.drop_left' hd, List.map_map, List.range_succ_eq_map (n := k), List.map_cons, List.map_map]
    congr 1
    · refine Eq.trans (congrArg (fun l => BitVec.ofNat 64 (leNat l)) (List.map_congr_left fun o ho => ?_)) (dw_bytes (g 0))
      rw [Nat.div_eq_of_lt (List.mem_range.mp ho)]
    · rw [show List.map (g ∘ Nat.succ) (List.range k) = List.map (fun o => g (o + 1)) (List.range k) from rfl, ← ih fun o => g (o + 1)]
      refine congrArg _ (List.map_congr_left fun o _ => ?_)
      simp only [Function.comp]
      rw [show (8 + o) / 8 = o / 8 + 1 by omega, show (8 + o) % 8 = o % 8 by omega]
/-- A save loads as it stands. -/
theorem loadWords_self (f : Frame) (cyc fr : Nat) : ∀ (k i : Nat), f.loadWords cyc fr i ((List.range k).map fun q => f.imageWord cyc fr (i + q)) (f, false) = .ok f := by
  intro k
  induction k with
  | zero => intro i; rfl
  | succ k ih =>
    intro i
    have ht : (List.range k).map ((fun q => f.imageWord cyc fr (i + q)) ∘ Nat.succ) = (List.range k).map fun q => f.imageWord cyc fr (i + 1 + q) :=
      List.map_congr_left fun q _ => by simp only [Function.comp]; congr 1; omega
    have hw : f.loadWord i (f.imageWord cyc fr i) (f, false) = some (f, false) := by
      unfold Frame.loadWord Frame.imageWord
      cases imageDw i with
      | none => rfl
      | some x => simp
    rw [List.range_succ_eq_map, List.map_cons, List.map_map, ht]
    unfold Frame.loadWords
    simp only [Nat.add_zero, bne_self_eq_false, Bool.and_false, Bool.false_eq_true, if_false, hw]
    exact ih (i + 1)
theorem imageAt_of {s : State} {n va c v cyc fr : Nat} {f : Frame} {bs : List (BitVec 8)}
    (hf : s.images.filter (fun e => e.1 == (s.leader n).ctxOf) = [(c, v, cyc, fr, f)])
    (hl : f.loadWords cyc fr 0 (dwords (imageLen / 8) bs) (f, false) = .ok f) : s.imageAt n va bs = .ok f := by
  unfold State.imageAt
  rw [hf]
  simp only [List.reverse_cons, List.reverse_nil, List.nil_append, List.findSome?_cons, hl]
  rfl
/-- The bytes of the area, without their poison. -/
theorem area_plain {f : Frame} {d : List (BitVec 8)} (hd : imageData f d) (rs : List Req) (ep : Nat) :
    ((loadS d rs).vaBytes 0 ep areaVa imageLen).map (fun x => x.1) = (List.range imageLen).map (imageByte f 0 0) := by
  rw [area_bytes hd, List.map_map]; rfl
theorem area_words : dwords (imageLen / 8) ((List.range imageLen).map (imageByte frame0 0 0)) = (List.range (imageLen / 8)).map (frame0.imageWord 0 0) := by
  have h := dwords_bytes (imageLen / 8) (frame0.imageWord 0 0)
  rw [show 8 * (imageLen / 8) = imageLen from rfl] at h
  exact h
theorem witness_SaveAndLoad_load : ∃ d, ∀ rs,
    let s := loadS d rs
    let area := s.vaBytes 0 (s.leader 0).wever areaVa imageLen
    ReadyK s 0 [(6#5).toNat] ∧ (s.xr 0 (6#5).toNat).toNat = areaVa ∧ AreaReady s 0 areaVa false ∧ (s.leader 0).bind = some bareBinding ∧
      AreaIn s 0 areaVa (reg 2 0) ∧ (∀ x ∈ frame0.openRows, ropeOf x.1 = 0) ∧ AreaStaged s 0 areaVa ∧ AreaHolds s 0 areaVa bareBinding 0 0 frame0 ∧ NamesBinding frame0 bareBinding ∧
      (∀ x ∈ area, x.2 = false) ∧ areaDw s 0 areaVa 0 / 2 ^ 34 % 2 ^ 24 = 0 * 2 ^ 14 + 0 ∧
      areaDw s 0 areaVa 1 / 2 ^ 61 % 8 = 0 ∧ areaDw s 0 areaVa 1 % 2 ^ 32 = 0 % 256 * 2 ^ 24 + 0 % 2 ^ 24 ∧ s.imageAt 0 areaVa (area.map fun x => x.1) = .ok frame0 ∧
      Free s 0 ∧ ({ s with images := [] } : State).imageAt 0 areaVa (area.map fun x => x.1) = .error areaVa := by
  obtain ⟨d, hd⟩ : ∃ d, imageData frame0 d := ⟨(List.range imageLen).map (imageByte frame0 0 0), by rw [List.length_map, List.length_range],
    fun o h => by rw [List.getElem?_map, List.getElem?_range h]; rfl⟩
  refine ⟨d, fun rs => ?_⟩
  have hr : ReadyK (loadS d rs) 0 [(6#5).toNat] := by
    show ReadyK (loadS d []) 0 [(6#5).toNat]
    simp only [ReadyK, Ready]; exact ⟨⟨rfl, fun r _ _ => ⟨rfl, rfl⟩⟩, rfl⟩
  refine ⟨hr, rfl, area_ready _ _ _ _, rfl, area_in _ _ _, fun x hx => absurd hx (by simp [frame0]), area_staged _ _ _, ⟨⟨areaVa, rfl⟩, area_bytes hd _ _⟩, by simp only [NamesBinding]; decide +kernel,
    ?_, ?_, ?_, ?_, ?_, by show (0#64).getLsbD 8 = false; decide, rfl⟩
  · intro x hx
    rw [area_bytes hd] at hx
    obtain ⟨o, -, rfl⟩ := List.mem_map.mp hx
    rfl
  · rw [area_dw hd rs 0 (by decide)]; decide +kernel
  · rw [area_dw hd rs 1 (by decide)]; decide +kernel
  · rw [area_dw hd rs 1 (by decide)]; decide +kernel
  · exact imageAt_of (c := 0) (v := areaVa) rfl (by rw [area_plain hd, area_words]; simpa using loadWords_self frame0 0 0 (imageLen / 8) 0)
/-- An image of another instance. -/
theorem witness_SaveAndLoad_foreign : ∃ d,
    let s := loadS d []
    AreaReady s 0 areaVa false ∧ (s.leader 0).bind = some bareBinding ∧ AreaIn s 0 areaVa (reg 2 0) ∧ (∀ x ∈ s.vaBytes 0 (s.leader 0).wever areaVa imageLen, x.2 = false) ∧
      areaDw s 0 areaVa 1 % 2 ^ 32 ≠ bareBinding.ord % 256 * 2 ^ 24 + bareBinding.inst % 2 ^ 24 ∧ Free s 0 := by
  let f : Frame := { frame0 with inst := 1 }
  obtain ⟨d, hd⟩ : ∃ d, imageData f d := ⟨(List.range imageLen).map (imageByte f 0 0), by rw [List.length_map, List.length_range],
    fun o h => by rw [List.getElem?_map, List.getElem?_range h]; rfl⟩
  refine ⟨d, area_ready _ _ _ _, rfl, area_in _ _ _, ?_, ?_, by show (0#64).getLsbD 8 = false; decide⟩
  · intro x hx
    rw [area_bytes hd] at hx
    obtain ⟨o, -, rfl⟩ := List.mem_map.mp hx
    rfl
  · rw [area_dw hd [] 1 (by decide)]; decide +kernel
theorem witness_SaveAndLoad_ready : (loadS [] []).haltReady 0 = true ∧ (loadS [] [rq (.load true) (row0 3 0) false]).haltReady 0 = false := by decide +kernel
theorem witness_SaveAndLoad_misaligned : let s := at0 { thx 4095 0 with level := 2 }
    ReadyK s 0 [(6#5).toNat] ∧ Free s 0 ∧ (s.xr 0 (6#5).toNat).toNat % 4096 ≠ 0 := by simp only [ReadyK, Ready, Free]; decide +kernel

/-! ### Witnesses: further clauses -/

/-- A scratch store in an open strip, at the last byte of its buffer and past it. -/
theorem witness_LoadsAndStores_strip :
    ∀ st ∈ [{ strip1 with bytes := 16376 }, { strip1 with bytes := 16377 }],
      let s := at0 { thx 0xFFFFFFFFFFAF8 1 with strip := some st }
      storeOp (s.leader 0).xr (.st 7 6 3 0 0) = some (7, 6, 8, 0xFFFFFFFFFFAF8, 4) ∧ Ready s 0 [6, 7] ∧ s.heldByBanks 0 = false ∧
        s.translate 0 (.leader 0) 0xFFFFFFFFFFAF8 8 (storeKind 8) = .ok (.scratch 0x7FAF8) ∧ (s.leader 0).strip = some st ∧
        (st.bytes + 8 ≤ 16384 ∨ 16384 < st.bytes + 8) := by
  intro st hst
  simp only [List.mem_cons, List.mem_nil_iff, or_false] at hst
  rcases hst with rfl | rfl <;> refine ⟨rfl, ⟨rfl, fun r _ _ => ⟨rfl, rfl⟩⟩, by decide +kernel, goesTo_eq (by decide +kernel), rfl, by decide⟩
/-- An answer that the port still takes, and one that it drops, whichever event brings it. -/
theorem witness_RemoteAndForeign_ports :
    (let r := rq (.load true) (.remote 5 8 3) false
     (withReq (at0 thr) r).req? r.id = some r ∧ (withReq (at0 thr) r).live r.ctx r.inn = true) ∧
    (let r := { rq (.load true) (.remote 5 8 3) false with ctx := 1 }
     (withReq (at0 thr) r).portLive r = false ∧ (∃ p w c, r.tgt = .remote p w c) ∧ r.done = false) ∧
    (let r := { rq (.load true) (row0 3 0) true with ctx := 1 }
     (withReq (at0 thr) r).portLive r = false ∧ (∃ p c h k, r.tgt = .row p c h k) ∧ r.done = true ∧ r.miss = false ∧ r.op ≠ .fill ∧ r.op ≠ .diag) ∧
    (let r := rq (.load true) (row0 3 0) true
     (withReq (at0 thr) r).live r.ctx r.inn = true) :=
  ⟨by decide +kernel, ⟨by decide +kernel, ⟨_, _, _, rfl⟩, rfl⟩, ⟨by decide +kernel, ⟨_, _, _, _, rfl⟩, by decide⟩, by decide +kernel⟩
/-- An entry whose block the banks lack and one whose block has been sent; a commit beside another task's register. -/
theorem witness_EntriesAndStrips_sent :
    (∀ x ∈ [false, true], let e := { ent (.vf 65536 0 0) with sent := x }
     (atE Bank.reset e).headEntry 0 = some e ∧ 65536 ∉ ((atE Bank.reset e).bank 0).blocks ∧ e.sent = x) ∧
    (let b := { Bank.reset with slots := [(0, { Slot.reset with st := .commitPending, cw := 1, sw := true }), (1, { Slot.reset with st := .commitPending, cw := 1, sw := true, task := 9 })] }
     let e := { ent .commit with commit := 1, sync := false }
     let s := atE b e
     s.boundLive 0 = true ∧ s.granted 0 = true ∧ s.foreignSlot (bankOf 0 0) 0 = false ∧ s.foreignSlot (bankOf 0 0) 1 = true) := by decide +kernel
/-- A belay whose party is saved. -/
theorem witness_BelaysComplete_saved :
    let a := arr 4 false false
    let s := { wide (at0 { thr with arrival := some a }) with frames := [(0, some { frm0 with task := 0, rope := 1 })] }
    s.belayReady 0 a = some 0 ∧ s.savedFrame (s.leader 0).taskOf 0 = none ∧ s.savedFrame (s.leader 0).taskOf 1 ≠ none := by decide +kernel
/-- MDRAIN with no function and a parameter block. -/
theorem witness_MatrixIssue_drain : ¬ drainPlain (.mdrain 0 1 2 3 0 0 0 0) ∧ (at0 thr).cur = .leader 0 ∧ Free (at0 thr) 0 := by
  simp only [drainPlain, Free]; decide +kernel
theorem witness_BankTrapDelivery_takes :
    (∀ w ∈ [false, true], let tr := { btrap .instr 0 with woke := w }
     let s := { trapped31 .instr 0 thr with banks := [(bankOf 0 31, { Bank.reset with run := some (blk 64 63), trap := some tr })] }
     Takes s 0 ∧ (s.bank (bankOf 0 31)).trap = some tr ∧ tr.seen = false ∧ tr.woke = w) ∧
    (∀ k ∈ [0, 1], let s := at0 { thr with async := [(1, 2)], asyncSeen := k }
     Takes s 0 ∧ s.pendingBankTrap 0 = none ∧ (s.leader 0).async = (1, 2) :: [] ∧ (s.leader 0).asyncSeen = k) ∧
    (let s := at0 { thx 0xFFFFFFFFFFEE1 3 with level := 2 }
     Ready s 0 [6, 7] ∧ (s.leader 0).level = 2 ∧ s.heldByBanks 0 = false ∧ eaOf (s.xr 0 6) (0#11).toInt 1 = scratchBase + 0x7FB00 + 32 * 31 + 1 ∧
       (s.bank (bankOf 0 31)).trap = none) := by simp only [Takes, Ready, Free]; decide +kernel
theorem witness_RefreshAndPermits_permit :
    (let r : PermitReq := { at_ := 0, bank := 0, key := 1 }
     let s := { atS 0 0 { Slot.reset with st := .commitPending } with tiers := [(0, { Tier.reset with value := 1, waiting := [r] })] }
     s.asking 0 = r :: [] ∧ s.granting 0 r = false) ∧
    (let s := atS 160000 7 { Slot.reset with st := .openDirty, grace := some 0, sw := true }
     (s.slot 0 7).sw = true ∧ Own s 0 7 ∧ s.forceable 0 7 = true) := by simp only [Own]; decide +kernel
/-- ROWFILL into a region that is engaged and into one that is not. -/
theorem witness_RowStateAndFill_engaged :
    ∀ l ∈ [[(0, (0, 0))], []],
      let s := { atB { Bank.reset with regions := [reg 0 1], y := [(8, 1023)] } with ctxs := [(0, { Ctx.reset with st := 1, engaged := l })] }
      (s.bank 0).rowRegion 0 0 0 = some (reg 0 1) ∧ (s.task (s.leader (ropeOf 0)).taskOf).ended = false ∧
        ((s.ctx (s.bankTag 0).1).engaged.map (fun x => x.1) = l.map fun x => x.1) ∧ (reg 0 1).idx = 0 := by decide +kernel
theorem witness_RowTransients_more :
    (let s := atS 25 7 { Slot.reset with st := .commitPending, sw := true }
     (s.slot 0 7).sw = true ∧ Own s 0 7) ∧
    (let s := atS 40 7 { Slot.reset with st := .commitPending, wbing := true, until_ := 40, ctx := 1 }
     s.live (s.slot 0 7).ctx (s.slot 0 7).inn = false ∧ (s.slot 0 7).wbing = true ∧ (s.slot 0 7).st = .commitPending) ∧
    (let s := atS 30 7 { Slot.reset with st := .closing, until_ := 30, forced := 2, task := 9 }
     (s.slot 0 7).forced = 2 ∧ ¬ Own s 0 7) := by simp only [Own]; decide +kernel
/-- A store to a PRIVATE region that is engaged. -/
def vmP : State := { vmB 0 12582896 with ctxs := [(0, { Ctx.reset with st := 1, engaged := [(0, (0, 0))] })] }
theorem witness_RowMemoryStores_private : VmemCase (.vst 2 0 0 0 0 5 0) vmP (fun f => f.store = true ∧ OneRegion vmP 0 f (reg 0 1)) := by
  refine ⟨_, rfl, ⟨rfl, ?_, ?_, ?_, ?_, ?_, ?_⟩, rfl, rfl, fun i x h => absurd (show x ∈ ([] : List Region) from h) (by simp), ?_, ?_, ?_⟩ <;> decide +kernel
theorem witness_KillsAndFences_silent :
    (let s := kctx 0 { Ctx.reset with q := [(7, some 16383)], silent := [(16383, 5)] }
     tget none (s.ctx 1).q 7 = some 16383 ∧ (∀ y ∈ (s.ctx 1).silent, y.1 = 16383 → y.2 = 5) ∧ 16383 < 16384) ∧
    (let s := kctx 0 { Ctx.reset with q := [(7, some 16383)], silent := [(16383, 5), (16383, 6)] }
     ∃ y ∈ (s.ctx 1).silent, y.1 = 16383 ∧ y.2 ≠ 5) ∧
    (let s := kctx 0 { Ctx.reset with st := 2, inn := 2, kill := some (1, false, 48, 0), parts := [5] }
     (s.ctx 1).kill = some (1, false, 48, 0) ∧ 48 / 2 ^ 5 % 2 = 1 ∧ 48 / 2 ^ 4 % 2 = 1 ∧ s.frames = []) := by decide +kernel
theorem witness_HostAccesses_dead :
    let s := { hostS 3 [] with host := { HostPort.reset with windows := [(63, [BitVec.ofNat 64 (2 ^ 63 + 98304 + 2 ^ 46), 65536, 0])] } }
    Arrives s (hdr 1) 1 ∧ wellMade (hdr 1) ∧ Outside s hLast.toNat ∧ ∃ c n hb vb, s.windowAt hLast.toNat (lengthOf (hdr 1)) = some (c, n, hb, vb) ∧ c ≠ 0 ∧
      (s.ctx c).st ≠ 1 := by
  refine ⟨by simp only [Arrives]; decide +kernel, by simp only [wellMade]; decide +kernel, by simp only [Outside]; decide +kernel, 1, _, _, _, rfl, by decide, by decide +kernel⟩
theorem witness_TablesAndSettings_step :
    (let s := { us1 { Hub.reset with step := 4 } with tasks := [(0, { Task.reset with rcd := List.replicate 20 1 })] }
     deadlineRuns s ∧ ∃ get, settingOp 3 2 = some (true, get)) ∧
    (let s := { State.reset with cycle := 2500000, hub := { Hub.reset with binds := [(511, [BitVec.ofNat 64 (2 ^ 63), 0, 5, 7])] } }
     nearStart s (tget [] s.hub.binds 511) ∧ bindEnd (tget [] s.hub.binds 511) ≤ s.time) := by
  refine ⟨⟨⟨_, List.mem_singleton.mpr rfl, bareBinding, rfl, by decide +kernel⟩, _, rfl⟩, ?_⟩
  simp only [nearStart]; decide +kernel
/-- A launch that joins an empty queue: its token runs. -/
theorem witness_LaunchRequests_head :
    let r : LaunchReq := { leader := some (0, 7), slot := none, ctx := 0, inn := 0, task := 0, level := 0, va := 0 }
    let s := { at0 { thr with toks := [(7, tokS .queued 4)] } with hub := { Hub.reset with arriving := [r] } }
    s.hub.arriving = r :: [] ∧ (s.hub.launches ++ [r]).head? = some r ∧ r.leader = some (0, 7) ∧ s.launchLive r = true := by decide +kernel
theorem witness_Tiles_lines : ((tileS tileC 0 none).array 0).tileInit 0 tileC = .ok ((tileS tileC 0 none).array 0) ∧
    ∀ r, r < tileC.rows → ((tileS tileC 0 none).array 0).badLines [((linesOf (accMode (tileC.op 5)) (tileDst tileC + r) 1).1 + (Tile.start tileC).grp, 1)] = false := by
  refine ⟨rfl, fun r hr => ?_⟩
  have h1 : tileC.rows = 1 := by decide +kernel
  have h0 : r = 0 := by omega
  subst h0
  decide +kernel
theorem witness_RampsAndHeat_bound :
    let s := ramping { Array_.reset with ramp := 2, filler := true, owner := some 1, rampI := 20 }
    (s.array 767).rampAt + 250 * (s.array 767).rampI ≤ s.cycle ∧ (s.array 767).filler = true ∧ (s.array 767).owner ≠ none ∧ 0 < (s.array 767).ramp := by decide +kernel
/-- An area that no region maps. -/
theorem witness_SaveAndLoad_faults : let s := at0 { thx 4096 0 with level := 2 }
    ReadyK s 0 [(6#5).toNat] ∧ Free s 0 ∧ (s.xr 0 (6#5).toNat).toNat % 4096 = 0 ∧ ∀ w, ∃ c, s.areaFault 0 4096 w = some (c, 4096) := by
  refine ⟨by simp only [ReadyK, Ready]; decide +kernel, by simp only [Free]; decide +kernel, by decide +kernel, fun w => ?_⟩
  obtain ⟨r, h⟩ : ∃ r, lineParts 4096 imageLen = (4096, 128) :: r := ⟨_, rfl⟩
  unfold State.areaFault
  rw [h, List.findSome?_cons]
  cases w <;> exact ⟨_, rfl⟩

/-! ### Single steps, with results worked out by hand from the rules -/

noncomputable def after (i : Instr) (s : State) (f : State → Bool) : Bool := match exec i s with
  | .next t => f t
  | _ => false
/-- x(d) after the instruction, from x6 and x7. -/
noncomputable def xAfter (i : Instr) (u v r : Word) (d : Nat := 5) : Bool := after i (at0 (thx u v)) fun t => decide (t.xr 0 d = r)
theorem test_add_wraps : xAfter (.add 5 6 7) 0xFFFFFFFFFFFFFFFF 2 1 = true ∧ xAfter (.sub 5 6 7) 0 1 0xFFFFFFFFFFFFFFFF = true := by decide +kernel
theorem test_x0_discards : xAfter (.add 0 6 7) 3 4 0 0 = true := by decide +kernel
theorem test_logic : xAfter (.andn 5 6 7) 0xFF 0x0F 0xF0 = true ∧ xAfter (.xori 5 6 0xFFFF) 0 0 0xFFFF = true := by decide +kernel
theorem test_shift_takes_six_bits : xAfter (.sll 5 6 7) 1 64 1 = true ∧ xAfter (.srai 5 6 63) 0x8000000000000000 0 0xFFFFFFFFFFFFFFFF = true := by decide +kernel
theorem test_compares : xAfter (.slt 5 6 7) 0xFFFFFFFFFFFFFFFF 0 1 = true ∧ xAfter (.sltu 5 6 7) 0xFFFFFFFFFFFFFFFF 0 0 = true := by decide +kernel
theorem test_min_signed : xAfter (.min 5 6 7) 0xFFFFFFFFFFFFFFFF 1 0xFFFFFFFFFFFFFFFF = true ∧ xAfter (.maxu 5 6 7) 0xFFFFFFFFFFFFFFFF 1 0xFFFFFFFFFFFFFFFF = true := by decide +kernel
theorem test_bitfields : xAfter (.bfxu 5 6 4 7) 0xABC 0 0xAB = true ∧ xAfter (.bfx 5 6 4 3) 0x0F0 0 0xFFFFFFFFFFFFFFFF = true := by decide +kernel
theorem test_ext_immediate : xAfter (.addiExt 5 0 0x12345678) 0 0 0x12345678 = true ∧ after (.addiExt 5 0 1) (at0 thr) (fun t => decide ((t.leader 0).pc = 8)) = true := by decide +kernel
theorem test_branch_back : after (.bne 6 7 0xFFFE) (at0 { thx 1 2 with pc := 16 }) (fun t => decide ((t.leader 0).pc = 8)) = true ∧
    after (.beq 6 7 0xFFFE) (at0 { thx 1 2 with pc := 16 }) (fun t => decide ((t.leader 0).pc = 20)) = true := by decide +kernel
theorem test_jal_links : after (.jal 3) (at0 { thr with pc := 16 }) (fun t => decide ((t.leader 0).pc = 28 ∧ t.xr 0 1 = 20)) = true := by decide +kernel
theorem test_loop_ends : after (.add 5 6 7) (at0 { thr with pc := 8, loops := [{ start := 4, last := 8, count := 2 }] }) (fun t => decide ((t.leader 0).pc = 4 ∧ ((t.leader 0).loops.map fun e => e.count) = [1])) = true ∧
    after (.add 5 6 7) (at0 { thr with pc := 8, loops := [{ start := 4, last := 8, count := 1 }] }) (fun t => decide ((t.leader 0).pc = 12 ∧ (t.leader 0).loops = [])) = true := by decide +kernel
theorem test_scratch_store_load : after (.st 7 6 1 0 0) (at0 (thx 0xFFFFFFFF80000 0xA1B2)) (fun t => decide (memByte (t.leader 0).scratch 0 = 0xB2 ∧ memByte (t.leader 0).scratch 1 = 0xA1 ∧ memByte (t.leader 0).scratch 2 = 0)) = true ∧
    after (.ld 5 6 0 0 0) (at0 { thx 0xFFFFFFFF80000 0 with scratch := [(0, 0x80)] }) (fun t => decide (t.xr 0 5 = 0xFFFFFFFFFFFFFF80)) = true := by decide +kernel
theorem test_csr : after (.csrr 5 0) (at0 thr) (fun t => decide (t.xr 0 5 = 0x400)) = true ∧
    after (.csrw 5 6 5) (at0 { thx 0x1F 0 with csr := { Csrs.reset with fflags := 3 } }) (fun t => decide (t.xr 0 5 = 3 ∧ (t.leader 0).csr.fflags = 0x1F)) = true := by decide +kernel
theorem test_syscall_then_tret : after (.syscall 0x2A) (at0 { thr with pc := 12 }) (fun t =>
    decide ((t.leader 0).csr.tcause = 0x0E ∧ (t.leader 0).csr.tval = 0x2A ∧ (t.leader 0).csr.tpc = 12 ∧ (t.leader 0).level = 2) &&
    after .tret t (fun u => decide ((u.leader 0).pc = 12 ∧ (u.leader 0).level = 0 ∧ (u.leader 0).csr.tstate.getLsbD 8 = false))) = true := by decide +kernel
theorem test_csrw_priv : after (.csrw 0 6 0x040) (at0 (thx 1 0)) (fun t => decide ((t.leader 0).csr.tcause = 2 ∧ (t.leader 0).csr.tval = 0x40)) = true := by decide +kernel
theorem test_gate : after (.callg 5) (at0 { thr with pc := 0x200, gateStore := [(5, BitVec.ofNat 64 (2 ^ 63 + 2 ^ 21 + 2 ^ 19 + 0x1000))] })
    (fun t => decide ((t.leader 0).pc = 0x1000 ∧ (t.leader 0).level = 1 ∧ (t.leader 0).mm = true) && after .retg t (fun u => decide ((u.leader 0).pc = 0x204 ∧ (u.leader 0).level = 0 ∧ (u.leader 0).mm = false))) = true := by
  decide +kernel
theorem test_load_waits : after (.ld 5 6 3 0 0) (at0 (thm 3 0 0)) (fun t => decide (t.reqs.length = 1 ∧ tget 0 (t.leader 0).xPend 5 ≠ 0 ∧ (t.leader 0).pc = 4)) = true := by decide +kernel
theorem test_row_queue : after (.vf 6) (at0 { thx 65536 0 with bmr := 3 }) (fun t => decide (((t.leader 0).rowq.map fun e => e.banks) = [3] ∧ (t.leader 0).pc = 4)) = true := by decide +kernel
theorem test_setvl_clips : after (.setvl 5 6 7 0) (at0 (thx 5000 0x402)) (fun t => decide (t.xr 0 5 = 3072)) = true := by decide +kernel
/-- Bank 0 with the rows v0 and v1 open, eight elements of VT `vt`. -/
def rows2 (vt : Word) (a b : Nat) : State := atB { bank8 vt 2 with slots := [(0, { openRow with latch := BitVec.ofNat 98304 a }), (1, { openRow with latch := BitVec.ofNat 98304 b }), (2, openRow)] }
noncomputable def rowAfter (i : Instr) (s : State) (r : Nat) : Bool := after i s fun t => decide ((t.slot 0 2).latch = BitVec.ofNat 98304 r)
theorem test_vadd_i8_wraps : rowAfter (.vadd 2 0 1 0 0) (rows2 0x400 0x0102FF 0x010101) 0x0300 = true := by decide +kernel
theorem test_vadds_saturates : rowAfter (.vadds 2 0 1 0 0) (rows2 0x400 0x7F80 0x01FF) 0x7F80 = true ∧ after (.vadds 2 0 1 0 0) (rows2 0x400 0x7F 1) (fun t => (t.bank 0).vxsat) = true := by decide +kernel
theorem test_vfadd_f32 : rowAfter (.vfadd 2 0 1 0 0) (rows2 0x40A 0x3F8000003FC00000 0x4000000040000000) 0x4040000040600000 = true := by decide +kernel
theorem test_vcmp_ge : after (.vcmp 2 0 1 0 0 3) (rows2 0x400 0x01FF 0x0101) (fun t => decide ((t.bank 0).pr 2 = 2)) = true := by decide +kernel
theorem test_y_arithmetic : after (.ymul 3 4 5) (atB { Bank.reset with y := [(4, 7), (5, 6)] }) (fun t => decide ((t.bank 0).yr 3 = 42)) = true ∧
    after (.yaddi 1 1 0x3FFF) (atB { Bank.reset with y := [(1, 1)] }) (fun t => decide ((t.bank 0).yr 1 = 0)) = true := by decide +kernel
theorem test_vext_reads_element : after (.vext 2 1 0) (rows2 0x400 0x01FE 0) (fun t => decide ((t.bank 0).yr 2 = 0xFFFFFFFFFFFFFFFE)) = true := by decide +kernel
theorem test_actw_opens : after (.actw 0 8) { atB { Bank.reset with regions := [reg 2 1], y := [(8, 7)] } with cycle := 100 }
    (fun t => decide ((t.slot 0 0).st = .opening ∧ (t.slot 0 0).row = 7 ∧ (t.slot 0 0).until_ = 110)) = true := by decide +kernel
theorem test_bank_illegal_ef : after (.vfadd 2 0 1 0 0) (rows2 0x400 0 0) (fun t => ((t.bank 0).trap.map fun e => decide (e.cause = .illegal)) == some true) = true := by decide +kernel
theorem test_int_block : blockUpdateInt 0xFFFFFFFF [3, 0xFF] [4, 2] = 9 := by decide +kernel
theorem test_fp_block : (blockUpdate 0 0x3F800000 [.fin false 3 (-1), .fin true 1 0] [.fin false 1 1, .fin false 1 0]).1 = 0x40400000 := by decide +kernel
theorem test_token_life : after (.stage 7 1 26) (at0 { thr with x := [(26, 1)] }) (fun t => decide (((t.leader 0).tok 7).st = .queued) &&
    after (.cancel 7) t (fun u => decide (((u.leader 0).tok 7).st = .fault ∧ ((u.leader 0).tok 7).code = 6))) = true := by decide +kernel
theorem test_withFetchWord_leader : (match step (State.reset.withFetchWord 32 0x0863FFFF) with
    | .next t => decide (t.xr 0 3 = 0xFFFFFFFFFFFFFFFF ∧ (t.leader 0).pc = 4)
    | _ => false) = true := by decide +kernel
theorem test_withFetchWord_bank : (match step (State.reset.withFetchWord 32 0xA8804005) with
    | .next t => decide ((t.bank 0).yr 2 = 5)
    | _ => false) = true := by decide +kernel
theorem test_table_word : (decodeTableWord 32 0x04A63800 == some (.add 5 6 7)) = true := by decide +kernel

end Sys2Proof.Tests
end

section
/-! SUPPORT. What the part's housekeeping moves: a record of the scrivener, the lines of the L2, the reads of a walk and the fills that
nothing waits for. `Upkeep` says it once, is reflexive and transitive, and every operation of the kind has its lemma. -/
namespace Sys2Proof.Machine

open Sys2Proof.Claims

/-! ### Words of row memory that a write leaves alone -/

theorem memBytes_congr {m m' : Mem} (n : Nat) : ∀ a, (∀ j, j < n → memByte m' (a + j) = memByte m (a + j)) → memBytes m' a n = memBytes m a n := by
  induction n with
  | zero => intro a _; rfl
  | succ n ih =>
    intro a h
    have h0 := h 0 (by omega)
    have hs := ih (a + 1) fun j hj => by simpa [Nat.add_assoc, Nat.add_comm 1 j] using h (j + 1) (by omega)
    simp only [memBytes, hs]
    simpa using h0

/-- A sensed word depends on its eight bytes and on the check bits listed for it. -/
theorem State.rowWord_congr {s t : State} {w : Nat} (he : (t.ecc.find? fun e => e.1 == w) = s.ecc.find? fun e => e.1 == w)
    (hm : ∀ j, j < 8 → memByte t.rows (8 * w + j) = memByte s.rows (8 * w + j)) : t.rowWord w = s.rowWord w := by
  simp only [State.rowWord, he, memDw, memBytes_congr 8 (8 * w) hm]

/-- A filter that keeps the entries at a key does not change what a search for the key finds. -/
theorem find?_filter_key {α : Type} {p : Nat × α → Bool} {w : Nat} (t : Tbl α) (h : ∀ e : Nat × α, e.1 = w → p e = true) :
    ((t.filter p).find? fun e => e.1 == w) = t.find? fun e => e.1 == w := by
  rw [List.find?_filter]
  congr 1; funext e
  by_cases he : e.1 = w
  · simp [he, h e he]
  · simp [he]

/-- An entry inserted at another key does not change what a search finds. -/
theorem find?_tins_other {α : Type} {k w : Nat} (v : α) (t : Tbl α) (h : k ≠ w) :
    ((tins k v t).find? fun e => e.1 == w) = t.find? fun e => e.1 == w := by
  induction t with
  | nil => simp [tins, h]
  | cons e r ih =>
    obtain ⟨a, x⟩ := e
    by_cases hk : k < a
    · simp [tins, hk, h]
    · simp [tins, hk, List.find?_cons, ih]

theorem leBytes_length (n : Nat) : ∀ v, (leBytes n v).length = n := by
  induction n with
  | zero => intro v; rfl
  | succ n ih => intro v; simp [leBytes, ih]

/-- A write of published bytes leaves every word that it does not touch as sensed. -/
theorem State.rowWord_writeRows (s : State) {pa w : Nat} (bs : List (BitVec 8)) (h : 8 * w + 8 ≤ pa ∨ pa + bs.length ≤ 8 * w) :
    (s.writeRows pa bs).rowWord w = s.rowWord w := by
  refine State.rowWord_congr ?_ fun j hj => s.writeRows_out pa (8 * w + j) bs (by omega)
  unfold State.writeRows
  dsimp only
  refine foldl_keeps (P := fun t : Tbl (BitVec 8) => (t.find? fun e => e.1 == w) = s.ecc.find? fun e => e.1 == w) _
    (fun t e he ht => ?_) _ (find?_filter_key _ fun e he => ?_)
  · simp only [List.mem_filter, Bool.and_eq_true, decide_eq_true_eq] at he
    rw [find?_tins_other _ _ (by omega), ht]
  · simp only [Bool.not_eq_true', Bool.and_eq_false_iff, decide_eq_false_iff_not]
    omega

theorem length_flatMap_leBytes (ws : List Word) : (ws.flatMap fun x => leBytes 8 x.toNat).length = 8 * ws.length := by
  induction ws with
  | nil => rfl
  | cons w r ih => rw [List.flatMap_cons, List.length_append, leBytes_length, ih, List.length_cons]; omega

/-- Doublewords written elsewhere leave a word as sensed. -/
theorem State.rowWord_putDws (s : State) {pa w : Nat} (ws : List Word) (h : 8 * w + 8 ≤ pa ∨ pa + 8 * ws.length ≤ 8 * w) :
    (s.putDws pa ws).rowWord w = s.rowWord w := by
  have hl := length_flatMap_leBytes ws
  refine State.rowWord_congr (find?_filter_key _ fun e he => ?_) fun j hj => memByte_memPut_out _ _ _ _ (by omega)
  simp only [Bool.or_eq_true, decide_eq_true_eq]
  omega

/-! ### Upkeep -/

/-- The state apart from what housekeeping moves: region entries noted as malformed, the record ring, row memory, the L2, the counts of the
interval and the requests. -/
def State.still (s : State) : State :=
  { s with ctxs := [], ring := Ring.reset, rows := [], ecc := [], counts := [], l2 := [], cacheOld := [], reqs := [], reqNum := 0 }

/-- `t` is `s` after housekeeping: nothing else moved, the ring lies where it lay, no cache holds an older byte of a new place, the requests
gained fills, a context entry differs in its malformed regions only, and every calm word reads as before. -/
structure Upkeep (s t : State) : Prop where
  still : t.still = s.still
  ring : t.ring.base = s.ring.base ∧ t.ring.size = s.ring.size
  old : ∀ e ∈ t.cacheOld, ∃ d ∈ s.cacheOld, d.2.1 = e.2.1
  fills : OnlyFills s t
  ctx : ∀ x, t.ctx x = { s.ctx x with badRgn := (t.ctx x).badRgn }
  words : ∀ a, Calm s a → t.rowWord (a / 8) = s.rowWord (a / 8)

namespace Upkeep
variable {s t u : State}

theorem calm (h : Upkeep s t) {a : Nat} (ha : Calm s a) : Calm t a := by
  obtain ⟨hold, hring⟩ := ha
  refine ⟨fun e he => ?_, fun b hb => ?_⟩
  · obtain ⟨d, hd, hde⟩ := h.old e he
    exact hde ▸ hold d hd
  · rw [h.ring.2]; exact hring b (h.ring.1 ▸ hb)

theorem refl (s : State) : Upkeep s s where
  still := rfl
  ring := ⟨rfl, rfl⟩
  old := fun e he => ⟨e, he, rfl⟩
  fills := ⟨[], by simp, by simp⟩
  ctx := fun _ => rfl
  words := fun _ _ => rfl

theorem trans (h : Upkeep s t) (k : Upkeep t u) : Upkeep s u where
  still := k.still.trans h.still
  ring := ⟨k.ring.1.trans h.ring.1, k.ring.2.trans h.ring.2⟩
  old := fun e he => by
    obtain ⟨d, hd, hde⟩ := k.old e he
    obtain ⟨c, hc, hcd⟩ := h.old d hd
    exact ⟨c, hc, hcd.trans hde⟩
  fills := by
    obtain ⟨fs, hfs, hf⟩ := h.fills
    obtain ⟨gs, hgs, hg⟩ := k.fills
    exact ⟨fs ++ gs, by rw [hgs, hfs, List.append_assoc], fun r hr => (List.mem_append.mp hr).elim (hf r) (hg r)⟩
  ctx := fun x => by rw [k.ctx x, h.ctx x]
  words := fun a ha => (k.words a (h.calm ha)).trans (h.words a ha)

/-- A fold of housekeeping steps is housekeeping. -/
theorem foldl {β : Type} {f : State → β → State} (l : List β) (h : ∀ s, ∀ b ∈ l, Upkeep s (f s b)) (s : State) : Upkeep s (l.foldl f s) :=
  foldl_keeps (P := fun t => Upkeep s t) l (fun a b hb ha => ha.trans (h a b hb)) s (refl s)

theorem eq (h : Upkeep s t) : t = { s with ctxs := t.ctxs, ring := t.ring, rows := t.rows, ecc := t.ecc, counts := t.counts, l2 := t.l2,
                                           cacheOld := t.cacheOld, reqs := t.reqs, reqNum := t.reqNum } :=
  calc t = { t.still with ctxs := t.ctxs, ring := t.ring, rows := t.rows, ecc := t.ecc, counts := t.counts, l2 := t.l2,
                          cacheOld := t.cacheOld, reqs := t.reqs, reqNum := t.reqNum } := rfl
    _ = { s.still with ctxs := t.ctxs, ring := t.ring, rows := t.rows, ecc := t.ecc, counts := t.counts, l2 := t.l2,
                       cacheOld := t.cacheOld, reqs := t.reqs, reqNum := t.reqNum } := by rw [h.still]

theorem leaders (h : Upkeep s t) : t.leaders = s.leaders := (congrArg State.leaders h.still :)
theorem leader (h : Upkeep s t) : t.leader = s.leader := by unfold State.leader; rw [h.leaders]
theorem hub (h : Upkeep s t) : t.hub = s.hub := (congrArg State.hub h.still :)
theorem weights (h : Upkeep s t) : t.weights = s.weights := (congrArg State.weights h.still :)

/-- Every calm byte of row space, and every byte of weight space and scratch, reads as before. -/
theorem bytes (h : Upkeep s t) : BytesCalm s t :=
  ⟨fun a ha => by simp only [State.rowByte, h.words a ha], fun a => by rw [h.weights], fun n a => by rw [h.leader]⟩

/-- Housekeeping that leaves the context table, the ring, row memory and the requests alone. -/
theorem ofQuiet (still : t.still = s.still) (ctxs : t.ctxs = s.ctxs) (ring : t.ring = s.ring) (rows : t.rows = s.rows) (ecc : t.ecc = s.ecc)
    (reqs : t.reqs = s.reqs) (old : ∀ e ∈ t.cacheOld, e ∈ s.cacheOld) : Upkeep s t where
  still := still
  ring := by rw [ring]; exact ⟨rfl, rfl⟩
  old := fun e he => ⟨e, old e he, rfl⟩
  fills := ⟨[], by simp [reqs], by simp⟩
  ctx := fun x => by simp only [State.ctx, ctxs]
  words := fun a _ => State.rowWord_congr (by rw [ecc]) fun _ _ => by rw [rows]

end Upkeep

/-! ### The record ring -/

/-- Doublewords written inside the ring's region are housekeeping. -/
theorem Upkeep.putDws {s t : State} (h : Upkeep s t) {pa b : Nat} {ws : List Word} (hb : s.ring.base = some b) (h0 : b ≤ pa)
    (h1 : pa + 8 * ws.length ≤ b + 64 * max 2 s.ring.size) : Upkeep s (t.putDws pa ws) := by
  refine h.trans ⟨rfl, ⟨rfl, rfl⟩, fun e he => ⟨e, (List.mem_filter.mp he).1, rfl⟩, (refl t).fills, fun _ => rfl, fun a ha => t.rowWord_putDws ws ?_⟩
  have := ha.2 b (h.ring.1.trans hb)
  rw [h.ring.2] at this
  omega

theorem RingEntry.dws_length (e : RingEntry) : e.dws.length = 8 := by simp [RingEntry.dws]

/-- The ring takes another entry, where it lay. -/
theorem Upkeep.ringMoves (s : State) (head lost : Nat) (es : Tbl (Option RingEntry)) :
    Upkeep s { s with ring := { s.ring with head := head, lost := lost, entries := es } } where
  still := rfl
  ring := ⟨rfl, rfl⟩
  old := fun e he => ⟨e, he, rfl⟩
  fills := ⟨[], (List.append_nil _).symm, by simp⟩
  ctx := fun _ => rfl
  words := fun _ _ => rfl

/-- A record of the scrivener. -/
theorem Upkeep.record (s : State) (type c i task : Nat) (body : List Word) : Upkeep s (s.record type c i task body) := by
  unfold State.record
  have hat : s.ring.head % max 1 (s.ring.size - 1) < max 1 (s.ring.size - 1) := Nat.mod_lt _ (by omega)
  dsimp only
  split
  · exact .ringMoves s _ _ _
  · next b hb =>
    refine .putDws (.putDws (.ringMoves s _ _ _) hb ?_ ?_) hb (Nat.le_refl b) ?_
    · omega
    · rw [RingEntry.dws_length]; omega
    · rw [List.length_singleton]; omega

@[simp] theorem State.record_ctx (s : State) (type c i task : Nat) (body : List Word) : (s.record type c i task body).ctx = s.ctx := by
  unfold State.record; dsimp only; split <;> rfl

@[simp] theorem State.record_head (s : State) (type c i task : Nat) (body : List Word) :
    (s.record type c i task body).ring.head = s.ring.head + 1 := by
  unfold State.record; dsimp only; split <;> rfl

/-! ### Malformed region entries (R7, R246) -/

/-- A malformed entry is noted, once. -/
def State.noteOne (s : State) (c i : Nat) : State :=
  if (s.ctx c).badRgn.contains i then s
  else (s.setCtx c { s.ctx c with badRgn := (s.ctx c).badRgn ++ [i] }).record 10 c (s.ctx c).inn 0 [BitVec.ofNat 64 i]

theorem State.noteBad_eq (s : State) (c : Nat) (is : List Nat) : s.noteBad c is = is.foldl (fun s i => s.noteOne c i) s := rfl

theorem Upkeep.noteOne (s : State) (c i : Nat) : Upkeep s (s.noteOne c i) := by
  unfold State.noteOne
  split
  · exact .refl s
  · refine Upkeep.trans ?_ (.record _ _ _ _ _ _)
    exact { still := rfl, ring := ⟨rfl, rfl⟩, old := fun e he => ⟨e, he, rfl⟩, fills := ⟨[], (List.append_nil _).symm, by simp⟩
            words := fun _ _ => rfl
            ctx := fun x => by rw [State.setCtx_at]; split <;> simp [*] }

theorem Upkeep.noteBad (s : State) (c : Nat) (is : List Nat) : Upkeep s (s.noteBad c is) :=
  .foldl is (fun s i _ => .noteOne s c i) s

theorem State.mem_badRgn_noteOne (s : State) (c i j : Nat) :
    j ∈ ((s.noteOne c i).ctx c).badRgn ↔ j ∈ (s.ctx c).badRgn ∨ j = i := by
  unfold State.noteOne
  split
  · next h =>
    have hi : i ∈ (s.ctx c).badRgn := by simpa using h
    exact ⟨Or.inl, fun hj => hj.elim id fun e => e ▸ hi⟩
  · simp

theorem State.mem_badRgn_noteBad (c j : Nat) (is : List Nat) :
    ∀ s : State, j ∈ ((s.noteBad c is).ctx c).badRgn ↔ j ∈ (s.ctx c).badRgn ∨ j ∈ is := by
  induction is with
  | nil => intro s; simp [State.noteBad_eq]
  | cons i r ih =>
    intro s
    have h : s.noteBad c (i :: r) = (s.noteOne c i).noteBad c r := rfl
    rw [h, ih, State.mem_badRgn_noteOne, List.mem_cons, or_assoc]

/-! ### The L2 and the reads of a walk (R251, R258) -/

theorem Upkeep.charge (s : State) (cls t k : Nat) : Upkeep s (s.charge cls t k) := by
  unfold State.charge
  split
  · exact .refl s
  · exact .ofQuiet rfl rfl rfl rfl rfl rfl fun _ he => he

theorem Upkeep.setL2 {s t : State} (h : Upkeep s t) (l2 : Tbl (List CLine)) : Upkeep s { t with l2 := l2 } :=
  h.trans (.ofQuiet rfl rfl rfl rfl rfl rfl fun _ he => he)

theorem Upkeep.forget (s : State) (holder line : Nat) : Upkeep s (s.forget holder line) :=
  .ofQuiet rfl rfl rfl rfl rfl rfl fun _ he => (List.mem_filter.mp he).1

/-- A byte that a cache held reaches its row. -/
theorem Upkeep.writeOld {s t : State} (h : Upkeep s t) {e : Nat × Nat × BitVec 8} (he : e ∈ s.cacheOld) :
    Upkeep s (t.writeRows e.2.1 [e.2.2]) where
  still := h.still
  ring := h.ring
  old := fun d hd => h.old d (List.mem_filter.mp hd).1
  fills := h.fills
  ctx := h.ctx
  words := fun a ha => by
    have hne := ha.1 e he
    rw [State.rowWord_writeRows _ _ (by simp only [List.length_singleton]; omega), h.words a ha]

/-- Each of some bytes that a cache held reaches its row. -/
theorem Upkeep.writeOlds (s : State) (l : List (Nat × Nat × BitVec 8)) (h : ∀ e ∈ l, e ∈ s.cacheOld) :
    Upkeep s (l.foldl (fun s e => s.writeRows e.2.1 [e.2.2]) s) :=
  foldl_keeps (P := fun t => Upkeep s t) l (fun _ e he ht => ht.writeOld (h e he)) s (refl s)

theorem Upkeep.l2Clean (s : State) (sel : Nat → Bool) : Upkeep s (s.l2Clean sel) :=
  (writeOlds s _ fun _ he => (List.mem_filter.mp he).1).setL2 _

theorem Upkeep.l2Use (s : State) (t : Nat) (c : CLine) (lu : Bool) : Upkeep s (s.l2Use t c lu) := by
  have hc := Upkeep.charge s 9 t 1
  unfold State.l2Use
  dsimp only
  split
  · next v _ =>
    refine .trans ?_ (.forget _ _ _)
    split
    · exact (hc.trans (.l2Clean _ _)).setL2 _
    · exact hc.setL2 _
  · exact hc.setL2 _

/-- A fill joins the requests. -/
theorem Upkeep.startFillFor (s : State) (n c i task va pa cls scope home : Nat) : Upkeep s (s.startFillFor n c i task va pa cls scope home) := by
  unfold State.startFillFor
  split
  · exact .refl s
  · exact { still := rfl, ring := ⟨rfl, rfl⟩, old := fun e he => ⟨e, he, rfl⟩, fills := ⟨_, rfl, by simp⟩, ctx := fun _ => rfl, words := fun _ _ => rfl }

theorem Upkeep.sliceLine (s : State) (n c i task va pa cls scope home : Nat) : Upkeep s (s.sliceLine n c i task va pa cls scope home) := by
  unfold State.sliceLine
  dsimp only
  split
  · exact .l2Use _ _ _ _
  · exact (Upkeep.l2Use _ _ _ _).trans (.startFillFor _ _ _ _ _ _ _ _ _ _)

/-- The walks of a region table, with the records that they give rise to. -/
theorem Upkeep.walkedAll (s : State) (n c i task : Nat) (vas : List Nat) : Upkeep s (s.walkedAll n c i task vas) :=
  (Upkeep.noteBad s c _).trans (.foldl _ (fun u ks _ => .foldl ks (fun v _ _ => .sliceLine v _ _ _ _ _ _ _ _ _) u) _)

theorem Upkeep.selfWalk (s : State) (n c i task va : Nat) (found : Option Region) : Upkeep s (s.selfWalk n c i task va found) := by
  unfold State.selfWalk
  split
  · split
    · exact .walkedAll _ _ _ _ _ _
    · exact .refl s
  · exact .refl s

/-! ### The context table in the reads of a walk -/

@[simp] theorem State.charge_ctxs (s : State) (cls t k : Nat) : (s.charge cls t k).ctxs = s.ctxs := by
  unfold State.charge; split <;> rfl
@[simp] theorem State.l2Clean_ctxs (s : State) (sel : Nat → Bool) : (s.l2Clean sel).ctxs = s.ctxs :=
  foldl_keeps (P := fun t : State => t.ctxs = s.ctxs) (f := fun s (e : Nat × Nat × BitVec 8) => s.writeRows e.2.1 [e.2.2]) _ (fun _ _ _ h => h) s rfl
@[simp] theorem State.l2Use_ctxs (s : State) (t : Nat) (c : CLine) (lu : Bool) : (s.l2Use t c lu).ctxs = s.ctxs := by
  unfold State.l2Use State.forget
  dsimp only
  split
  · split <;> simp
  · simp
@[simp] theorem State.startFillFor_ctxs (s : State) (n c i task va pa cls scope home : Nat) :
    (s.startFillFor n c i task va pa cls scope home).ctxs = s.ctxs := by unfold State.startFillFor; split <;> rfl
@[simp] theorem State.sliceLine_ctxs (s : State) (n c i task va pa cls scope home : Nat) :
    (s.sliceLine n c i task va pa cls scope home).ctxs = s.ctxs := by unfold State.sliceLine; dsimp only; split <;> simp

/-- A walk notes the malformed entries that its search meets, and no other entry of any context. -/
theorem State.walkedAll_ctx (s : State) (n c i task : Nat) (vas : List Nat) :
    (s.walkedAll n c i task vas).ctx = (s.noteBad c (vas.flatMap fun va => s.walkBad c va).eraseDups).ctx := by
  have h : (s.walkedAll n c i task vas).ctxs = (s.noteBad c (vas.flatMap fun va => s.walkBad c va).eraseDups).ctxs :=
    foldl_keeps (P := fun t : State => t.ctxs = _) _ (fun u ks _ hu => foldl_keeps (P := fun t : State => t.ctxs = _) ks
      (fun v _ _ hv => (State.sliceLine_ctxs ..).trans hv) u hu) _ rfl
  unfold State.ctx; rw [h]

theorem State.mem_badRgn_walkedAll (s : State) (n c i task j : Nat) (vas : List Nat) :
    j ∈ ((s.walkedAll n c i task vas).ctx c).badRgn ↔ j ∈ (s.ctx c).badRgn ∨ ∃ va ∈ vas, j ∈ s.walkBad c va := by
  rw [State.walkedAll_ctx, State.mem_badRgn_noteBad, List.mem_eraseDups, List.mem_flatMap]

end Sys2Proof.Machine
end

section
/-! SUPPORT. What a lookup of a leader leaves (R246, R250 to R252): the walks' housekeeping, and the entry found at the head of its TLB. -/
namespace Sys2Proof.Machine

open Sys2Proof.Claims

/-! ### The walk of a region table -/

/-- What the search finds is well formed, holds the address, and is an entry of the table between the bounds. -/
theorem State.regionWalk_some {s : State} {base va : Nat} {e : Region} (fuel : Nat) :
    ∀ {lo hi}, s.regionWalk base va fuel lo hi = some e →
      e.ok = true ∧ e.vbase ≤ va ∧ va < e.vbase + e.len ∧ ∃ i, i < hi ∧ e = s.regionEntry base i := by
  induction fuel with
  | zero => intro lo hi h; simp [State.regionWalk] at h
  | succ fuel ih =>
    intro lo hi h
    unfold State.regionWalk at h
    dsimp only at h
    split at h
    · cases h
    next hlt =>
    have hmid : (lo + hi) / 2 < hi := by omega
    split at h
    · obtain ⟨hok, hlo, hhi, i, hi', he⟩ := ih h
      exact ⟨hok, hlo, hhi, i, by omega, he⟩
    next hbelow =>
    split at h
    · exact ih h
    next habove =>
    simp only [Bool.or_eq_true, Bool.not_eq_true', decide_eq_true_eq, not_or, Bool.not_eq_false, Nat.not_lt] at hbelow
    cases h
    exact ⟨hbelow.1, hbelow.2, by omega, _, hmid, rfl⟩

/-! ### The TLB -/

/-- An entry that is used is the first of at most 64; the others were there. -/
theorem Leader.tlbUse_tlb (l : Leader) (e : Region) :
    (l.tlbUse e).tlb.head? = some e ∧ (l.tlbUse e).tlb.length ≤ 64 ∧ ∀ x ∈ (l.tlbUse e).tlb, x = e ∨ x ∈ l.tlb := by
  refine ⟨rfl, List.length_take_le _ _, fun x hx => ?_⟩
  have hx' := List.mem_cons.mp (List.mem_of_mem_take hx)
  exact hx'.imp_right fun h => (List.mem_filter.mp h).1

/-- A TLB entry that covers the address is what the lookup finds. -/
theorem State.lookup_of_hit {s : State} {n va : Nat} (h : (s.leader n).tlbHit va = true) : ∃ e, s.lookup n va = some e := by
  unfold State.lookup
  split
  · next e _ => exact ⟨e, rfl⟩
  · next hn =>
    rw [List.find?_eq_none] at hn
    simp only [Leader.tlbHit, List.any_eq_true] at h
    obtain ⟨e, he, hc⟩ := h
    exact absurd hc (hn e he)

/-! ### The state after the walks of a lookup -/

/-- Where a region leads depends on the granted banks only. -/
theorem State.regionTarget_congr {s t : State} (h : t.hub = s.hub) : t.regionTarget = s.regionTarget := by
  have hg : t.granted = s.granted := by unfold State.granted; rw [h]
  unfold State.regionTarget
  rw [hg]

/-- The lookup finds a region that leads back to this part. -/
def State.leadsBack (s : State) (n va : Nat) : Prop :=
  ∃ e rva cls, s.lookup n va = some e ∧ s.regionTarget e (va - e.vbase) = some (.remote Config.partNumber rva cls)

/-- Without such a region there is no second walk. -/
theorem Upkeep.selfWalk_once {s u : State} (h : Upkeep s u) {n va : Nat} (c i task : Nat) (hb : ¬ s.leadsBack n va) :
    u.selfWalk n c i task va (s.lookup n va) = u := by
  unfold State.selfWalk
  rw [State.regionTarget_congr h.hub]
  split
  · next part rva cls ht =>
    split
    · next hp =>
      obtain ⟨e, he, ht⟩ := Option.bind_eq_some_iff.mp ht
      exact absurd ⟨e, rva, cls, he, hp ▸ ht⟩ hb
    · rfl
  · rfl

/-- The state after the first walk of a lookup below the scratch window, if its TLB makes it walk. -/
def State.firstWalk (s : State) (n va : Nat) : State :=
  if (s.leader n).tlbHit va then s else s.walked n (s.leader n).ctxOf (s.leader n).innOf (s.leader n).taskOf va
/-- The state after both walks. -/
def State.searched (s : State) (n va : Nat) : State :=
  (s.firstWalk n va).selfWalk n (s.leader n).ctxOf (s.leader n).innOf (s.leader n).taskOf va (s.lookup n va)

theorem Upkeep.firstWalk (s : State) (n va : Nat) : Upkeep s (s.firstWalk n va) := by
  unfold State.firstWalk
  split
  · exact .refl s
  · exact .walkedAll _ _ _ _ _ _

theorem Upkeep.searched (s : State) (n va : Nat) : Upkeep s (s.searched n va) :=
  (Upkeep.firstWalk s n va).trans (.selfWalk _ _ _ _ _ _ _)

theorem State.searched_once {s : State} {n va : Nat} (hb : ¬ s.leadsBack n va) : s.searched n va = s.firstWalk n va :=
  (Upkeep.firstWalk s n va).selfWalk_once _ _ _ hb

theorem State.tlbUse_scratch {s : State} {n va : Nat} (h : scratchBase ≤ va) : s.tlbUse n va = s := if_pos h
theorem State.tlbUse_found {s : State} {n va : Nat} {e : Region} (h : va < scratchBase) (he : s.lookup n va = some e) :
    s.tlbUse n va = (s.searched n va).setLeader n ((s.leader n).tlbUse e) := by
  rw [← (Upkeep.searched s n va).leader]
  unfold State.tlbUse
  rw [if_neg (Nat.not_le.mpr h)]
  simp only [State.searched, State.firstWalk, he]
theorem State.tlbUse_missed {s : State} {n va : Nat} (h : va < scratchBase) (he : s.lookup n va = none) : s.tlbUse n va = s.searched n va := by
  unfold State.tlbUse
  rw [if_neg (Nat.not_le.mpr h)]
  simp only [State.searched, State.firstWalk, he]

/-- Nothing but the TLB of leader `n` differs. -/
structure TlbMoves (n : Nat) (s t : State) : Prop where
  rest : t = { s with leaders := t.leaders }
  self : t.leader n = { s.leader n with tlb := (t.leader n).tlb }
  others : ∀ m, m ≠ n → t.leader m = s.leader m

/-- A lookup is housekeeping, after which the TLB takes the entry found. -/
theorem State.tlbUse_moves (s : State) (n va : Nat) : ∃ u, Upkeep s u ∧ TlbMoves n u (s.tlbUse n va) := by
  by_cases hva : scratchBase ≤ va
  · exact ⟨s, .refl s, by rw [State.tlbUse_scratch hva]; exact ⟨rfl, rfl, fun _ _ => rfl⟩⟩
  have hu := Upkeep.searched s n va
  refine ⟨_, hu, ?_⟩
  cases he : s.lookup n va with
  | none => rw [State.tlbUse_missed (Nat.not_le.mp hva) he]; exact ⟨rfl, rfl, fun _ _ => rfl⟩
  | some e =>
    rw [State.tlbUse_found (Nat.not_le.mp hva) he]
    refine ⟨rfl, ?_, fun m hm => State.setLeader_other _ _ _ hm⟩
    rw [State.setLeader_self, hu.leader]; rfl

/-! ### The record of malformed entries -/

theorem State.tlbUse_ctx {s : State} {n va : Nat} (h : va < scratchBase) : (s.tlbUse n va).ctx = (s.searched n va).ctx := by
  cases he : s.lookup n va with
  | none => rw [State.tlbUse_missed h he]
  | some e => rw [State.tlbUse_found h he, State.setLeader_ctx]

/-- A walk of the lookup's own context keeps what was noted before it. -/
theorem State.badRgn_selfWalk {s : State} {n c i task va j : Nat} {found : Option Region} (h : j ∈ (s.ctx c).badRgn) :
    j ∈ ((s.selfWalk n c i task va found).ctx c).badRgn := by
  unfold State.selfWalk
  split
  · split
    · exact (State.mem_badRgn_walkedAll ..).mpr (.inl h)
    · exact h
  · exact h

/-- What is noted after the first walk. -/
theorem State.mem_badRgn_firstWalk {s : State} {n va : Nat} (hm : (s.leader n).tlbHit va = false) (j : Nat) :
    j ∈ ((s.firstWalk n va).ctx (s.leader n).ctxOf).badRgn ↔
      j ∈ (s.ctx (s.leader n).ctxOf).badRgn ∨ j ∈ s.walkBad (s.leader n).ctxOf va := by
  simp [State.firstWalk, hm, State.walked, State.mem_badRgn_walkedAll]

/-! ### The whole lookup -/

/-- Housekeeping, and then a move of leader `n`'s TLB, is what an access may leave aside. -/
theorem Upkeep.aside {n : Nat} {s u t : State} (h : Upkeep s u) (k : TlbMoves n u t) : Aside n s t := by
  have hx := h.ctx
  have hb := h.bytes
  obtain ⟨c, r, m, e, cs, l, o, q, j, rfl⟩ : ∃ c r m e cs l o q j, u = { s with
      ctxs := c, ring := r, rows := m, ecc := e, counts := cs, l2 := l, cacheOld := o, reqs := q, reqNum := j } := ⟨_, _, _, _, _, _, _, _, _, h.eq⟩
  obtain ⟨hrest, hself, hothers⟩ := k
  generalize t.leaders = ls at hrest
  subst hrest
  refine ⟨rfl, hothers, hx, hb.1, hb.2.1, fun m a => ?_⟩
  by_cases hm : m = n
  · rw [hm, hself]; rfl
  · rw [hothers m hm]; rfl

theorem TlbMoves.onlyFills {n : Nat} {s u t : State} (h : Upkeep s u) (k : TlbMoves n u t) : OnlyFills s t := by
  rw [k.rest]; exact h.fills

/-- What housekeeping and a move of leader `n`'s TLB may differ in. -/
theorem TlbMoves.eq {n : Nat} {s u t : State} (h : Upkeep s u) (k : TlbMoves n u t) :
    t = { s with leaders := t.leaders, ctxs := t.ctxs, ring := t.ring, rows := t.rows, ecc := t.ecc, cacheOld := t.cacheOld, counts := t.counts
                 l2 := t.l2, reqs := t.reqs, reqNum := t.reqNum } := by
  have hrest := k.rest
  generalize t.leaders = ls at hrest
  subst hrest
  exact congrArg (fun v : State => { v with leaders := ls }) h.eq

end Sys2Proof.Machine
end

section
/-! `TrappedAccesses`: what lookups leave, and the trap of an access whose probe fails (R246 to R252, R282, R286). -/
namespace Sys2Proof.Machine

open Sys2Proof.Claims

/-- The walk of a context's table is the search from 0 to 4096. -/
theorem regionWalkFindsItsRegion : RegionWalkFindsItsRegion := fun _ _ _ _ h => State.regionWalk_some _ h

/-- A lookup is housekeeping and a move of the TLB; what it notes is what its walks meet. -/
theorem lookupsLeave : LookupsLeave := by
  intro s n va t twice
  obtain ⟨u, hu, hmoves⟩ := s.tlbUse_moves n va
  have htwice : twice ↔ s.leadsBack n va := Iff.rfl
  refine ⟨hu.aside hmoves, hmoves.onlyFills hu, hmoves.eq hu, hmoves.self.trans (by rw [hu.leader]), State.tlbUse_scratch,
    fun hva e he => ?_, fun hva hmiss i hi => ?_, fun hva hmiss honce i hi => ?_, fun hhit honce => ?_⟩
  · have := (s.leader n).tlbUse_tlb e
    simpa only [t, State.tlbUse_found hva he, State.setLeader_self] using this
  · simp only [t, State.tlbUse_ctx hva]
    exact State.badRgn_selfWalk ((State.mem_badRgn_firstWalk hmiss i).mpr hi)
  · simp only [t, State.tlbUse_ctx hva, State.searched_once (mt htwice.mpr honce)] at hi
    exact (State.mem_badRgn_firstWalk hmiss i).mp hi
  · by_cases hva : scratchBase ≤ va
    · simp only [t, State.tlbUse_scratch hva]
    · obtain ⟨e, he⟩ := State.lookup_of_hit hhit
      have hstay : s.searched n va = s := by rw [State.searched_once (mt htwice.mpr honce), State.firstWalk, if_pos hhit]
      simp only [t, State.tlbUse_found (Nat.not_le.mp hva) he, hstay]
      rfl

/-! ### Traps -/

/-- Clearing the two low bits rounds down to a multiple of 4. -/
theorem toNat_and_not_three (w : Word) : (w &&& ~~~3#64).toNat = w.toNat / 4 * 4 := by
  have h : w &&& ~~~3#64 = (w >>> 2) <<< 2 := by
    apply BitVec.eq_of_getLsbD_eq
    intro i hi
    have h3 : ∀ j, j < 64 → (~~~3#64).getLsbD j = decide (2 ≤ j) := by decide
    rw [BitVec.getLsbD_and, h3 i hi, BitVec.getLsbD_shiftLeft, BitVec.getLsbD_ushiftRight]
    by_cases h2 : i < 2
    · simp [h2]
    · simp [h2, hi, Nat.not_lt.mp h2]
  have hw := w.isLt
  rw [h, BitVec.toNat_shiftLeft, BitVec.toNat_ushiftRight, Nat.shiftLeft_eq, Nat.shiftRight_eq_div_pow]
  omega

/-- A change of leader `n` alone that keeps its scratch keeps every byte of memory. -/
theorem bytesKept_of_onlyLeader {n : Nat} {s t : State} (h : OnlyLeader n s t) (hs : (t.leader n).scratch = (s.leader n).scratch) : BytesKept s t := by
  obtain ⟨hrest, hothers⟩ := h
  refine ⟨fun a => by rw [hrest], fun a => by rw [hrest], fun m a => ?_⟩
  by_cases hm : m = n
  · rw [hm, hs]
  · rw [hothers m hm]

/-- A trap at a leader that handles none is taken (R235). -/
theorem State.trap_trapped {s : State} {n : Nat} (h : Free s n) (c : Cause) (tval telem : Word) :
    Trapped n (BitVec.ofNat 64 c.code) tval telem s (s.trap n c tval telem) := by
  have hact : (s.leader n).act = false := h
  have hself := State.trap_leader s n c tval telem hact
  have honly : OnlyLeader n s (s.trap n c tval telem) :=
    ⟨State.trap_rest s n c tval telem hact, fun m hm => State.trap_other s n c tval telem hact hm⟩
  have hbytes := bytesKept_of_onlyLeader honly (by rw [hself]; rfl)
  dsimp only [Trapped]
  rw [hself]
  exact ⟨by simp [Leader.trapped], rfl, rfl, toNat_and_not_three _, rfl, rfl, rfl, rfl, rfl, rfl, rfl, honly, hbytes⟩

/-! ### The checks before a lookup (R252) -/

theorem State.translate_misaligned (s : State) (n : Nat) (q : Seq) {va : Nat} (len : Nat) {k : AccKind} (h : va % k.align ≠ 0) :
    s.translate n q va len k = .error .misaligned := if_pos h
theorem State.translate_outside (s : State) (n : Nat) (q : Seq) {va : Nat} (len : Nat) {k : AccKind} (h : va % k.align = 0) (hva : 2 ^ 52 ≤ va) :
    s.translate n q va len k = .error .regionMiss := by
  unfold State.translate State.translateBy
  rw [if_neg (Decidable.not_not.mpr h), if_pos hva]
theorem State.touch_misaligned (s : State) (n : Nat) {va align : Nat} (h : va % align ≠ 0) : s.touch n va align = s := if_pos (.inl h)

/-- The lookup of a probe leaves whether a trap is being handled. -/
theorem State.touch_free {s : State} {n : Nat} (h : Free s n) (va align : Nat) : Free (s.touch n va align) n := by
  unfold State.touch
  split
  · exact h
  · obtain ⟨u, hu, hmoves⟩ := s.tlbUse_moves n va
    unfold Free
    rw [hmoves.self, hu.leader]
    exact h

/-! ### A leader access whose probe fails -/

/-- What an access does once its probe has failed: the trap with the address, after the lookup. -/
def State.accessFault (s : State) (n va align : Nat) (c : Cause) : State := (s.touch n va align).trap n c (BitVec.ofNat 64 va) 0

theorem State.accessFault_trapped {s : State} {n : Nat} (h : Free s n) (va align : Nat) (c : Cause) :
    Trapped n (BitVec.ofNat 64 c.code) (BitVec.ofNat 64 va) 0 (s.touch n va align) (s.accessFault n va align c) :=
  State.trap_trapped (State.touch_free h va align) c _ _

theorem State.ldAt_fault {s : State} {n va : Nat} {sz : BitVec 3} {c : Cause} (hb : s.heldByBanks n = false)
    (ht : s.translate n (.leader n) va (ldSize sz) (loadKind (ldSize sz)) = .error c) (d len hint : Nat) :
    s.ldAt n d sz va len hint = s.accessFault n va (ldSize sz) c := by
  unfold loadKind at ht
  unfold State.ldAt
  dsimp only
  rw [hb, ht]
  rfl

theorem State.stAt_fault {s : State} {n va : Nat} {sz : BitVec 3} {c : Cause} (hb : s.heldByBanks n = false)
    (ht : s.translate n (.leader n) va (ldSize sz) (storeKind (ldSize sz)) = .error c) (d len hint : Nat) :
    s.stAt n d sz va len hint = s.accessFault n va (ldSize sz) c := by
  unfold storeKind at ht
  unfold State.stAt
  dsimp only
  rw [hb, ht]
  rfl

theorem State.atomicAt_fault {s : State} {n va len : Nat} {k : AccKind} {c : Cause} (hb : s.heldByBanks n = false)
    (ht : s.translate n (.leader n) va len (atomKind k len) = .error c) (d : Nat) (op : ReqOp) :
    s.atomicAt n d op va len k = s.accessFault n va len c := by
  unfold atomKind at ht
  unfold State.atomicAt
  dsimp only
  rw [hb, ht]
  rfl

/-- The effective address of the statements is the model's. -/
theorem effAddr_eq (x : Word) (off : Int) (size : Nat) : effAddr x off size = eaOf x off size := by
  simp only [effAddr, eaOf, BitVec.toNat_add, BitVec.toNat_ofInt]
  omega

/-! ### The meanings of the leader's accesses -/

theorem exec_ld (d a sz h o) (s : State) : exec (.ld d a sz h o) s = execLd d a sz h o s := by rfl
theorem exec_ldExt (d a sz h o) (s : State) : exec (.ldExt d a sz h o) s = execLdExt d a sz h o s := by rfl
theorem exec_st (d a sz h o) (s : State) : exec (.st d a sz h o) s = execSt d a sz h o s := by rfl
theorem exec_stExt (d a sz h o) (s : State) : exec (.stExt d a sz h o) s = execStExt d a sz h o s := by rfl
theorem exec_lda (d a z) (s : State) : exec (.lda d a z) s = execLda d a z s := by rfl
theorem exec_sta (a b z) (s : State) : exec (.sta a b z) s = execSta a b z s := by rfl
theorem exec_amo (d a b z o) (s : State) : exec (.amo d a b z o) s = execAmo d a b z o s := by rfl
theorem exec_cas (d a b z) (s : State) : exec (.cas d a b z) s = execCas d a b z s := by rfl

/-! ### A failed probe, by the form of the access -/

theorem exec_load_fault {i : Instr} {s : State} {n d a k va len : Nat} {signed : Prop} {c : Cause}
    (hop : loadOp (s.leader n).xr i = some (d, a, k, signed, va, len)) (hr : Ready s n [a]) (hb : s.heldByBanks n = false)
    (ht : s.translate n (.leader n) va k (loadKind k) = .error c) : exec i s = .next (s.accessFault n va k c) := by
  unfold loadOp at hop
  split at hop
  case h_3 => cases hop
  all_goals
    simp only [Option.some.injEq, Prod.mk.injEq] at hop
    obtain ⟨rfl, rfl, rfl, -, rfl, rfl⟩ := hop
    simp only [exec_ld, exec_ldExt, execLd, execLdExt, onLeader_ready hr.1 hr.2, effAddr_eq]
    exact congrArg _ (State.ldAt_fault hb ht _ _ _)

theorem exec_store_fault {i : Instr} {s : State} {n d a k va len : Nat} {c : Cause}
    (hop : storeOp (s.leader n).xr i = some (d, a, k, va, len)) (hr : Ready s n [a, d]) (hb : s.heldByBanks n = false)
    (ht : s.translate n (.leader n) va k (storeKind k) = .error c) : exec i s = .next (s.accessFault n va k c) := by
  unfold storeOp at hop
  split at hop
  case h_3 => cases hop
  all_goals
    simp only [Option.some.injEq, Prod.mk.injEq] at hop
    obtain ⟨rfl, rfl, rfl, rfl, rfl⟩ := hop
    simp only [exec_st, exec_stExt, execSt, execStExt, onLeaderC_ready hr.1 hr.2, effAddr_eq]
    exact congrArg _ (State.stAt_fault hb ht _ _ _)

theorem exec_atomic_fault {i : Instr} {s : State} {n d va k : Nat} {srcs : List Nat} {ak : AccKind} {op : ReqOp} {c : Cause}
    (hop : atomOp (s.leader n).xr i = some (d, srcs, va, k, ak, op)) (hr : Ready s n srcs) (hb : s.heldByBanks n = false)
    (ht : s.translate n (.leader n) va k (atomKind ak k) = .error c) : exec i s = .next (s.accessFault n va k c) := by
  unfold atomOp at hop
  split at hop
  case h_5 => cases hop
  all_goals
    simp only [Option.some.injEq, Prod.mk.injEq] at hop
    obtain ⟨rfl, rfl, rfl, rfl, rfl, rfl⟩ := hop
    simp only [exec_lda, exec_sta, exec_amo, exec_cas, execLda, execSta, execAmo, execCas, onLeader_ready hr.1 hr.2, onLeaderC_ready hr.1 hr.2]
    exact congrArg _ (State.atomicAt_fault hb ht _ _)

/-- Each form of access comes to its fault; the checks before the lookup are those of `translate` and `touch`. -/
theorem accessTraps : AccessTraps := by
  refine ⟨fun i s n d a k va len signed c _ hacc hb hf => ?_, fun i s n d va k srcs ak op c _ hop hr hb hf ht => ?_,
    fun s n q va len k => ⟨fun h => ?_, fun h hva => ?_⟩⟩
  · refine ⟨_, ?_, State.accessFault_trapped hf va k c⟩
    obtain ⟨hop, hr, ht⟩ | ⟨hop, hr, ht⟩ := hacc
    · exact exec_load_fault hop hr hb ht
    · exact exec_store_fault hop hr hb ht
  · exact ⟨_, exec_atomic_fault hop hr hb ht, State.accessFault_trapped hf va k c⟩
  · exact ⟨State.translate_misaligned s n q len h, State.touch_misaligned s n h⟩
  · exact State.translate_outside s n q len h hva

/-- Settles O10: every access comes to one fault, taken over the state that its lookup leaves. -/
theorem trappedAccesses : Obligations.TrappedAccesses := ⟨accessTraps, regionWalkFindsItsRegion, lookupsLeave⟩

end Sys2Proof.Machine
end

section
/-! The machine after reset (R6), and what a package reset leaves (R421). -/
namespace Sys2Proof.Machine

open Sys2Proof.Claims

/-! ### After reset -/

theorem State.reset_array (a : Nat) : State.reset.array a = Array_.reset := rfl

/-- Context 0 is LIVE and every other one FREE (R355). -/
theorem State.reset_ctx (c : Nat) : State.reset.ctx c = if c = 0 then { Ctx.reset with st := 1 } else Ctx.reset := by
  simp only [State.ctx, State.reset, tget, eq_comm (a := 0)]

theorem Leader.reset_xr (r : Nat) : Leader.reset.xr r = 0 := ite_self 0
theorem Bank.reset_yr (r : Nat) : Bank.reset.yr r = 0 := ite_self 0
theorem Array_.reset_plane (p : Nat) : Array_.reset.plane p = Plane.reset := ite_self _

theorem canonical_reset : Canonical State.reset := ⟨rfl, rfl, rfl, rfl, rfl, rfl, by decide, rfl⟩

/-- Settles O59: every part but context 0 reads the default of its table. -/
theorem resetState : Obligations.ResetState := by
  refine ⟨canonical_reset, rfl, rfl, rfl, rfl, fun n r => ⟨rfl, Leader.reset_xr r, rfl, rfl, rfl, rfl, rfl, rfl, rfl, rfl⟩,
    fun _ _ => rfl, fun _ _ => ⟨rfl, rfl⟩, fun _ r => Bank.reset_yr r, fun _ p => ?_, fun _ _ => rfl, fun _ => rfl, rfl, fun c hc => ?_,
    fun _ => rfl, rfl, rfl, rfl, rfl, rfl, rfl, rfl, rfl, rfl, rfl⟩
  · rw [State.reset_array, Array_.reset_plane]; rfl
  · rw [State.reset_ctx, if_neg hc]; rfl

/-! ### The boot's images -/

theorem bootImages_pass {kind : Nat} {m : List (BitVec 8)} (h : imageOk kind m = true) (r : List (List (BitVec 8))) :
    bootImages kind (m :: r) = (Config.sha512 (m.take 128 ++ m.drop 256)).take 48 :: bootImages (kind + 1) r := if_pos h
theorem bootImages_fail {kind : Nat} {m : List (BitVec 8)} (h : ¬ imageOk kind m = true) (r : List (List (BitVec 8))) :
    bootImages kind (m :: r) = [] := if_neg h

theorem length_bootImages_le (l : List (List (BitVec 8))) : ∀ kind, (bootImages kind l).length ≤ l.length := by
  induction l with
  | nil => intro _; exact Nat.le_refl 0
  | cons m r ih =>
    intro kind
    by_cases h : imageOk kind m = true
    · simpa [bootImages_pass h] using ih (kind + 1)
    · simp [bootImages_fail h]

/-- All images load exactly when each passes the root's checks at its place. -/
theorem length_bootImages_eq (l : List (List (BitVec 8))) :
    ∀ kind, (bootImages kind l).length = l.length ↔ ∀ k, k < l.length → imageOk (k + kind) (l.getD k []) = true := by
  induction l with
  | nil => intro kind; simp [bootImages]
  | cons m r ih =>
    intro kind
    have hshift : ∀ k, k + 1 + kind = k + (kind + 1) := fun k => by omega
    rw [List.length_cons, Nat.forall_lt_succ_left]
    simp only [Nat.zero_add, List.getD_cons_zero, List.getD_cons_succ, hshift, ← ih (kind + 1)]
    by_cases h : imageOk kind m = true
    · simp [bootImages_pass h, h]
    · simp [bootImages_fail h, h]

/-- The three images of a package load exactly when three are given and each passes. -/
theorem length_bootImages_three (imgs : List (List (BitVec 8))) :
    (bootImages 1 (imgs.take 3)).length = 3 ↔ 3 ≤ imgs.length ∧ ∀ k, k < 3 → imageOk (k + 1) (imgs.getD k []) = true := by
  have hle := length_bootImages_le (imgs.take 3) 1
  rw [List.length_take] at hle
  by_cases h3 : 3 ≤ imgs.length
  · have hl : (imgs.take 3).length = 3 := by rw [List.length_take]; omega
    have h := length_bootImages_eq (imgs.take 3) 1
    rw [hl] at h
    rw [h]
    refine ⟨fun h => ⟨h3, fun k hk => ?_⟩, fun h k hk => ?_⟩
    · simpa [List.getD_eq_getElem?_getD, List.getElem?_take, hk] using h k hk
    · simpa [List.getD_eq_getElem?_getD, List.getElem?_take, hk] using h.2 k hk
  · exact ⟨fun h => by omega, fun h => absurd h.1 h3⟩

/-! ### The tiers' permits -/

theorem tget_append {α : Type} (d : α) (t r : Tbl α) (k : Nat) : tget d (t ++ r) k = tget (tget d r k) t k := by
  induction t with
  | nil => rfl
  | cons e t ih =>
    obtain ⟨a, v⟩ := e
    simp only [List.cons_append, tget, ih]

/-- A table that lists the keys below `n`. -/
theorem tget_map_range {α : Type} (v : Nat → α) (k : Nat) : ∀ (n : Nat) (d : α),
    tget d ((List.range n).map fun j => (j, v j)) k = if k < n then v k else d := by
  intro n
  induction n with
  | zero => intro d; rfl
  | succ n ih =>
    intro d
    rw [List.range_succ, List.map_append, tget_append, ih]
    by_cases hlt : k < n
    · simp [hlt, Nat.lt_succ_of_lt hlt]
    · by_cases heq : n = k
      · simp [tget, heq]
      · have : ¬ k < n + 1 := by omega
        simp [tget, hlt, heq, this]

/-- The permits start at 16 or, where the operator allows less, at that (R384). -/
theorem State.packageReset_tier (s : State) (imgs : List (List (BitVec 8))) {k : Nat} (hk : k < 128) :
    ((s.packageReset imgs).tier k).value = min 16 s.hub.pmax := by
  unfold State.packageReset State.tier
  dsimp only
  split
  · rw [tget_map_range, if_pos hk]; dsimp only; omega
  · have h16 : min 16 s.hub.pmax = 16 := by omega
    rw [h16]; rfl

theorem State.packageReset_ctx (s : State) (imgs : List (List (BitVec 8))) : (s.packageReset imgs).ctx = State.reset.ctx := rfl

/-- The part stands in recovery unless all three images load (R421). -/
theorem State.packageReset_recovery (s : State) (imgs : List (List (BitVec 8))) :
    (s.packageReset imgs).hub.recovery = true ↔ ¬(3 ≤ imgs.length ∧ ∀ k, k < 3 → imageOk (k + 1) (imgs.getD k []) = true) := by
  rw [← length_bootImages_three]
  simp [State.packageReset]

end Sys2Proof.Machine
end

section
/-! The firmware's tables, the windows and the operator's settings (R40, R356, R368, R370, R412), and `TablesAndSettings`. -/
namespace Sys2Proof.Machine

open Sys2Proof.Claims

/-! ### Context entries (R356) -/

/-- A rope is bound to the context exactly when a leader's binding names it. -/
theorem State.boundCtx_iff (s : State) (c : Nat) : s.boundCtx c = true ↔ ∃ e ∈ s.leaders, ∃ b, e.2.bind = some b ∧ b.ctx = c := by
  simp [State.boundCtx, Option.any_eq_true]

/-- An entry with the tables that the words DW0 to DW4 give. -/
def Ctx.tabled (e : Ctx) (ws : List Word) : Ctx :=
  { e with prot := (ws.getD 0 0).getLsbD 61, rtb := bits (ws.getD 1 0) 39 7 * 128, gtb := ws.getD 2 0 &&& 0x000FFFFFFFFFF000#64
           biv := bits (ws.getD 3 0) 39 12 * 4096, entry := ws.getD 4 0 &&& 0x3FFFC#64, badRgn := [] }

theorem State.contextCreate_free {s : State} {c : Nat} (ws : List Word) (hc : c < 1024) (h0 : c ≠ 0) (hst : (s.ctx c).st = 0) :
    s.contextCreate c ws = s.setCtx c { ((s.ctx c).tabled ws).begun with
      st := 1, inn := bits (ws.getD 0 0) 13 0, q := [], silent := [], lack := none, parts := [] } := by
  unfold State.contextCreate
  dsimp only
  rw [if_neg (Nat.not_le.mpr hc), if_pos ⟨hst, h0⟩]
  rfl

theorem State.contextCreate_unbound {s : State} {c : Nat} (ws : List Word) (hc : c < 1024) (h : c = 0 ∨ (s.ctx c).st ≠ 0)
    (hb : ¬ s.boundCtx c = true) : s.contextCreate c ws = s.setCtx c ((s.ctx c).tabled ws) := by
  unfold State.contextCreate
  dsimp only
  rw [if_neg (Nat.not_le.mpr hc), if_neg (fun hx => h.elim hx.2 (· hx.1)), if_neg hb]
  rfl

theorem State.contextCreate_bound {s : State} {c : Nat} (ws : List Word) (hc : c < 1024) (h : c = 0 ∨ (s.ctx c).st ≠ 0)
    (hb : s.boundCtx c = true) : s.contextCreate c ws = s := by
  unfold State.contextCreate
  dsimp only
  rw [if_neg (Nat.not_le.mpr hc), if_neg (fun hx => h.elim hx.2 (· hx.1)), if_pos hb]

/-! ### Bind records (R368, R370) -/

/-- The eight doublewords of a bind record as they are stored. -/
def bindWords (ws : List Word) : List Word := (List.range 8).map fun k => ws.getD k 0

theorem bindWords_getD (ws : List Word) {k : Nat} (hk : k < 8) : (bindWords ws).getD k 0 = ws.getD k 0 := by
  simp [bindWords, List.getD_eq_getElem?_getD, hk]

/-- The slot table with record `i` as written, and no conflict of it on record. -/
def State.bindStored (s : State) (i : Nat) (ws : List Word) : State :=
  { s with hub := { s.hub with binds := tput [] s.hub.binds i (if (bindWords ws).all fun w => w == 0 then [] else bindWords ws)
                               clash := s.hub.clash.filter fun j => j != i } }

/-- Away from its START, or once its binding has ended, a record is written; an invalid one is recorded. -/
theorem State.bindWrite_stored {s : State} {i : Nat} {ws : List Word} (hi : i < 512)
    (hold : ¬ nearStart s (tget [] s.hub.binds i) ∨ bindEnd (tget [] s.hub.binds i) ≤ s.time) (hnew : ¬ nearStart s (bindWords ws)) :
    s.bindWrite i ws = if (ws.getD 0 0).getLsbD 63 && !s.bindOk (bindWords ws) then (s.bindStored i ws).record 10 0 0 0 [BitVec.ofNat 64 i]
      else s.bindStored i ws := by
  have near_false : ∀ x, ¬ nearStart s x → (bit (x.getD 0 0) 63 && decide ((x.getD 2 0).toNat < s.time + 10000)) = false := fun x hx =>
    Bool.eq_false_iff.mpr fun h => hx (by simpa [nearStart, bit] using h)
  have hr := near_false _ hnew
  have hkept : ∀ e : Bool, ((bit ((tget [] s.hub.binds i).getD 0 0) 63 && decide (((tget [] s.hub.binds i).getD 2 0).toNat < s.time + 10000)) &&
      !(decide (bindEnd (tget [] s.hub.binds i) ≤ s.time) || e)) = false := fun e => by
    rcases hold with h | h
    · rw [near_false _ h]; rfl
    · simp [h]
  have hw : bit ((bindWords ws).getD 0 0) 63 = (ws.getD 0 0).getLsbD 63 := by rw [bindWords_getD ws (by decide)]; rfl
  rw [hw] at hr
  unfold State.bindWrite
  rw [← bindWords]
  dsimp only
  rw [if_neg (Nat.not_le.mpr hi)]
  simp only [hkept, hw, hr, Bool.false_or, Bool.false_and, Bool.false_eq_true, if_false]
  rfl

theorem State.bindStored_words (s : State) (i : Nat) (ws : List Word) {k : Nat} (hk : k < 8) :
    (tget [] (s.bindStored i ws).hub.binds i).getD k 0 = ws.getD k 0 := by
  simp only [State.bindStored, tget_tput_self]
  split
  · next hz =>
    have h0 : ∀ w ∈ bindWords ws, w = 0 := by simpa using hz
    exact (h0 _ (List.mem_map.mpr ⟨k, List.mem_range.mpr hk, rfl⟩)).symm
  · exact bindWords_getD ws hk

/-- A record moves the ring and the memory under it only. -/
theorem State.record_eq (s : State) (type c i task : Nat) (body : List Word) :
    ∃ r m e o, s.record type c i task body = { s with ring := r, rows := m, ecc := e, cacheOld := o } := by
  unfold State.record
  dsimp only
  split
  · exact ⟨_, _, _, _, rfl⟩
  · exact ⟨_, _, _, _, rfl⟩

/-- What the write of a bind record may change beside the slot table, and the bytes that it keeps. -/
theorem State.bindWrite_frame {s t : State} {i : Nat} {ws : List Word} {p : Bool}
    (ht : t = if p then (s.bindStored i ws).record 10 0 0 0 [BitVec.ofNat 64 i] else s.bindStored i ws) :
    t.hub = (s.bindStored i ws).hub ∧
    t = { s with hub := { s.hub with binds := t.hub.binds, clash := t.hub.clash }, ring := t.ring, rows := t.rows, ecc := t.ecc, cacheOld := t.cacheOld } ∧
    BytesCalm s t ∧ t.ring.head = s.ring.head + if p then 1 else 0 := by
  cases p with
  | false => subst ht; exact ⟨rfl, rfl, ⟨fun _ _ => rfl, fun _ => rfl, fun _ _ => rfl⟩, rfl⟩
  | true =>
    have hu := Upkeep.record (s.bindStored i ws) 10 0 0 0 [BitVec.ofNat 64 i]
    rw [if_pos rfl] at ht
    refine ⟨ht ▸ hu.hub, ?_, ht ▸ hu.bytes, by rw [ht, State.record_head]; rfl⟩
    obtain ⟨r, m, e, o, hrec⟩ := State.record_eq (s.bindStored i ws) 10 0 0 0 [BitVec.ofNat 64 i]
    rw [ht, hrec]
    rfl

/-! ### The operator's settings (R40) -/

/-- The settings that `settingOp` names, by number. -/
def State.settings (s : State) : List Nat :=
  [s.hub.cap, s.hub.slew, s.hub.interval, s.hub.hstep, s.hub.wrow, s.hub.pmax, s.hub.bootStaging, s.hub.bootRing, s.hub.bootEbase, s.weights.purseSet]

/-- A setting that `settingOp` names has one of ten numbers, and is read at its place. -/
theorem settingOp_some {w v : Nat} {ok : Bool} {get : State → Nat} (h : settingOp w v = some (ok, get)) :
    w < 10 ∧ ∀ s, get s = s.settings.getD w 0 := by
  unfold settingOp at h
  split at h
  case h_11 => cases h
  all_goals
    simp only [Option.some.injEq, Prod.mk.injEq] at h
    obtain ⟨-, rfl⟩ := h
    exact ⟨by decide, fun _ => rfl⟩

/-- A task with a deadline is bound exactly when the model says so. -/
theorem State.deadlineBound_iff (s : State) : s.deadlineBound = true ↔ deadlineRuns s := by
  simp [State.deadlineBound, deadlineRuns, Option.any_eq_true]

/-- What a change of a setting leaves: `t` differs from `s` in setting `w`, which is now `v`, in the purse that comes with setting 9, and in STEP,
which setting 3 brings down while a task with a deadline is bound. -/
structure SettingTaken (w v : Nat) (s t : State) : Prop where
  settings : t.settings = s.settings.set w v
  purse : t.weights.purse = if w = 9 then v else s.weights.purse
  lowered : w = 3 → s.deadlineBound = true → t.hub.step = min s.hub.step v
  step : w ≠ 3 ∨ s.deadlineBound = false → t.hub.step = s.hub.step
  rest : t = { s with hub := t.hub, weights := { s.weights with purseSet := t.weights.purseSet, purse := t.weights.purse } }

/-- A value outside its setting's range changes nothing. -/
theorem State.setting_refused {s : State} {w v : Nat} {get : State → Nat} (h : settingOp w v = some (false, get)) : s.setting w v = s := by
  unfold settingOp at h
  split at h
  case h_11 => cases h
  all_goals
    simp only [Option.some.injEq, Prod.mk.injEq] at h
    refine if_neg ?_
    simpa only [decide_eq_true_eq] using of_decide_eq_false h.1

theorem SettingTaken.of_eq {w v : Nat} {s t u : State} (h : t = u) (k : SettingTaken w v s u) : SettingTaken w v s t := h ▸ k

/-- HSTEP brings STEP down with it while a task with a deadline is bound (R371). -/
theorem SettingTaken.hstep (s : State) (v : Nat) : SettingTaken 3 v s ({ s with hub := { s.hub with hstep := v } }.holdStep s.deadlineBound) := by
  unfold State.holdStep
  cases hd : s.deadlineBound with
  | false => exact ⟨rfl, rfl, fun _ h => Bool.noConfusion (hd.symm.trans h), fun _ => rfl, rfl⟩
  | true => exact ⟨rfl, rfl, fun _ _ => rfl, fun h => h.elim (absurd rfl) fun h => Bool.noConfusion (hd.symm.trans h), rfl⟩

/-- A value in range is taken. -/
theorem State.setting_taken {s : State} {w v : Nat} {get : State → Nat} (h : settingOp w v = some (true, get)) : SettingTaken w v s (s.setting w v) := by
  unfold settingOp at h
  split at h
  case h_11 => cases h
  all_goals
    simp only [Option.some.injEq, Prod.mk.injEq] at h
    refine .of_eq (if_pos ?_) ?_
    · simpa only [decide_eq_true_eq] using of_decide_eq_true h.1
  case h_4 => exact .hstep s v
  all_goals exact ⟨rfl, rfl, fun h => absurd h (by decide), fun _ => rfl, rfl⟩

end Sys2Proof.Machine
end

section
/-! `TablesAndSettings` from the laws of the tables, the settings and the boot. -/
namespace Sys2Proof.Machine

open Sys2Proof.Claims

theorem exec_contextCreate (c ws) (s : State) : exec (.contextCreate c ws) s = .next (s.contextCreate c ws) := by rfl
theorem exec_bindRecordWrite (i ws) (s : State) : exec (.bindRecordWrite i ws) s = .next (s.bindWrite i ws) := by rfl
theorem exec_windowEntryWrite (i ws) (s : State) : exec (.windowEntryWrite i ws) s = execWindowEntryWrite i ws s := by rfl
theorem exec_operatorSettingChange (w v) (s : State) : exec (.operatorSettingChange w v) s = .next (s.setting w v) := by rfl
theorem exec_ucieLinkTraining (ok) (s : State) : exec (.ucieLinkTraining ok) s = .next { s with hub := { s.hub with link := ok } } := by rfl
theorem exec_flitRetry (p) (s : State) : exec (.flitRetry p) s = .next s := by rfl
theorem exec_packageReset (imgs) (s : State) : exec (.packageReset imgs) s = .next (s.packageReset imgs) := by rfl

/-- A window entry as it is stored, its reserved bits zero (Table 19.1). -/
def windowWords (ws : List Word) : List Word :=
  [ws.getD 0 0 &&& 0x80FFFFFFFFFFFFFF#64, ws.getD 1 0 &&& 0x000FFFFFFFFFFF80#64, ws.getD 2 0 &&& 0x000FFFFFFFFFFF80#64]

/-- The window table with entry `i` as written. -/
def State.windowStored (s : State) (i : Nat) (ws : List Word) : State :=
  { s with host := { s.host with windows := tput [] s.host.windows i (if windowWords ws = [0, 0, 0] then [] else windowWords ws) } }

theorem exec_windowEntryWrite_stored {i : Nat} (hi : i < 64) (ws : List Word) (s : State) :
    exec (.windowEntryWrite i ws) s = .next (s.windowStored i ws) :=
  (exec_windowEntryWrite i ws s).trans (congrArg _ (if_neg (Nat.not_le.mpr hi)))

/-- An entry of zeros alone is not listed, and reads as zeros all the same. -/
theorem State.windowStored_getD (s : State) (i : Nat) (ws : List Word) (k : Nat) :
    (tget [] (s.windowStored i ws).host.windows i).getD k 0 = (windowWords ws).getD k 0 := by
  simp only [State.windowStored, tget_tput_self]
  split
  · next h => rw [h]; rcases k with _ | _ | _ | k <;> rfl
  · rfl

/-- Settles O55: each write by its law, one bullet for each case of it. -/
theorem tablesAndSettings : Obligations.TablesAndSettings := by
  refine ⟨fun s c ws hc => ⟨fun h0 hst => ?_, fun h hb => ?_, fun h hb => ?_⟩, fun s i ws hi hold hnew => ?_, fun s i ws hi => ?_,
    fun s w v ok get h => ?_, fun s ok p => ⟨⟨_, exec_ucieLinkTraining ok s, rfl⟩, ⟨_, exec_flitRetry p s, rfl⟩⟩, fun s imgs => ?_⟩
  · refine ⟨_, exec_contextCreate c ws s, ?_⟩
    rw [State.contextCreate_free ws hc h0 hst]
    dsimp only
    rw [State.setCtx_self]
    refine ⟨rfl, by simp [bits], ⟨rfl, rfl, rfl, rfl, rfl⟩, rfl, rfl, rfl, rfl, rfl, fun k hk => State.setCtx_other _ _ _ hk, rfl⟩
  · refine ⟨_, exec_contextCreate c ws s, ?_⟩
    have hfree : ¬ s.boundCtx c = true := fun hx => by
      obtain ⟨e, he, b, hbind, hbc⟩ := (s.boundCtx_iff c).mp hx
      exact hb e he b hbind hbc
    rw [State.contextCreate_unbound ws hc h hfree]
    dsimp only
    rw [State.setCtx_self]
    exact ⟨⟨rfl, rfl, rfl, rfl, rfl⟩, rfl, fun k hk => State.setCtx_other _ _ _ hk, rfl⟩
  · exact ⟨_, exec_contextCreate c ws s, State.contextCreate_bound ws hc h ((s.boundCtx_iff c).mpr hb)⟩
  · refine ⟨_, exec_bindRecordWrite i ws s, ?_⟩
    obtain ⟨hhub, hrest, hbytes, hhead⟩ := State.bindWrite_frame (State.bindWrite_stored hi hold hnew)
    refine ⟨fun k hk => hhub ▸ State.bindStored_words s i ws hk, fun k hk => ?_, hrest, hbytes, ?_, hhead⟩
    · rw [hhub]; exact tget_tput_other _ _ _ hk
    · rw [hhub]; simp [State.bindStored]
  · refine ⟨_, exec_windowEntryWrite_stored hi ws s, rfl, s.windowStored_getD i ws 0, fun k hk => ?_, fun k hk => tget_tput_other _ _ _ hk⟩
    obtain rfl | rfl := hk
    · exact s.windowStored_getD i ws 1
    · exact s.windowStored_getD i ws 2
  · refine ⟨_, exec_operatorSettingChange w v s, ?_⟩
    have hget := settingOp_some h
    have hnot : ¬ deadlineRuns s → s.deadlineBound = false := fun hd => Bool.eq_false_iff.mpr (mt s.deadlineBound_iff.mp hd)
    cases ok with
    | false =>
      rw [State.setting_refused h]
      exact ⟨fun h => Bool.noConfusion h, fun _ => rfl, fun _ _ _ _ _ _ => rfl, by simp, fun _ h => Bool.noConfusion h, fun _ => rfl, rfl⟩
    | true =>
      have k := State.setting_taken (s := s) h
      refine ⟨fun _ => ?_, fun h => Bool.noConfusion h, fun w' u ok' get' hw' h' => ?_, by simpa using k.purse,
        fun h3 _ hd => k.lowered h3 (s.deadlineBound_iff.mpr hd), fun h3 => k.step (h3.imp_right hnot), k.rest⟩
      · rw [hget.2, k.settings]
        simp [List.getD_eq_getElem?_getD, State.settings, hget.1]
      · rw [(settingOp_some h').2, (settingOp_some h').2, k.settings]
        simp [List.getD_eq_getElem?_getD, List.getElem?_set_ne (Ne.symm hw')]
  · refine ⟨_, exec_packageReset imgs s, rfl, rfl, rfl, rfl, rfl, rfl, rfl, rfl, rfl, ?_, fun c hc => ?_, rfl, rfl,
      fun k hk => State.packageReset_tier s imgs hk, rfl, rfl, rfl, rfl, rfl, rfl, rfl, rfl, rfl, rfl, rfl, rfl, State.packageReset_recovery s imgs⟩
    · rfl
    · rw [State.packageReset_ctx, State.reset_ctx, if_neg hc]; rfl

end Sys2Proof.Machine
end
